-- ==== Sys2Proof/Word.lean ====
section
/-! DEFINITION. The word types of the device (R4: registers are 32 bits wide). -/

namespace Sys2Proof

/-- A register word, an argument word or an event word. -/
abbrev Word := BitVec 32

/-- One byte of an addressed memory. -/
abbrev Byte := BitVec 8

end Sys2Proof
end

