-- ==== Sys2Proof/Syntax.lean ====
section
/-! DEFINITION. The commands of the block and their operands, one constructor per row of the operation table. -/

namespace Sys2Proof

/-- An engine: E0-E15, and 16 for the control engine CE (R67). -/
abbrev Eng := Fin 17

/-- The second operand of a scalar instruction: Gb, or IMM15 sign-extended (R99, R102). -/
inductive SOp where
  | reg (b : Fin 16)
  | imm (i : BitVec 15)
  deriving DecidableEq, Repr

/-- Coefficient formats CF of Vb (R106): Q1.31, Q2.30, Q4.28. -/
inductive Cf where
  | q31 | q30 | q28
  deriving DecidableEq, Repr

/-- Vector compare conditions (R104). -/
inductive Vcc where
  | eq | ne | lt | le | gt | ge
  deriving DecidableEq, Repr

/-- Half selectors H of the element instructions (R117): real, imaginary, the lane as B40, both halves. -/
inductive Half where
  | re | im | b40 | both
  deriving DecidableEq, Repr

/-- Pack formats (R111). -/
inductive PackFmt where
  | s32 | c32 | g428 | s24
  deriving DecidableEq, Repr

/-- Address modes of the memory instructions (R100, R118); the offsets are in units of the access size. -/
inductive AMode where
  | plain
  | postM (m : Fin 16)
  | offset (n : BitVec 11)
  | postN (n : BitVec 11)
  deriving DecidableEq, Repr

/-- What a load or store moves (R101): a vector, a broadcast word, or a scalar register. -/
inductive MemT where
  | vec (v : Fin 32) (q : Fin 4)
  | bcast (v : Fin 32) (q : Fin 4)
  | g (r : Fin 16)
  | p (r : Fin 16)
  | m (r : Fin 16)
  deriving DecidableEq, Repr

/-- Register classes of MOV (R101). -/
inductive RegC where
  | g | p | m | q
  deriving DecidableEq, Repr

/-- Branch conditions (R126). -/
inductive Cond where
  | always | eq | ne | lt | ge | le | gt | lo | hs | ls | hi | mi | pl | vs | vc
  deriving DecidableEq, Repr

/-- The configuration registers of a serial port that R227 guards. -/
inductive TdmReg where
  | ctl | xctl | xcfg
  deriving DecidableEq, Repr

/-- A slot word of a raft frame (R261). -/
structure RaftWord where
  slot : Fin 24576
  word : BitVec 40
  deriving DecidableEq, Repr

/-- A chip of a ring in ring order, with the delay of its east hop as hop reports give it (R264): position, D_hop, and t
in 1/256 sample. -/
structure RaftHop where
  pos : Fin 64
  dhop : BitVec 8
  t : BitVec 16
  deriving DecidableEq, Repr

/-- The offset of a reference candidate in one monitor window (R311), in signed ppt. -/
structure RefMeas where
  c : Fin 11
  off : BitVec 40
  deriving DecidableEq, Repr

/-- A register pair of the reference block whose LO word latches its HI word: DCO, a candidate's measurement, the holdover
frequency (R322). -/
inductive RefLo where
  | dco
  | meas (c : Fin 11)
  | havg
  deriving DecidableEq, Repr

/-- A time value that a read of its word 0 latches (R326). -/
inductive TimeReg where
  | now | map | ppsIn
  deriving DecidableEq, Repr

/-- An element of an RTP header extension (R296): ID and data bytes. -/
structure RtpExt where
  id : BitVec 8
  data : List Byte
  deriving DecidableEq, Repr

/-- A UDP packet with the fields that R286, R290 and R292 read; `sumOk`: its checksum is zero or right; `padded`: the RTP padding
bit. -/
structure UdpPkt where
  daddr : Word
  saddr : Word
  dport : BitVec 16
  vid : Option (BitVec 12)
  sumOk : Bool
  version : BitVec 2
  padded : Bool
  ts : Word
  seq : BitVec 16
  ssrc : Word
  exts : List RtpExt
  payload : List Byte
  deriving DecidableEq, Repr

/-- A received frame as the MAC classifies it (R286, R290, R303): a bad FCS; what the device does not support: a MAC control
frame, IPv6, an IPv4 fragment, IPv4 options; UDP; a SAP announcement with its record (R390); ARP, a request or an answer, with
the sender's addresses and the target; an IGMP query for a group or for all; other IGMP; an ICMP echo request; other ICMP;
another frame to this MAC's address; another multicast frame. -/
inductive NetFrame where
  | badFcs
  | macControl
  | ipv6
  | fragment
  | options
  | udp (p : UdpPkt)
  | sap (src : Word) (daddr : Word) (dport : BitVec 16) (format : Word) (mcoff : Word) (hash : BitVec 16)
  | arp (request : Bool) (ip : Word) (hw : BitVec 48) (target : Word)
  | igmpQuery (group : Word)
  | igmp
  | echo (ip : Word) (id : BitVec 16) (seq : BitVec 16) (data : List Byte)
  | icmp
  | other
  | multicast
  deriving DecidableEq, Repr

/-- An edge of BCLK, rising or falling, at which FSYNC is sampled at `level` after the other level (R222). -/
structure FrameEdge where
  rising : Bool
  level : Bool
  deriving DecidableEq, Repr

/-- The receive or the transmit FIFO of a serial port (R19, R230). -/
structure PortFifo where
  port : Fin 32
  tx : Bool
  deriving DecidableEq, Repr

/-- A frame boundary of a serial port, with the masks whose writes reached the port more than 2 BCLK periods before it (R237). -/
structure MaskEdge where
  port : Fin 32
  rx : Bool
  tx : Bool
  deriving DecidableEq, Repr

/-- An item that a pair copy brings to the standby (R355): a register of a copied table, an entry of the parameter store
with its kerf, a route with its kerf, a scheduled command, the armed scene with its commit, a word of DMEM, a word of far memory. -/
inductive CopyItem where
  | reg (off : BitVec 26) (v : Word)
  | kps (e : Fin 16) (i : Fin 4096) (start : Word) (tgt : Word) (busy : Bool) (kend : Bool) (curve : Fin 4) (fmt : Fin 4)
      (span : Fin 65537) (elapsed : Fin 65537)
  | route (i : Fin 16384) (cfg : Word) (src : BitVec 15) (kerf : Option (BitVec 15 × Fin 4 × Fin 65537 × Fin 65537))
  | sched (opcode : BitVec 16) (args : List Word) (idx : BitVec 64) (sys : Bool) (policy : Fin 3)
  | armed (buf : Fin 64) (acts : List (Word × Word × Word × Word)) (commit : Option (BitVec 64 × Bool × Fin 3))
  | dmem (e : Fin 16) (w : Fin 65536) (v : BitVec 64)
  | far (addr : BitVec 40) (v : BitVec 64)
  deriving DecidableEq, Repr


/-- What the crossbar shows of a transaction (R401, R406): the beat on which it finds a parity error, and the CCLK cycles in
which the request waited while its yard target had granted another master. -/
structure TxFate where
  par : Option (Fin 16)
  waited : BitVec 16
  deriving DecidableEq, Repr

/-- How a cruise step ends (R407-R409): the region passes, another master's access meets it, its save read finds a
double-bit error, or the March test reads a wrong value. -/
inductive CruiseRes where
  | ok | collide | unc | fail
  deriving DecidableEq, Repr

/-- A boot image as the ROM meets it (R459, R460): the 64 words of its header, the CE's IMEM and DMEM contents, and what
the cryptographic checks give: SHA-256 of the key, and whether the signature verifies. -/
structure BootImg where
  header : List Word
  imem : List Byte
  dmem : List Byte
  keyHash : BitVec 256
  sigOk : Bool
  deriving DecidableEq, Repr

/-- A request of the debug access port (R79, R467): halt, single-step, or an access to an engine's local memory. -/
inductive DebugReq where
  | halt
  | sstep
  | read (addr : BitVec 22)
  | write (addr : BitVec 22) (b : Byte)
  deriving DecidableEq, Repr

/-- The commands the block takes from outside: one constructor per row of spec/opcode_table.json, in its order. -/
inductive Instr where
  /-- SAMPLE_TICK, R143: At each sample tick the counter advances and the landing runs every enabled route, kerf mix and meter update from one snapshot of the source space. -/
  | sampleTick (edges : BitVec 24)
  /-- BLOCK_TICK, R40: At a block boundary the device swaps the engine I/O blocks, rewrites the KPS entries, wakes the engines and publishes per-block records. -/
  | blockTick (bad : List (Fin 16 × Fin 4))
  /-- DEADLINE_OVERRUN, R53: An engine that has not marked the end of a block by its deadline has its previous output faded out and ENG_OVERRUN raised. -/
  | deadlineOverrun (e : Fin 16)
  /-- NOP, R93: A NOP slot does nothing. -/
  | nop (e : Eng) (imemParity : Bool)
  /-- ILLEGAL_BUNDLE, R94: An illegal bundle has no effect and halts the engine with CAUSE 1 and ENG_FAULT. -/
  | illegalBundle (e : Eng) (bundle : BitVec 64)
  /-- ADD, R102: Scalar add that sets N, Z, C and V. -/
  | addOp (e : Eng) (pair : Bool) (gd ga : Fin 16) (b : SOp)
  /-- SUB, R102: Scalar subtract that sets N, Z, C and V. -/
  | subOp (e : Eng) (pair : Bool) (gd ga : Fin 16) (b : SOp)
  /-- AND, R102: Scalar bitwise AND. -/
  | andOp (e : Eng) (pair : Bool) (gd ga : Fin 16) (b : SOp)
  /-- OR, R102: Scalar bitwise OR. -/
  | orOp (e : Eng) (pair : Bool) (gd ga : Fin 16) (b : SOp)
  /-- XOR, R102: Scalar bitwise XOR. -/
  | xorOp (e : Eng) (pair : Bool) (gd ga : Fin 16) (b : SOp)
  /-- SHL, R102: Scalar left shift. -/
  | shl (e : Eng) (pair : Bool) (gd ga : Fin 16) (b : SOp)
  /-- SHR, R102: Scalar logical right shift. -/
  | shr (e : Eng) (pair : Bool) (gd ga : Fin 16) (b : SOp)
  /-- SRA, R102: Scalar arithmetic right shift. -/
  | sra (e : Eng) (pair : Bool) (gd ga : Fin 16) (b : SOp)
  /-- CMP, R102: Scalar compare that sets the flags only. -/
  | cmp (e : Eng) (pair : Bool) (ga : Fin 16) (b : SOp)
  /-- MIN, R102: Scalar signed minimum. -/
  | min (e : Eng) (pair : Bool) (gd ga : Fin 16) (b : SOp)
  /-- MAX, R102: Scalar signed maximum. -/
  | max (e : Eng) (pair : Bool) (gd ga : Fin 16) (b : SOp)
  /-- MUL, R102: Low 32 bits of the signed scalar product. -/
  | mul (e : Eng) (pair : Bool) (gd ga : Fin 16) (b : SOp)
  /-- CLZ, R102: Count of leading zeros. -/
  | clz (e : Eng) (pair : Bool) (gd ga : Fin 16)
  /-- VADD, R104: Vector add, saturating. -/
  | vadd (e : Eng) (pair : Bool) (q : Fin 4) (vd va vb : Fin 32) (cplx : Bool) (par : BitVec 16)
  /-- VSUB, R104: Vector subtract, saturating. -/
  | vsub (e : Eng) (pair : Bool) (q : Fin 4) (vd va vb : Fin 32) (cplx : Bool) (par : BitVec 16)
  /-- VABS, R104: Vector absolute value. -/
  | vabs (e : Eng) (pair : Bool) (q : Fin 4) (vd va : Fin 32) (cplx : Bool) (par : BitVec 16)
  /-- VNEG, R104: Vector negate. -/
  | vneg (e : Eng) (pair : Bool) (q : Fin 4) (vd va : Fin 32) (cplx : Bool) (par : BitVec 16)
  /-- VMIN, R104: Vector signed minimum. -/
  | vmin (e : Eng) (pair : Bool) (q : Fin 4) (vd va vb : Fin 32) (cplx : Bool) (par : BitVec 16)
  /-- VMAX, R104: Vector signed maximum. -/
  | vmax (e : Eng) (pair : Bool) (q : Fin 4) (vd va vb : Fin 32) (cplx : Bool) (par : BitVec 16)
  /-- VAND, R104: Vector bitwise AND. -/
  | vand (e : Eng) (pair : Bool) (q : Fin 4) (vd va vb : Fin 32) (par : BitVec 16)
  /-- VOR, R104: Vector bitwise OR, also used as VMOV. -/
  | vor (e : Eng) (pair : Bool) (q : Fin 4) (vd va vb : Fin 32) (par : BitVec 16)
  /-- VXOR, R104: Vector bitwise XOR. -/
  | vxor (e : Eng) (pair : Bool) (q : Fin 4) (vd va vb : Fin 32) (par : BitVec 16)
  /-- VSHL, R104: Vector saturating left shift. -/
  | vshl (e : Eng) (pair : Bool) (q : Fin 4) (vd va : Fin 32) (cplx : Bool) (n : Fin 64) (par : BitVec 16)
  /-- VSRA, R104: Vector arithmetic right shift. -/
  | vsra (e : Eng) (pair : Bool) (q : Fin 4) (vd va : Fin 32) (cplx : Bool) (n : Fin 64) (par : BitVec 16)
  /-- VCMP, R105: Vector compare into a predicate register. -/
  | vcmp (e : Eng) (pair : Bool) (q qd : Fin 4) (va vb : Fin 32) (cplx : Bool) (cc : Vcc) (par : BitVec 16)
  /-- VSEL, R104: Vector select by predicate. -/
  | vsel (e : Eng) (pair : Bool) (qn : Fin 4) (vd va vb : Fin 32) (par : BitVec 16)
  /-- MAC, R107: Wide real multiply-accumulate. -/
  | mac (e : Eng) (pair : Bool) (q : Fin 4) (an : Fin 8) (va vb : Fin 32) (cf : Cf) (par : BitVec 16)
  /-- MSU, R107: Wide real multiply-subtract. -/
  | msu (e : Eng) (pair : Bool) (q : Fin 4) (an : Fin 8) (va vb : Fin 32) (cf : Cf) (par : BitVec 16)
  /-- MPY, R107: Wide real multiply that replaces the accumulator. -/
  | mpy (e : Eng) (pair : Bool) (q : Fin 4) (an : Fin 8) (va vb : Fin 32) (cf : Cf) (par : BitVec 16)
  /-- MPYN, R107: Wide real negated multiply that replaces the accumulator. -/
  | mpyn (e : Eng) (pair : Bool) (q : Fin 4) (an : Fin 8) (va vb : Fin 32) (cf : Cf) (par : BitVec 16)
  /-- MAC_D, R107: Dual real multiply-accumulate. -/
  | macD (e : Eng) (pair : Bool) (q : Fin 4) (an : Fin 8) (va vb : Fin 32) (cf : Cf) (par : BitVec 16)
  /-- MSU_D, R107: Dual real multiply-subtract. -/
  | msuD (e : Eng) (pair : Bool) (q : Fin 4) (an : Fin 8) (va vb : Fin 32) (cf : Cf) (par : BitVec 16)
  /-- MPY_D, R107: Dual real multiply that replaces the accumulator. -/
  | mpyD (e : Eng) (pair : Bool) (q : Fin 4) (an : Fin 8) (va vb : Fin 32) (cf : Cf) (par : BitVec 16)
  /-- MPYN_D, R107: Dual real negated multiply that replaces the accumulator. -/
  | mpynD (e : Eng) (pair : Bool) (q : Fin 4) (an : Fin 8) (va vb : Fin 32) (cf : Cf) (par : BitVec 16)
  /-- MAC_DX, R107: Cross dual multiply-accumulate. -/
  | macDx (e : Eng) (pair : Bool) (q : Fin 4) (an : Fin 8) (va vb : Fin 32) (cf : Cf) (par : BitVec 16)
  /-- MSU_DX, R107: Cross dual multiply-subtract. -/
  | msuDx (e : Eng) (pair : Bool) (q : Fin 4) (an : Fin 8) (va vb : Fin 32) (cf : Cf) (par : BitVec 16)
  /-- MPY_DX, R107: Cross dual multiply that replaces the accumulator. -/
  | mpyDx (e : Eng) (pair : Bool) (q : Fin 4) (an : Fin 8) (va vb : Fin 32) (cf : Cf) (par : BitVec 16)
  /-- MPYN_DX, R107: Cross dual negated multiply that replaces the accumulator. -/
  | mpynDx (e : Eng) (pair : Bool) (q : Fin 4) (an : Fin 8) (va vb : Fin 32) (cf : Cf) (par : BitVec 16)
  /-- CMAC, R107: Complex multiply-accumulate. -/
  | cmac (e : Eng) (pair : Bool) (q : Fin 4) (an : Fin 8) (va vb : Fin 32) (cf : Cf) (conj : Bool) (par : BitVec 16)
  /-- CMSU, R107: Complex multiply-subtract. -/
  | cmsu (e : Eng) (pair : Bool) (q : Fin 4) (an : Fin 8) (va vb : Fin 32) (cf : Cf) (conj : Bool) (par : BitVec 16)
  /-- CMPY, R107: Complex multiply that replaces the accumulator. -/
  | cmpy (e : Eng) (pair : Bool) (q : Fin 4) (an : Fin 8) (va vb : Fin 32) (cf : Cf) (conj : Bool) (par : BitVec 16)
  /-- CMPYN, R107: Complex negated multiply that replaces the accumulator. -/
  | cmpyn (e : Eng) (pair : Bool) (q : Fin 4) (an : Fin 8) (va vb : Fin 32) (cf : Cf) (conj : Bool) (par : BitVec 16)
  /-- CMUL, R108: Complex product converted to S32 into a V register. -/
  | cmul (e : Eng) (pair : Bool) (q : Fin 4) (vd va vb : Fin 32) (cf : Cf) (conj trunc : Bool) (par : BitVec 16)
  /-- ACLR, R109: Clears both halves of an accumulator in enabled lanes. -/
  | aclr (e : Eng) (pair : Bool) (q : Fin 4) (an : Fin 8)
  /-- ALD, R109: Loads an accumulator from a vector register. -/
  | ald (e : Eng) (pair : Bool) (q : Fin 4) (an : Fin 8) (va : Fin 32) (cplx : Bool) (par : BitVec 16)
  /-- SAT, R110: Scales and converts one accumulator half to B40. -/
  | sat (e : Eng) (pair : Bool) (q : Fin 4) (vd : Fin 32) (an : Fin 8) (im : Bool) (sh : BitVec 4) (trunc : Bool) (par : BitVec 16)
  /-- PACK, R111: Scales and converts both accumulator halves to a packed format. -/
  | pack (e : Eng) (pair : Bool) (q : Fin 4) (vd : Fin 32) (an : Fin 8) (fmt : PackFmt) (sh : BitVec 4) (trunc : Bool) (par : BitVec 16)
  /-- KGET, R112: Reads per-lane KPS parameter values and advances each entry by one sample. -/
  | kget (e : Eng) (pair : Bool) (q : Fin 4) (vd : Fin 32) (p m : Fin 16) (upd noAdv dup bcast : Bool)
  /-- TLU, R116: Per-lane table lookup from DMEM, optionally banked. -/
  | tlu (e : Eng) (pair : Bool) (q : Fin 4) (vd : Fin 32) (p m : Fin 16) (upd : Bool) (vi : Fin 32) (banked : Bool) (par : BitVec 16)
  /-- VEXT, R117: Extracts a lane half or value into a G register. -/
  | vext (e : Eng) (pair : Bool) (gd : Fin 16) (va : Fin 32) (lane : Fin 16) (h : Half) (par : BitVec 16)
  /-- VINS, R117: Inserts a G register into one lane. -/
  | vins (e : Eng) (pair : Bool) (vd : Fin 32) (gs : Fin 16) (lane : Fin 16) (h : Half)
  /-- VBRD, R117: Broadcasts a G register to every lane. -/
  | vbrd (e : Eng) (pair : Bool) (vd : Fin 32) (gs : Fin 16) (h : Half)
  /-- MOVI32, R117: Writes a 32-bit immediate to a G register. -/
  | movi32 (e : Eng) (gd : Fin 16) (imm : Word)
  /-- VBRDI, R117: Broadcasts a 32-bit immediate to every lane. -/
  | vbrdi (e : Eng) (vd : Fin 32) (imm : Word) (h : Half)
  /-- LD, R119: Vector, broadcast or scalar load with pointer update. -/
  | ld (e : Eng) (t : MemT) (p : Fin 16) (am : AMode)
  /-- ST, R119: Vector or scalar store with pointer update. -/
  | st (e : Eng) (t : MemT) (p : Fin 16) (am : AMode) (par : BitVec 16)
  /-- LSAVE, R122: Saves the loop registers to memory and sets LDEPTH to 0. -/
  | lsave (e : Eng) (p : Fin 16) (am : AMode)
  /-- LREST, R122: Restores the loop registers from memory. -/
  | lrest (e : Eng) (p : Fin 16) (am : AMode)
  /-- HAUL, R129: Reads a haul descriptor and queues it in a free slot. -/
  | haul (e : Eng) (gd : Fin 16) (p : Fin 16) (am : AMode)
  /-- PMOD, R121: Updates a pointer without accessing memory. -/
  | pmod (e : Eng) (p : Fin 16) (am : AMode)
  /-- MOV, R123: Copies between G, P, M and Q registers. -/
  | movOp (e : Eng) (dc : RegC) (d : Fin 16) (sc : RegC) (sr : Fin 16)
  /-- MOVI, R123: Writes a sign-extended 16-bit immediate. -/
  | movi (e : Eng) (dc : RegC) (d : Fin 16) (imm : BitVec 16)
  /-- MOVHI, R123: Writes a 16-bit immediate to the upper half. -/
  | movhi (e : Eng) (dc : RegC) (d : Fin 16) (imm : BitVec 16)
  /-- MOVS_TO, R124: Writes a system register from a G register. -/
  | movsTo (e : Eng) (sr : Fin 64) (gs : Fin 16)
  /-- MOVS_FROM, R124: Reads a system register into a G register. -/
  | movsFrom (e : Eng) (gd : Fin 16) (sr : Fin 64)
  /-- B, R126: Conditional branch with two delay slots. -/
  | branch (e : Eng) (cc : Cond) (target : Fin 16384)
  /-- BR, R126: Conditional branch through a G register. -/
  | branchReg (e : Eng) (cc : Cond) (gs : Fin 16)
  /-- CALL, R126: Conditional call that saves the return PC in a G register. -/
  | call (e : Eng) (cc : Cond) (gd : Fin 16) (target : Fin 16384)
  /-- BQZ, R126: Branches if a predicate is zero. -/
  | bqz (e : Eng) (q : Fin 4) (target : Fin 16384)
  /-- BQNZ, R126: Branches if a predicate is non-zero. -/
  | bqnz (e : Eng) (q : Fin 4) (target : Fin 16384)
  /-- RETI, R80: Returns from an interrupt, restoring GIE and the flags. -/
  | reti (e : Eng)
  /-- REP_IMM, R128: Starts a repeat level with an immediate count. -/
  | repImm (e : Eng) (l : Fin 4) (count : BitVec 24) (last : Fin 16384)
  /-- REP_G, R128: Starts a repeat level with a count from a G register. -/
  | repG (e : Eng) (l : Fin 4) (gs : Fin 16) (last : Fin 16384)
  /-- WAIT, R130: Marks the end of the block and sleeps until the next block tick. -/
  | waitOp (e : Eng)
  /-- EOB, R130: Marks the end of the block without sleeping. -/
  | eob (e : Eng)
  /-- HSYNC, R129: Stalls until the named haul slots are idle. -/
  | hsync (e : Eng) (mask : BitVec 8)
  /-- SIGNAL, R131: Raises ENG_SIGNAL with an immediate. -/
  | signal (e : Eng) (imm : BitVec 16)
  /-- BRK, R131: Sets the debug interrupt pending and latches an immediate. -/
  | brk (e : Eng) (imm : BitVec 8)
  /-- CRD, R132: Control engine read of a BAR0 register through the matrix. -/
  | crd (e : Eng) (gd g2 : Fin 16) (resp : Fin 5)
  /-- CWR, R132: Control engine write of a BAR0 register. -/
  | cwr (e : Eng) (g2 gs : Fin 16) (resp : Fin 5)
  /-- CIDLE, R132: Control engine sleeps until an enabled interrupt is pending. -/
  | cidle (e : Eng)
  /-- CEVT, R132: Control engine raises an event code. -/
  | cevt (e : Eng) (code : BitVec 8) (gs : Fin 16)
  /-- INTERRUPT_ENTRY, R80: The engine takes an enabled pending interrupt, saving PC and EST and jumping to its vector. -/
  | interruptEntry (e : Eng)
  /-- ENG_CTL_RUN, R57: Writing ENG_CTL.RUN requests a start of a stopped or halted engine. -/
  | engCtlRun (e : Eng) (v : Word)
  /-- ENG_CTL_STOP, R58: Writing ENG_CTL.STOP requests a stop of the engine. -/
  | engCtlStop (e : Eng) (v : Word)
  /-- ENG_GRUN, R70: Writing ENG_GRUN requests a start of all named engines at one block tick. -/
  | engGrun (mask : BitVec 16)
  /-- ENG_GSTOP, R70: Writing ENG_GSTOP requests a stop of all named engines at one block tick. -/
  | engGstop (mask : BitVec 16)
  /-- ENG_STARTED, R57: At the block tick after a start request the engine zeroes its registers and begins at bundle 0. -/
  | engStarted (e : Eng)
  /-- ENG_STOPPED, R58: At the block boundary after a stop request the engine's output fades out and the engine stops after its haul drains. -/
  | engStopped (e : Eng)
  /-- ENG_DOORBELL, R79: A host write of ENG_DOORBELL copies the value to DBELL and asserts the doorbell interrupt. -/
  | engDoorbell (e : Eng) (v : Word)
  /-- ENG_HOST_WINDOW_WRITE, R68: A host write to engine IMEM or DMEM, refused for the executing or staged bank. -/
  | engHostWindowWrite (e : Eng) (w : Fin 0xE0000) (v : Word) (be : BitVec 4)
  /-- KPS_HOST_WRITE, R167: A host write to an idle KPS entry is a step that the record adopts. -/
  | kpsHostWrite (e : Fin 16) (n : Fin 4096) (w : Fin 4) (v : Word) (be : BitVec 4)
  /-- HAUL_TRANSFER_END, R85: A haul transfer completes or ends with an error, clearing its slot and asserting the haul interrupts. -/
  | haulTransferEnd (e : Eng) (k : Fin 8) (resp : Fin 5) (at_ : Word)
  /-- PROG_SWAP_APPLY, R177: A program swap applies at its block boundary as a plain swap or the start of a twin run. -/
  | progSwapApply (e : Fin 16)
  /-- ENG_SWAPPED, R177: The program crossfade ends, the new program runs alone and the swap completes. -/
  | engSwapped (e : Fin 16)
  /-- MODE_SET, R22: Command that requests a mode transition. -/
  | modeSet (src : Fin 128) (tag : Word) (args : List Word)
  /-- MODE_CHANGED, R22: At the block boundary after acceptance the mode changes and output fades begin. -/
  | modeChanged
  /-- MODE_FADE_END, R22: The 64-sample mode fade ends and the MODE_SET completes DONE. -/
  | modeFadeEnd
  /-- SAFE_ENTERED, R23: At the first block boundary after an automatic cause the device enters SAFE without a fade. -/
  | safeEntered
  /-- GLB_RATE_WRITE, R33: A write of GLB_RATE is accepted or refused with RATE_REFUSED. -/
  | glbRateWrite (v : Word)
  /-- RATE_CHANGED, R34: An accepted rate change applies at a multiple of 64 samples, ending every kerf and restarting acquisition. -/
  | rateChanged
  /-- BASIC_RESET, R31: Writing a BASIC_RESET bit of a level register requests the Basic reset of a function. -/
  | basicReset (lvl : BitVec 24) (v : Word)
  /-- BASIC_RESET_APPLY, R31: At the first block boundary the function's Expert registers are rewritten from its Basic page. -/
  | basicResetApply
  /-- BASIC_RESET_COMPLETE, R31: At the second block boundary XMODE and BASIC_RESET bits clear. -/
  | basicResetComplete
  /-- REGISTER_WRITE, R29: A host write to a register that has no row of its own, with its XMODE and refusal checks. -/
  | registerWrite (off : BitVec 26) (v : Word) (be : BitVec 4)
  /-- PEG_CLEAR, R51: A W1C write of a PEG bit zeroes its counter and clears PEG. -/
  | pegClear (off : BitVec 26) (v : Word)
  /-- GLB_SCNT_LO_READ, R41: A read of GLB_SCNT_LO latches GLB_SCNT_HI and GLB_SPHASE. -/
  | glbScntLoRead (cycles : Fin 1024)
  /-- COUNTER_SNAP, R388: Command that snapshots a block's counters into a far area. -/
  | counterSnap (src : Fin 128) (tag : Word) (args : List Word)
  /-- COUNTER_SNAP_CAPTURE, R388: At the block boundary the counters are taken, written and cleared by subtraction. -/
  | counterSnapCapture
  /-- REG_WRITE, R388: Command that writes a masked value to a permitted register, at once or scheduled. -/
  | regWrite (src : Fin 128) (tag : Word) (args : List Word)
  /-- BOOT_IMAGE, R391: Command that names a host-loaded boot image for verification. -/
  | bootImage (src : Fin 128) (tag : Word) (args : List Word) (keyHash : BitVec 256) (sigOk : Bool) (trained : BitVec 2)
  /-- FUSE_ARM, R468: Command that arms a lifetime-setting write and returns a confirmation code. -/
  | fuseArm (src : Fin 128) (tag : Word) (args : List Word)
  /-- FUSE_WRITE, R469: Command that starts burning the next free slot of the armed setting. -/
  | fuseWrite (src : Fin 128) (tag : Word) (args : List Word)
  /-- FUSE_WRITTEN, R469: The burn of a fuse slot ends and the command completes OK. -/
  | fuseWritten (ok : Bool)
  /-- FUSE_ARM_EXPIRY, R468: An arming not followed by FUSE_WRITE within 10 s is dropped. -/
  | fuseArmExpiry
  /-- ENG_START, R388: Command that starts the named engines, optionally loading their rings. -/
  | engStart (src : Fin 128) (tag : Word) (args : List Word)
  /-- ENG_STOP, R388: Command that stops the named engines. -/
  | engStop (src : Fin 128) (tag : Word) (args : List Word)
  /-- PARAM_SET, R164: Command that changes a KPS parameter with a kerf, at once or scheduled. -/
  | paramSet (src : Fin 128) (tag : Word) (args : List Word)
  /-- PARAM_KERF_END, R168: A parameter kerf reaches its target and its PARAM_SET completes. -/
  | paramKerfEnd (e : Fin 16) (n : Fin 4096)
  /-- PROG_SWAP, R176: Command that requests a program swap to the idle bank. -/
  | progSwap (src : Fin 128) (tag : Word) (args : List Word)
  /-- ROUTE_SET, R149: Command that routes a source to a sink with a kerf. -/
  | routeSet (src : Fin 128) (tag : Word) (args : List Word)
  /-- ROUTE_CLEAR, R149: Command that fades a sink's route to silence. -/
  | routeClear (src : Fin 128) (tag : Word) (args : List Word)
  /-- METER_SET, R151: Command that writes a meter configuration. -/
  | meterSet (src : Fin 128) (tag : Word) (args : List Word)
  /-- SCENE_ARM, R188: Command that starts arming a staged scene buffer. -/
  | sceneArm (src : Fin 128) (tag : Word) (args : List Word)
  /-- SCENE_ARM_DONE, R188: Arming finishes placing or refusing every action and completes. -/
  | sceneArmDone
  /-- SCENE_DISARM, R191: Command that removes every pending action of the armed scene. -/
  | sceneDisarm (src : Fin 128) (tag : Word) (args : List Word)
  /-- SCENE_COMMIT, R193: Command that fixes the scene's index and applies its late policy. -/
  | sceneCommit (src : Fin 128) (tag : Word) (args : List Word)
  /-- SCHED_CANCEL, R200: Command that aborts a pending scheduled command. -/
  | schedCancel (src : Fin 128) (tag : Word) (args : List Word)
  /-- LIMIT_SET, R215: Command that allocates and binds a limiter to a sink. -/
  | limitSet (src : Fin 128) (tag : Word) (args : List Word)
  /-- LIMIT_CLEAR, R215: Command that releases a sink's limiter. -/
  | limitClear (src : Fin 128) (tag : Word) (args : List Word)
  /-- RAFT_APPLY, R273: Command that applies staged slot tables at an index, locally or raft-wide. -/
  | raftApply (src : Fin 128) (tag : Word) (args : List Word)
  /-- RAFT_PATH, R283: Command that allocates a drop/add path on the master. -/
  | raftPath (src : Fin 128) (tag : Word) (args : List Word)
  /-- RAFT_RELAY, R283: Command that allocates a relay bus on the master. -/
  | raftRelay (src : Fin 128) (tag : Word) (args : List Word)
  /-- RAFT_BARRIER, R282: Command that marks this chip arrived at a barrier. -/
  | raftBarrier (src : Fin 128) (tag : Word) (args : List Word)
  /-- RAFT_RESTORE, R279: Command that starts an unwrap when WTR is 0. -/
  | raftRestore (src : Fin 128) (tag : Word) (args : List Word)
  /-- RAFT_RESET, R281: Command that broadcasts a raft reset at an index. -/
  | raftReset (src : Fin 128) (tag : Word) (args : List Word)
  /-- RAFT_SNAP, R281: Command that broadcasts a consistent snapshot marker. -/
  | raftSnap (src : Fin 128) (tag : Word) (args : List Word)
  /-- FLOW_RX_SET, R305: Command that allocates and fills a receive flow. -/
  | flowRxSet (src : Fin 128) (tag : Word) (args : List Word)
  /-- FLOW_TX_SET, R305: Command that allocates and fills a transmit flow. -/
  | flowTxSet (src : Fin 128) (tag : Word) (args : List Word)
  /-- FLOW_CLEAR, R305: Command that disables a flow and frees its ASRC channels. -/
  | flowClear (src : Fin 128) (tag : Word) (args : List Word)
  /-- SAP_LIST, R390: Command that writes the heard SAP announcements to host memory. -/
  | sapList (src : Fin 128) (tag : Word) (args : List Word)
  /-- TIME_STEP, R330: Command that requests a step of the time counter. -/
  | timeStep (src : Fin 128) (tag : Word) (args : List Word)
  /-- TIME_JOIN, R332: Command that requests loading the sample counter onto the system grid. -/
  | timeJoin (src : Fin 128) (tag : Word) (args : List Word)
  /-- SDR_TRAIN, R412: Command that retrains the named SDRAM channels. -/
  | sdrTrain (src : Fin 128) (tag : Word) (args : List Word)
  /-- TLY_CLEAR, R440: Command that zero-fills the tally store and sets the floor. -/
  | tlyClear (src : Fin 128) (tag : Word) (args : List Word)
  /-- BULK_TRANSFER, R375: A bulk ring entry starts a transfer between host and far memory. -/
  | bulkTransfer (src : Fin 128) (entry : List Word)
  /-- BULK_TRANSFER_DONE, R375: A bulk transfer ends and completes on its completion ring. -/
  | bulkTransferDone (h : Word) (data : List Byte) (moved : BitVec 25)
  /-- ROUTE_TABLE_WRITE, R146: A host write to a route entry is staged until the next sample tick. -/
  | routeTableWrite (n : Fin 16384) (v : Word)
  /-- ROUTE_CHANGE_APPLY, R147: A route change is checked and applied at its tick, starting, retargeting, queueing or holding a kerf. -/
  | routeChangeApply
  /-- ROUTE_KERF_END, R161: A route kerf ends, freeing its place and completing its command. -/
  | routeKerfEnd (n : Fin 16384)
  /-- LND_MC_WRITE, R151: A write of a meter configuration is checked and staged. -/
  | lndMcWrite (m : Fin 4096) (v : Word)
  /-- METER_RESTART, R151: At the next block boundary the meter restarts with the new configuration. -/
  | meterRestart (m : Fin 4096)
  /-- TPHOLD_EXPIRY, R152: After HOLDT without a new maximum the true-peak hold takes the current value. -/
  | tpholdExpiry (m : Fin 4096)
  /-- LND_MCLR, R154: A Basic write that clears true-peak holds at the next block boundary. -/
  | lndMclr (v : Word)
  /-- LND_XMCLR, R154: An Expert write that clears true-peak holds at the next block boundary. -/
  | lndXmclr (v : Word)
  /-- GENERATOR_WRITE, R156: A write of a tone generator register is checked and staged. -/
  | generatorWrite (n : Fin 16) (w : Fin 4) (v : Word)
  /-- LND_TONE_WRITE, R157: A Basic write that drives all four generator registers. -/
  | lndToneWrite (n : Fin 16) (v : Word)
  /-- GENERATOR_APPLY, R156: At a block boundary a generator takes its new settings with a ramp or transition. -/
  | generatorApply (n : Fin 16)
  /-- GENERATOR_RAMP_END, R156: A generator ramp or transition ends and BUSY clears. -/
  | generatorRampEnd (n : Fin 16)
  /-- SCN_BUF_WRITE, R185: A write of a scene buffer descriptor, refused while armed or committed. -/
  | scnBufWrite (n : Fin 64) (w : Fin 4) (v : Word)
  /-- SCN_APPLIED, R196: At the scene's index every pending action is triggered. -/
  | scnApplied
  /-- SCHEDULED_APPLY, R199: A scheduled command applies at its fixed index. -/
  | scheduledApply (h : Word)
  /-- LIMITER_WRITE, R215: A write of a limiter entry is checked and staged or refused. -/
  | limiterWrite (k : Fin 1024) (w : Fin 2) (v : Word)
  /-- LIMITER_APPLY, R214: At the next block boundary a limiter change applies, with a crossfade where needed. -/
  | limiterApply (k : Fin 1024)
  /-- LIMITER_CROSSFADE_END, R214: The 64-sample limiter crossfade ends and LIMIT_SET or LIMIT_CLEAR completes. -/
  | limiterCrossfadeEnd (k : Fin 1024)
  /-- ST_PATH_WRITE, R220: A write of a side-tone path register is checked and staged. -/
  | stPathWrite (n : Fin 16) (expert : Bool) (v : Word)
  /-- ST_PATH_APPLY, R220: At the next block boundary a side-tone path change starts its gain kerf or switch. -/
  | stPathApply (n : Fin 16)
  /-- ST_GAIN_KERF_END, R220: A side-tone gain kerf ends. -/
  | stGainKerfEnd (n : Fin 16)
  /-- TDM_CTL_WRITE, R227: A write of a port's configuration is checked and staged or refused. -/
  | tdmCtlWrite (p : Fin 32) (r : TdmReg) (v : Word)
  /-- TDM_ENABLE_APPLY, R226: At the block boundary EN applies, entering ACQUIRE or starting the fade-out. -/
  | tdmEnableApply (p : Fin 32)
  /-- TDM_RUN_ENTRY, R226: After 8 good frames the port enters RUN and fades in. -/
  | tdmRunEntry (p : Fin 32)
  /-- TDM_OFF_ENTRY, R226: After the fade-out the port enters OFF at a frame boundary. -/
  | tdmOffEntry (p : Fin 32)
  /-- TDM_FRAME_START, R231: A port frame starts, is stamped and its words are exchanged. -/
  | tdmFrameStart (p : Fin 32) (phase : BitVec 16) (edge : FrameEdge) (sdi : List Bool)
  /-- TDM_CLK_LOST, R228: BCLK or FSYNC absence puts the port in FAULT. -/
  | tdmClkLost (p : Fin 32) (fsync : Bool)
  /-- TDM_MEAS_WINDOW, R228: A 1 ms measurement window of BCLK and FSYNC ends. -/
  | tdmMeasWindow (p : Fin 32) (bclk : Word) (frate : Word)
  /-- TDM_CLK_RESTORED, R229: A faulted port passes 8 good frames and returns to RUN. -/
  | tdmClkRestored (p : Fin 32)
  /-- TDM_SLIP, R230: A port FIFO is re-centred. -/
  | tdmSlip (q : PortFifo)
  /-- TDM_TS_LO_READ, R232: A read of TDMn_TS_LO latches the rest of the block's record. -/
  | tdmTsLoRead (p : Fin 32)
  /-- TDM_SYNC_DETECTED, R233: Two 1 s windows show the port synchronous. -/
  | tdmSyncDetected (p : Fin 32)
  /-- TDM_SYNC_CONFIRM, R233: A write of CONFIRM requests confirmation of synchronism. -/
  | tdmSyncConfirm (p : Fin 32)
  /-- TDM_SYNC_CONFIRM_APPLY, R235: At the block boundary the port becomes CONFIRMED and crossfades to the bypass. -/
  | tdmSyncConfirmApply (p : Fin 32)
  /-- TDM_SYNC_LOST, R233: A confirmed port's phase moves or the port faults, and its bypass fades out. -/
  | tdmSyncLost (p : Fin 32)
  /-- TDM_SYNC_REGAINED, R233: After 64 good frames a LOST port returns to CONFIRMED. -/
  | tdmSyncRegained (p : Fin 32)
  /-- TDM_MASK_WRITE, R237: A write of a slot mask is shadowed until a frame boundary. -/
  | tdmMaskWrite (p : Fin 32) (tx : Bool) (expert : Bool) (v : Word)
  /-- TDM_MASK_APPLY, R237: At the port's frame boundary the new masks take effect. -/
  | tdmMaskApply (q : MaskEdge)
  /-- BOOM_PORTS_WRITE, R245: A Basic write that fills a boom's member table with ports. -/
  | boomPortsWrite (b : Fin 16) (v : Word)
  /-- BOOM_XMEM_WRITE, R238: A write of a boom member entry, checked for membership rules. -/
  | boomXmemWrite (b : Fin 16) (m : Fin 16) (v : Word)
  /-- BOOM_CFG_WRITE, R242: A write of a boom's enable or delay. -/
  | boomCfgWrite (b : Fin 16) (expert : Bool) (v : Word)
  /-- BOOM_APPLY, R242: At the block boundary boom changes apply with member fades. -/
  | boomApply (b : Fin 16)
  /-- ASRC_BPORT_WRITE, R255: A Basic write that assigns or frees a port's ASRC channels and group. -/
  | asrcBportWrite (p : Fin 32) (v : Word)
  /-- ASRC_XGRP_WRITE, R251: A write of a rate group's configuration. -/
  | asrcXgrpWrite (g : Fin 64) (w : Fin 2) (v : Word)
  /-- ASRC_XCH_WRITE, R254: A write of an ASRC channel entry, checked and staged or refused. -/
  | asrcXchWrite (c : Fin 1024) (v : Word)
  /-- ASRC_CHANNEL_APPLY, R254: At the block boundary a channel is enabled or disabled with a fade. -/
  | asrcChannelApply (c : Fin 1024)
  /-- ASRC_GROUP_APPLY, R251: At the block boundary a group's enable or mode applies. -/
  | asrcGroupApply (g : Fin 64)
  /-- ASRC_LOCKED, R251: A group's position error stays small for 32 blocks and it enters LOCK. -/
  | asrcLocked (g : Fin 64) (hold : Bool) (flow : Bool) (id : Fin 4096)
  /-- ASRC_STEP, R251: A step in a locked group returns it to ACQUIRE. -/
  | asrcStep (g : Fin 64) (flow : Bool) (id : Fin 4096)
  /-- ASRC_RANGE, R251: The pilot's initial ratio lies outside 0.25 to 4.0. -/
  | asrcRange (g : Fin 64)
  /-- ASRC_PILOT_CHANGED, R251: A lost pilot is handed off to another qualifying member. -/
  | asrcPilotChanged (g : Fin 64) (flow : Bool) (id : Fin 4096)
  /-- ASRC_SOURCE_LOST, R251: A lost pilot with no qualifying member puts the group in HOLD. -/
  | asrcSourceLost (g : Fin 64)
  /-- ASRC_HOLD_EXPIRED, R251: HOLDMAX elapses and the group goes IDLE. -/
  | asrcHoldExpired (g : Fin 64)
  /-- ASRC_STRAY, R252: A member off the group's line for 4 blocks is treated as lost. -/
  | asrcStray (g : Fin 64) (flow : Bool) (id : Fin 4096)
  /-- ASRC_STREAM_REJOIN, R251: A lost non-pilot stream rejoins its group at a block boundary. -/
  | asrcStreamRejoin (g : Fin 64) (flow : Bool) (id : Fin 4096)
  /-- RAFT_CTL_WRITE, R266: A write of RAFT_CTL enable or master role. -/
  | raftCtlWrite (v : Word)
  /-- RAFT_ENABLE_APPLY, R266: At the block boundary EN applies and the chip starts forming or goes OFF. -/
  | raftEnableApply
  /-- RAFT_LINK_UP, R259: A raft port finishes training its lanes and comes UP. -/
  | raftLinkUp (west : Bool) (node : BitVec 14) (nside : Bool) (inv : BitVec 3) (miswired : Bool) (rate : Fin 6)
  /-- RAFT_FRAME_RX, R263: A raft frame is received whole, its control word, slots, tokens and audit handled. -/
  | raftFrameRx (west : Bool) (cw : BitVec 256) (fcs : Word) (slots : List RaftWord) (lag : BitVec 18) (rt : Word)
  /-- RAFT_LINK_DOWN, R263: A raft link goes DOWN on lock loss, bad frames or missing starts. -/
  | raftLinkDown (west : Bool) (cause : Fin 16)
  /-- RAFT_FORMED, R266: A forming chip is oriented, locked, ranged and aligned and enters RUN. -/
  | raftFormed (ring : List RaftHop) (phase : BitVec 64)
  /-- RAFT_WRAP_START, R276: At the first tick after a break the ends turn and conceal traffic and send WRAP tokens. -/
  | raftWrapStart
  /-- RAFT_WRAP, R277: At X every chip applies the detour hold-backs. -/
  | raftWrap
  /-- RAFT_WTR_EXPIRY, R279: A repaired link has stayed up for WTR and an UNWRAP token is sent. -/
  | raftWtrExpiry
  /-- RAFT_UNWRAP, R279: At X all chips unwrap with the new D_hop. -/
  | raftUnwrap
  /-- RAFT_TOKEN_RESEND, R280: An unreturned broadcast or barrier is sent again. -/
  | raftTokenResend
  /-- RAFT_BARRIER_RELEASE, R282: At the release index every chip completes its barrier. -/
  | raftBarrierRelease
  /-- RAFT_BARRIER_TIMEOUT, R282: BTIMEOUT elapses before all chips arrive. -/
  | raftBarrierTimeout (pos : Fin 64)
  /-- RAFT_APPLY_AT_X, R273: At X staged slot entries are checked and applied with retiming fades. -/
  | raftApplyAtX
  /-- RAFT_RESET_RIPPLE, R281: At the reset index a chip fades its raft outputs and re-forms. -/
  | raftResetRipple
  /-- SNAPSHOT_AT_MARKER, R281: At marker index m each chip takes a counter snapshot. -/
  | snapshotAtMarker
  /-- NET_FLOW_WRITE, R301: A write of a receive or transmit flow entry, checked and staged or refused. -/
  | netFlowWrite (tx : Bool) (f : Fin 4096) (w : Fin 8) (v : Word)
  /-- NET_FLOW_APPLY, R300: At the block boundary flow changes apply with fades and buffer allocation. -/
  | netFlowApply (tx : Bool) (f : Fin 4096)
  /-- NET_PACKET_RX, R290: A received frame is matched to a flow and placed, or classified into a control queue. -/
  | netPacketRx (mac : Fin 4) (frame : NetFrame) (len : BitVec 16) (tag : BitVec 16) (taken : Fin 9) (edges : BitVec 24)
  /-- NET_FLOW_LOST, R291: No packet is used for the loss time and the flow becomes LOST. -/
  | netFlowLost (f : Fin 4096)
  /-- CONTROL_FRAME_TX, R303: The control engine sends a frame through its transmit queue. -/
  | controlFrameTx (mac : Fin 4) (ptp : Bool) (tag : BitVec 16) (edges : BitVec 24)
  /-- NET_LINK_DOWN, R302: A MAC loses block lock and its link goes down. -/
  | netLinkDown (mac : Fin 4)
  /-- NET_LINK_UP, R302: A MAC's link comes up again. -/
  | netLinkUp (mac : Fin 4)
  /-- NET_ARP_FAIL, R304: A transmit flow stays unresolved for 3 s. -/
  | netArpFail (f : Fin 4096)
  /-- SAP_ANNOUNCE, R304: Every 30 s the firmware announces each SAP-enabled transmit flow. -/
  | sapAnnounce
  /-- NET_IRQ_TIME_READ, R334: A read of word 0 of NET_IRQ_TIMEn latches the capture and clears VALID. -/
  | netIrqTimeRead (n : Fin 4)
  /-- TIM_TXQ_READ, R335: A read of word 0 of TIM_TXQn pops one transmit capture. -/
  | timTxqRead (n : Fin 4)
  /-- REF_SEL_WRITE, R322: A Basic write of REF_SEL rewrites the reference Expert registers. -/
  | refSelWrite (v : Word)
  /-- REF_XCAND_WRITE, R323: A write of a candidate's settings, restarting its window count. -/
  | refXcandWrite (c : Fin 11) (w : Fin 2) (v : Word)
  /-- REF_MONITOR_WINDOW, R311: A 1 s frequency window ends and candidates are qualified, degraded or disqualified. -/
  | refMonitorWindow (meas : List RefMeas) (dco : BitVec 40) (phase : BitVec 64) (slewing : Bool)
  /-- REF_LOSS_OF_SIGNAL, R311: A candidate loses its signal and is disqualified at once. -/
  | refLossOfSignal (c : Fin 11)
  /-- REF_PHASE_HIT, R311: The selected candidate's phase jumps and it is disqualified. -/
  | refPhaseHit (c : Fin 11)
  /-- REF_SWITCH_END, R317: The 100 ms hold ends and the loop closes on the new candidate with a build-out. -/
  | refSwitchEnd (phase : BitVec 64)
  /-- REF_LOCKED, R315: The DPLL stays within lock limits for 1 s and enters LOCKED. -/
  | refLocked
  /-- REF_BW_STEP, R315: A locked DPLL with large phase error for 1 s returns to ACQUIRING. -/
  | refBwStep
  /-- REF_SETTLE_END, R314: SETTLE elapses and the loop bandwidth drops to 0.1 Hz. -/
  | refSettleEnd
  /-- REF_PULLIN_END, R317: The build-out offset has been removed and PULLIN clears. -/
  | refPullinEnd
  /-- REF_LOST, R315: HMAX elapses in HOLDOVER and the DPLL enters LOST. -/
  | refLost
  /-- REF_QUAL_CHANGED, R313: A candidate's new quality has held for 2 s and selection acts on it. -/
  | refQualChanged (c : Fin 11)
  /-- REF_LO_READ, R322: A read of a REF DCO or measurement LO register latches its HI register. -/
  | refLoRead (r : RefLo)
  /-- TIM_OFFSET_MEASUREMENT, R328: The PTP servo takes an offset measurement and steers, steps or diverges. -/
  | timOffsetMeasurement (offset : BitVec 64) (epoch : BitVec 16) (gm : BitVec 64) (cls : BitVec 8) (inc : BitVec 44)
  /-- TIM_MASTER_LOST, R328: announceReceiptTimeout expires on both MACs and the servo enters NOMASTER. -/
  | timMasterLost
  /-- TIM_STEPPED, R330: At the block tick the time counter steps and a new epoch opens. -/
  | timStepped
  /-- TIM_JOINED, R332: At a qualifying tick the sample counter is loaded onto the system grid. -/
  | timJoined
  /-- TIME_JOIN_TIMEOUT, R332: No tick qualifies within 2 s and TIME_JOIN aborts. -/
  | timeJoinTimeout
  /-- TIM_XINC_HI_WRITE, R325: A write of TIM_XINC_HI commits the increment at the next TCLK edge. -/
  | timXincHiWrite (v : Word)
  /-- TIME_WORD0_READ, R326: A read of word 0 of a time value latches words 1 to 4. -/
  | timeWord0Read (r : TimeReg) (edges : BitVec 24)
  /-- PPS_OUT_PULSE, R336: PPS_OUT rises at each second boundary of the time counter. -/
  | ppsOutPulse
  /-- PPS_IN_EDGE, R336: A rising edge on PPS_IN is latched into TIM_PPSIN. -/
  | ppsInEdge (edges : BitVec 24)
  /-- PAIR_CTL_WRITE, R339: A write of PAIR_CTL enable, partner or auto-resync. -/
  | pairCtlWrite (v : Word)
  /-- PAIR_RESYNC, R354: Writing PAIR_CTL.RESYNC starts a copy on a standby. -/
  | pairResync
  /-- PAIR_ILK_HIGH_TIMEOUT, R344: ILK has been high for 200 µs and the standby starts its claim wait. -/
  | pairIlkHighTimeout
  /-- PAIR_CLAIM_WAIT_END, R344: The claim wait ends and the standby pulls ILK and checks the read-back. -/
  | pairClaimWaitEnd (high : Bool)
  /-- PAIR_ACTIVE, R348: At the block boundary a claiming standby becomes active. -/
  | pairActive
  /-- PAIR_ILK_TEST_PULSE, R345: Every TPER the active chip releases ILK for a 10 µs test pulse. -/
  | pairIlkTestPulse (rose : Bool) (fell : Bool)
  /-- PAIR_HB_LOST, R346: The partner heartbeat is absent or malformed. -/
  | pairHbLost (absent : Bool)
  /-- PAIR_HB_RESTORED, R346: Three good heartbeat periods arrive. -/
  | pairHbRestored
  /-- PAIR_WATCHDOG_LAPSE, R343: The control engine misses its pair watchdog and the strobe releases ILK. -/
  | pairWatchdogLapse
  /-- PAIR_DIGEST_RX, R353: A partner DIGEST message is compared with the chip's own digest. -/
  | pairDigestRx (m : BitVec 54)
  /-- PAIR_GRPDIG_RX, R353: A partner group CRC is compared to find mismatching groups. -/
  | pairGrpdigRx (m : BitVec 54)
  /-- PAIR_STATE_RX, R358: A partner STATE message updates the partner status and checks the configuration. -/
  | pairStateRx (m : BitVec 54) (side : Bool) (groups : Bool)
  /-- PAIR_COPYCTL_RX, R354: A copy control message requests, ends or aborts a copy phase. -/
  | pairCopyctlRx (m : BitVec 54)
  /-- PAIR_HEALTH_RX, R357: A partner health message updates PAIR_PHLTH. -/
  | pairHealthRx (m : BitVec 54)
  /-- PAIR_MISSING_DIGEST, R353: A partner digest not received by its deadline counts as missing. -/
  | pairMissingDigest
  /-- PAIR_MSG_LOST, R358: No STATE message arrives for 64 blocks. -/
  | pairMsgLost
  /-- PAIR_COPY_PHASE, R354: A copy phase completes or aborts and the sync state moves on. -/
  | pairCopyPhase (ok : Bool) (items : List CopyItem)
  /-- PAIR_CHECKING_TIMEOUT, R354: 4,096 blocks in CHECKING without SYNCED return the standby to UNSYNCED. -/
  | pairCheckingTimeout
  /-- PAIR_HEALTH_PUBLISH, R357: Once per second health scores are published and sent. -/
  | pairHealthPublish
  /-- HOST_CMD_SUBMIT, R370: A write of the last direct-port word submits a command. -/
  | hostCmdSubmit (n : Fin 16) (v : Word)
  /-- HOST_DCPL_READ, R371: A read of word 0 of HOST_DCPL pops the oldest direct completion. -/
  | hostDcplRead
  /-- HOST_DEVQ_READ, R371: A read of word 0 of HOST_DEVQ pops the oldest direct event. -/
  | hostDevqRead
  /-- HOST_RING_WRITE, R373: A write of a ring descriptor enables, disables or is refused. -/
  | hostRingWrite (r : Fin 128) (w : Fin 8) (v : Word)
  /-- HOST_DB, R373: A ring doorbell write moves the host index, fetching commands or freeing entries. -/
  | hostDb (r : Fin 128) (idx : Word) (entries : List (List Word)) (err : Bool)
  /-- HOST_EVEN_WRITE, R380: A write of HOST_EVENn drives the FIFO routing of its 32 codes. -/
  | hostEvenWrite (n : Fin 8) (v : Word)
  /-- HOST_FLR, R379: A function-level reset returns the host interface to reset. -/
  | hostFlr
  /-- HOST_LINK_DOWN, R379: The PCIe link is lost, acting as a function-level reset. -/
  | hostLinkDown
  /-- HOST_LINK_UP, R379: The PCIe link retrains. -/
  | hostLinkUp
  /-- MATRIX_TRANSACTION, R395: A master issues a read or write burst that is decoded and arbitrated. -/
  | matrixTransaction (m : Fin 23) (id : Fin 8) (write : Bool) (locked : Bool) (bar2 : Bool) (addr : BitVec 40) (len : Fin 513) (data : List (Option Byte))
  /-- MATRIX_RESPONSE, R396: A target completes a transaction and returns its response. -/
  | matrixResponse (m : Fin 23) (id : Fin 8) (corr : List (Fin 64)) (unc : List (Fin 64)) (fate : TxFate)
  /-- MTX_LOCK_BROKEN, R400: A locked sequence reaches its limit and is force-released. -/
  | mtxLockBroken (t : Fin 12)
  /-- MTX_XMRST, R402: Writing a bit of MTX_XMRST isolates a master. -/
  | mtxXmrst (v : Word)
  /-- MTX_MASTER_ISOLATED, R402: An isolated master's drain ends. -/
  | mtxMasterIsolated (m : Fin 23) (cycles : Fin 513) (beats : List (Fin 8 × Fin 17))
  /-- MTX_ERR0_READ, R401: A read of MTX_ERR0 latches MTX_ERR1. -/
  | mtxErr0Read
  /-- YARD_XPWR_WRITE, R405: A write of yard bank power states. -/
  | yardXpwrWrite (w : Fin 4) (v : Word)
  /-- YARD_BANK_READY, R405: A woken yard bank becomes usable after its wake time. -/
  | yardBankReady (b : Fin 64)
  /-- CRUISE_STEP, R407: Every PER cruise saves, March-tests and restores one yard region. -/
  | cruiseStep (r : CruiseRes)
  /-- SDR_TRAINING_END, R412: Training of an SDRAM channel ends READY or FAILED. -/
  | sdrTrainingEnd (c : Fin 2) (ok : Bool)
  /-- SDR_CHANNEL_FAIL, R414: A ready SDRAM channel fails and the device enters SAFE. -/
  | sdrChannelFail (c : Fin 2)
  /-- DAC_CTL_WRITE, R427: A Basic write that drives every DAC channel's enable, gain, filter and clear. -/
  | dacCtlWrite (v : Word)
  /-- DAC_ENABLE_APPLY, R420: At the block boundary a DAC channel's enable, gain or filter change applies. -/
  | dacEnableApply (d : Fin 8)
  /-- DAC_GAIN_HOLD_END, R422: The 5 µs range hold ends and DAC_RANGE cause 1 is raised. -/
  | dacGainHoldEnd (d : Fin 8)
  /-- DACCLR_ASSERT, R421: DACCLR_N falls and every channel is forced to its clear code. -/
  | dacclrAssert
  /-- DACCLR_RELEASE, R421: DACCLR_N rises and channels return at the next block boundary. -/
  | dacclrRelease
  /-- DAC_REF_FAULT, R418: DAC_REFIN leaves its range and the channels fall back to the internal reference. -/
  | dacRefFault
  /-- DAC_REF_RECOVERED, R418: DAC_REFIN stays in range for 100 ms and is used again. -/
  | dacRefRecovered
  /-- DAC_SHORT, R425: A leg at its current limit puts the channel in short protection. -/
  | dacShort (d : Fin 8) (leg : Fin 4)
  /-- DAC_RETRY_TEST, R425: Every 100 ms a protected channel drives its clear code for a test. -/
  | dacRetryTest (d : Fin 8) (ok : Bool)
  /-- DAC_OPEN, R426: An open load is detected over 100 ms. -/
  | dacOpen (d : Fin 8)
  /-- DAC_OPEN_RECOVERED, R426: The load is seen again for 100 ms. -/
  | dacOpenRecovered (d : Fin 8)
  /-- DAC_VDDA_VALID, R444: VDDA_DAC stays above reset for 1 ms and the DACs leave row 1. -/
  | dacVddaValid
  /-- TALLY_RECORD_WRITE, R435: A queue entry leaves and is merged into or opens a tally record. -/
  | tallyRecordWrite (err : BitVec 6)
  /-- TLY_WIN0_READ, R438: A read of TLY_WIN0 latches the selected slot. -/
  | tlyWin0Read
  /-- TLY_WIN15_READ, R438: A read of TLY_WIN15 with INC set advances the cursor. -/
  | tlyWin15Read
  /-- SCN_LAST_LO_READ, R208: A read of SCN_LAST_LO latches SCN_LAST_HI. -/
  | scnLastLoRead
  /-- SUP_WARN, R445: A rail crosses its warning threshold. -/
  | supWarn (r : Fin 14) (passed : Bool) (begun : Bool)
  /-- SUP_RECOVERED, R445: A rail stays above warning for 100 µs and the dip record is written. -/
  | supRecovered (r : Fin 14) (mv : BitVec 16) (us : Word)
  /-- SUP_RESET, R446: A rail crosses its reset threshold and its reset action follows. -/
  | supReset (r : Fin 14) (mv : BitVec 16) (begun : Bool)
  /-- SUP_SENSE_MISMATCH, R443: An open sense ball makes the supervisor use the on-die reading. -/
  | supSenseMismatch
  /-- CLK_FAULT, R448: XCLK stops or drifts and the PLLs move to the on-chip oscillator. -/
  | clkFault
  /-- XCLK_RESTORED, R449: XCLK stays in range for 100 ms and the PLLs move back. -/
  | xclkRestored
  /-- THM_READING, R450: Every 1 ms the thermal sensors are read and judged. -/
  | thmReading (t : List (BitVec 16)) (begun : Bool)
  /-- THM_CLEAR, R450: The maximum stays below WARN − 5 °C for 1 s. -/
  | thmClear
  /-- PORST_ASSERT, R454: PORST_N goes low and the device resets to BOOT. -/
  | porstAssert (begun : Bool)
  /-- PORST_RELEASE, R463: PORST_N is released and the boot ROM runs its flow. -/
  | porstRelease (bootsel : Fin 4) (testEn : Bool) (fam : Option Bool) (flash : Option (BootImg × BootImg)) (trained : BitVec 2)
  /-- CE_READY_REPORT, R463: The CE firmware reports ready and the device enters its boot mode. -/
  | ceReadyReport
  /-- BOOT_CE_TIMEOUT, R460: The CE does not report ready within 100 ms and the image fails with cause 7. -/
  | bootCeTimeout
  /-- DEBUG_ACCESS_REQUEST, R79: A halt, single-step or memory-access request arrives from the debug access port over TCK and is taken, or refused under DEBUG_LOCK. -/
  | debugAccessRequest (e : Eng) (r : DebugReq)
  /-- ANNOUNCE_RECEIPT_TIMEOUT, R333: announceReceiptTimeout expires on the primary MAC alone, and the backup MAC takes over as the PTP port. -/
  | announceReceiptTimeout
  /-- ILK_CHANGE, R344: The level on the ILK line changes: a standby starts or abandons its claim count or wait, or an active chip sees its read-back go high while it drives low. -/
  | ilkChange (high : Bool)
  /-- ILK_STUCK_LOW_TIMEOUT, R345: A standby has seen ILK low for 3 ms while the partner heartbeat shows class 2 or below, and it marks ILK stuck low. -/
  | ilkStuckLowTimeout
  /-- HB_IN_PERIOD, R346: A heartbeat period on HB_IN is measured, and the partner's class is read from its high time. -/
  | hbInPeriod (period : BitVec 16) (high : BitVec 16)
  /-- SENSE_READINGS_AGREE, R443: The core sense and on-die readings have agreed for 1 s, and the supervisor returns to the sense reading. -/
  | senseReadingsAgree
  deriving DecidableEq, Repr

end Sys2Proof
end

