-- ==== Sys2Proof/Machine/Flags.lean ====
section
/-! DEFINITION. The scalar flags N, Z, C, V (bits 3, 2, 1, 0 of EST), how each scalar operation sets them, and the branch
conditions over them (R102, R103, R126). -/

namespace Sys2Proof.Machine

/-- The flags as four bits. -/
def mkFlags (n z c v : Bool) : Nat := 8 * b2n n + 4 * b2n z + 2 * b2n c + b2n v

/-- One flag of a four-bit flag value. -/
def flagN (f : Nat) : Bool := f / 8 % 2 == 1
def flagZ (f : Nat) : Bool := f / 4 % 2 == 1
def flagC (f : Nat) : Bool := f / 2 % 2 == 1
def flagV (f : Nat) : Bool := f % 2 == 1

/-- N and Z of a result (R103). -/
def resN (w : Word) : Bool := bitOf w 31
def resZ (w : Word) : Bool := w == 0

/-- ADD: carry out of bit 31, signed overflow (R103). -/
def addFlags (a b : Word) : Nat :=
  let r := a + b
  mkFlags (resN r) (resZ r) (decide (2 ^ 32 ≤ a.toNat + b.toNat)) ((a.toInt + b.toInt) != r.toInt)

/-- SUB and CMP: C is 1 when no borrow occurs (R103). -/
def subFlags (a b : Word) : Nat :=
  let r := a - b
  mkFlags (resN r) (resZ r) (decide (b.toNat ≤ a.toNat)) ((a.toInt - b.toInt) != r.toInt)

/-- AND, OR, XOR: N and Z set, C kept, V = 0 (R102). -/
def logicFlags (old : Nat) (r : Word) : Nat := mkFlags (resN r) (resZ r) (flagC old) false

/-- Shifts: N and Z set, C the last bit shifted out, kept when the count is 0, V kept (R102). -/
def shiftFlags (old : Nat) (r : Word) (count : Nat) (out : Bool) : Nat :=
  mkFlags (resN r) (resZ r) (if count = 0 then flagC old else out) (flagV old)

/-- MIN, MAX, MUL: N and Z set, C and V kept (R102). -/
def nzFlags (old : Nat) (r : Word) : Nat := mkFlags (resN r) (resZ r) (flagC old) (flagV old)

/-- CLZ: Z set, N = 0, C and V kept (R102). -/
def clzFlags (old : Nat) (r : Word) : Nat := mkFlags false (resZ r) (flagC old) (flagV old)

/-- The leading zeros of a word, 0-32 (R102). -/
def leadingZeros (w : Word) : Nat := if w = 0 then 32 else 31 - w.toNat.log2

/-- A branch condition over the flags (R126). -/
def condHolds (c : Cond) (f : Nat) : Bool :=
  match c with
  | .always => true
  | .eq => flagZ f
  | .ne => !flagZ f
  | .lt => flagN f != flagV f
  | .ge => flagN f == flagV f
  | .le => flagZ f || flagN f != flagV f
  | .gt => !flagZ f && flagN f == flagV f
  | .lo => !flagC f
  | .hs => flagC f
  | .ls => !flagC f || flagZ f
  | .hi => flagC f && !flagZ f
  | .mi => flagN f
  | .pl => !flagN f
  | .vs => flagV f
  | .vc => !flagV f

end Sys2Proof.Machine
end

