-- ==== Sys2Proof/Config.lean ====
section
/-! DEFINITION. What an implementation fixes and the free values: opaque constants without a body, of which no proof can
see a value. -/

namespace Sys2Proof

/-- A fresh value that the spec leaves open, 64 bits wide; the argument is the state's draw counter. -/
opaque Config.free64 : Nat → BitVec 64

/-- The error of the device's evaluation of a kerf shape (R162 bounds it): curve, progress numerator and denominator. -/
opaque Config.freeShapeErr : Nat → Nat → Nat → Int

/-- The error of the device's evaluation of a DBL value (R162 bounds it): start, target, progress. -/
opaque Config.freeDblErr : Nat → Nat → Nat → Nat → Int

/-- Tap `i` of the impulse response of the device's pink filter with its scaling, in units of 2^-31 (R155): the spec gives its
slope and level and no coefficients. -/
opaque Config.freePinkTap : Nat → Int

/-- Tap `i` of phase `p` of the 4x interpolator of the true-peak detectors, in units of 2^-31 (R152, R212): the spec names
ITU-R BS.1770 and gives no coefficients. -/
opaque Config.freePeakTap : Nat → Nat → Int

/-- Where in 2.0 Hz within 5 % the corner of the side-tone high-pass lies (R217), by internal rate; the model uses it modulo the
201 thousandths of a hertz that the rule allows. -/
opaque Config.freeHpfCorner : Nat → Nat

/-- Tap of the conversion pool's interpolator, in units of 2^-31 (R249, R253): LL mode, transmit direction, period of the stream
in units of 2^-40 sample, fraction of the point beyond an input word in units of 2^-40, and the tap's distance from that
word. The spec gives band edges, ripple and latency and no coefficients. -/
opaque Config.freeAsrcTap : Bool → Bool → Nat → Nat → Int → Int

/-- Gains of the rate groups' loop for the position and the period, in units of 2^-31, at the operating points 0 ACQUIRE, 1 the
first 2 s of LOCK and 2 LOCK (R250): the spec gives bandwidths and no gains. -/
opaque Config.freeLoop : Nat → Int × Int

/-- Tap of a DAC's interpolation filter (low-delay or not) at a distance in samples from its middle, in units of 2^-31 (R13, R417):
the spec gives its group delay and no coefficients. -/
opaque Config.freeDacTap : Bool → Nat → Int

end Sys2Proof
end

