-- ==== Sys2Proof/Machine/Num.lean ====
section
/-! DEFINITION. Exponentials, logarithms and sines in fixed point with 96 fraction bits, the gains of R49 and the kerf
shapes of R162 within the error the spec allows. -/

namespace Sys2Proof.Machine

/-- 1.0 in fixed point. -/
def fx1 : Int := 79228162514264337593543950336

/-- ln 2, ln 10 and pi / 2 in fixed point. -/
def fxLn2 : Int := 54916777467707473351141471128
def fxLn10 : Int := 182429585950654714090129938606
def fxHalfPi : Int := 124451306656115542615260972311

/-- Product in fixed point. -/
def fxMul (a b : Int) : Int := a * b / fx1

/-- Sum of the exponential series: `n` more terms after `term`, the next divisor being `k`. -/
def fxExpSeries : Nat → Nat → Int → Int → Int
  | 0, _, term, _ => term
  | n + 1, k, term, x => term + fxExpSeries n (k + 1) (fxMul term x / (k : Int)) x

/-- e^x, for x in fixed point. -/
def fxExp (x : Int) : Int :=
  let k := x / fxLn2
  let r := x - k * fxLn2
  let y := fxExpSeries 34 1 fx1 r
  if 0 ≤ k then y * ((2 ^ k.toNat : Nat) : Int) else y / ((2 ^ (-k).toNat : Nat) : Int)

/-- Sum of the series of atanh: `n` more terms, power `p` of `z`, next divisor `k`. -/
def fxAtanhSeries : Nat → Nat → Int → Int → Int
  | 0, _, _, _ => 0
  | n + 1, k, p, z2 => p / (k : Int) + fxAtanhSeries n (k + 2) (fxMul p z2) z2

/-- ln of `num / den`, both above 0. -/
def fxLn (num den : Nat) : Int :=
  let y : Int := (num : Int) * fx1 / (den : Int)
  let k : Int := (y.toNat.log2 : Int) - 96
  let m : Int := if 0 ≤ k then y / ((2 ^ k.toNat : Nat) : Int) else y * ((2 ^ (-k).toNat : Nat) : Int)
  let z : Int := (m - fx1) * fx1 / (m + fx1)
  k * fxLn2 + 2 * fxAtanhSeries 34 1 z (fxMul z z)

/-- Sum of the sine series: `n` more terms, the current term and its index. -/
def fxSinSeries : Nat → Nat → Int → Int → Int
  | 0, _, term, _ => term
  | n + 1, k, term, y2 => term + fxSinSeries n (k + 2) (-(fxMul term y2 / ((k * (k + 1) : Nat) : Int))) y2

/-- sin of an angle from 0 to pi / 2 in fixed point. -/
def fxSin (y : Int) : Int := fxSinSeries 18 2 y (fxMul y y)

/-- 10^(g / 2000) in fixed point: the linear factor of a gain in 0.01 dB. -/
def fxGain (g : Int) : Int := fxExp (g * fxLn10 / 2000)

/-- The linear factor of a register gain (R49): Q4.28, nearest with ties to even, saturating at 8 - 2^-28; 0x8000 and
gains of -174.60 dB or lower give 0. -/
def gainQ428 (w : Nat) : Nat :=
  let g := toSigned 16 w
  if g = -32768 ∨ g ≤ -17460 then 0 else min (2 ^ 31 - 1) (rneShift (fxGain g) 68).toNat

/-- The level in 0.01 dB of the magnitude `num / den`, rounded to the nearest step; 0x8000 for an exact zero (R152);
`k` is 2000 for a magnitude and 1000 for a mean square. -/
def levelOf (k : Nat) (num den : Nat) : Nat :=
  if num = 0 then 0x8000
  else
    let l := rneDiv ((k : Int) * fxLn num den * fx1 / fxLn10) (2 ^ 96)
    ofSigned 16 (if l < -32767 then -32767 else if l > 32767 then 32767 else l)

/-- The curves of R162. -/
def curveLin : Nat := 0
def curveEqp : Nat := 1
def curveDbl : Nat := 2
def curveScv : Nat := 3

/-- A free error with magnitude below 2^-24, in fixed point: the spec bounds it and states nothing more (R162). -/
def shapeErr (curve num den : Nat) : Int :=
  let b : Int := ((2 ^ 72 - 2 ^ 10 : Nat) : Int)
  (Config.freeShapeErr curve num den) % (2 * b + 1) - b

/-- The rising shape a(x) at x = num / den, exact up to the precision of the fixed point. -/
def shapeExact (curve num den : Nat) : Int :=
  let x : Int := (num : Int) * fx1 / (den : Int)
  if curve = curveLin then x
  else if curve = curveEqp then fxSin (fxMul fxHalfPi x)
  else if curve = curveScv then fxMul (fxMul x x) (3 * fx1 - 2 * x)
  else fxExp (-(fxMul (48 * fxLn10 / 10) (fx1 - x)))

/-- The rising shape as the device evaluates it: 1 at x = 1, else within 2^-24 of a(x) (R162). -/
def shapeUp (curve num den : Nat) : Int :=
  if den ≤ num then fx1 else shapeExact curve num den + shapeErr curve num den

/-- The weight of a leaving source at x = num / den (R162): 0 at x = 1. -/
def shapeDown (curve num den : Nat) : Int :=
  if den ≤ num then 0
  else if curve = curveEqp then shapeExact curveEqp (den - num) den + shapeErr (4 + curve) num den
  else if curve = curveDbl then fxExp (-(fxMul (48 * fxLn10 / 10) ((num : Int) * fx1 / (den : Int)))) + shapeErr (4 + curve) num den
  else fx1 - shapeUp curve num den

/-- The magnitude, in fixed point, that a DBL parameter kerf gives a value of `v / 2^f`: 0 counts as -144.00 dB (R162). -/
def dblLn (v f : Nat) : Int := if v = 0 then -(fxMul (72 * fx1 / 10) fxLn10) else fxLn v (2 ^ f)

/-- The DBL value between `start` and `tgt` (both at `f` fraction bits, not negative) at x = num / den, in units of
2^-f times 2^96; free within 0.001 dB (a factor within 1.15e-4 of 1). -/
def dblValue (start tgt f num den : Nat) : Int :=
  let l0 := dblLn start f
  let l1 := dblLn tgt f
  let v := fxExp (l0 + (l1 - l0) * (num : Int) / (den : Int)) * ((2 ^ f : Nat) : Int)
  let b : Int := 8100800000
  let e := (Config.freeDblErr start tgt num den) % (2 * b + 1) - b
  v + v * e / ((2 ^ 46 : Nat) : Int)

end Sys2Proof.Machine
end

