-- ==== Sys2Proof/Machine/StateEng.lean ====
section
/-! DEFINITION. State of one engine that no BAR0 register holds (R56-R92, R112-R114, R164-R169). -/

namespace Sys2Proof.Machine

/-- Where a result goes (R59). `am` is an accumulator half as MAC-class instructions see it, `a` as any other read of it
does (R71); loop registers and LDEPTH are `lcnt`, `lbeg`, `lend` and `ldepth`. -/
inductive Dest where
  | v (r lane : Nat)
  | a (r half lane : Nat)
  | am (r half lane : Nat)
  | q (r : Nat)
  | g (r : Nat)
  | p (r : Nat)
  | m (r : Nat)
  | flags
  | sticky (bit : Nat)
  | ectl
  | sys (r : Nat)
  | lcnt (n : Nat)
  | lbeg (n : Nat)
  | lend (n : Nat)
  | ldepth
  deriving DecidableEq, Repr

/-- A result on its way (R71): destination, value, bundles until it is seen, bundles since its issue, and slot. -/
structure Res where
  dst : Dest
  val : Nat
  left : Nat
  age : Nat
  isX : Bool
  deriving DecidableEq, Repr

/-- The registers of an engine program (R59): what the hidden context of a twin run keeps (R92). -/
structure ERegs where
  /-- Lane `k` of Vr at key 16r + k. -/
  v : Tbl (BitVec 64)
  /-- Half h of lane k of Ar at key 32r + 16h + k, as seen by reads other than MAC-class ones. -/
  a : Tbl (BitVec 80)
  /-- The same as MAC-class instructions see it. -/
  am : Tbl (BitVec 80)
  q : Tbl (BitVec 16)
  g : Tbl Word
  p : Tbl Word
  m : Tbl Word
  /-- Ring descriptors in force: BASE of Bn at key n, LEN at key 8 + n. -/
  b : Tbl Word
  /-- Staged MOVS writes to ring descriptors and haul rings, by SR number (R76, R84). -/
  bStg : Tbl Word
  lcnt : Tbl Nat
  lbeg : Tbl Nat
  lend : Tbl Nat
  ldepth : Nat
  ectl : Word
  /-- Sticky bits and flags of EST; IP, TWIN and BANK live in the engine. -/
  est : Word
  ipc : Nat
  iest : Word
  ivb : Nat
  /-- Haul rings in force: far base bits [31:0] at n, bits [39:32] at 8 + n, LEN at 16 + n (R84, R124). -/
  hr : Tbl Word
  pc : Nat
  deriving DecidableEq, Repr

/-- A state of one parameter in the device's record (R164-R167): in force from sample `s0`. With `busy` it is a kerf of
`span` samples from `start` to `tgt`; otherwise the value is `start`. -/
structure KSt where
  s0 : Nat
  busy : Bool
  start : Word
  tgt : Word
  curve : Nat
  span : Nat
  kend : Bool
  fmt : Nat
  /-- The command that made it and is not DONE yet. -/
  handle : Option Nat
  /-- The kerf-end interrupt of this kerf has been asserted (R114). -/
  fired : Bool
  /-- Order of acceptance of the change behind it; 0 for a state that no change made (R165). -/
  order : Nat
  /-- The span and KEND that the change asked for, which count when it runs as a kerf (R165). -/
  askSpan : Nat
  askKend : Bool
  deriving DecidableEq, Repr

/-- A KPS entry as KGET and loads see it (R66), with the lead and position kept beside it (R113) and the further changes
of this block by offset (R114). -/
structure KpsEntry where
  start : Word
  tgt : Word
  busy : Bool
  kend : Bool
  curve : Nat
  fmt : Nat
  spanm1 : Nat
  elapsed : Nat
  lead : Nat
  pos : Nat
  s0 : Nat
  ahead : List (Nat × KSt)
  deriving DecidableEq, Repr

/-- A haul transfer in a slot (R83, R84): the descriptor's fields, and the ring it began with. -/
structure Haul where
  toFar : Bool
  irq : Bool
  ringed : Bool
  laddr : Nat
  foff : Nat
  fbase : Nat
  flen : Nat
  xbytes : Nat
  yrows : Nat
  lstride : Int
  fstride : Int
  deriving DecidableEq, Repr

/-- What the landing plays from an engine (R53, R54, R58). -/
inductive Play where
  | zero
  | good
  | fadeIn
  | fadeOut
  deriving DecidableEq, Repr

/-- A program kerf (R176-R180): applying index, rounding, span rounded up, curve, the command, and whether the twin
run has started or ended. -/
structure ProgKerf where
  s : Nat
  rounding : Nat
  span : Nat
  curve : Nat
  handle : Option Nat
  started : Bool
  alone : Bool
  deriving DecidableEq, Repr

/-- One engine. -/
structure Engine where
  r : ERegs
  /-- The hidden context store: the program of a twin run that is not executing (R92). -/
  hidden : Option ERegs
  /-- Local memory by local byte address: IMEM, DMEM, input and output blocks (R62). -/
  mem : Memory
  /-- The kerf output buffers of a twin run (R92), by output-block byte address. -/
  kbuf : Memory
  kps : Tbl KpsEntry
  /-- The device's record of each KPS entry, oldest state first (R164). -/
  krec : Tbl (List KSt)
  /-- Base of the input and output block of the current block (R64). -/
  icur : Nat
  ocur : Nat
  /-- First sample of the block that ICUR names (R124). -/
  bidx : Nat
  /-- First sample of the input block the program works on, and whether its deadline has passed (R52, R53). -/
  work : Nat
  late : Bool
  /-- A marker has been executed for the block in work. -/
  ended : Bool
  /-- The deadline of this block tick was missed and its overrun is not reported yet (R53). -/
  missed : Bool
  play : Play
  /-- Output block the landing reads, and the words of the block it repeats under a fade: channel c of sample i at key
  256 i + c (R53, R180). -/
  pbase : Nat
  fbuf : Tbl Int
  /-- The program crossfade that the landing plays: first sample of the twin run, span, curve (R177, R180). -/
  xf : Option (Nat × Nat × Nat)
  /-- No deadline has been missed since the start or since the last good block (R54). -/
  clean : Bool
  /-- IP bits and the latched BRK immediate (R79, R131). -/
  ip : BitVec 8
  brk : BitVec 8
  /-- HSTAT error bits and haul slots (R83). -/
  herr : BitVec 8
  haul : Tbl (Option Haul)
  dbell : Word
  /-- The second program of a twin run executes; IMEM bank of the program now executing (EST.TWIN, EST.BANK). -/
  twin : Bool
  bank : Nat
  prog : Option ProgKerf
  /-- Results in flight, oldest bundle first, and those of the bundle now in issue, per slot. -/
  infl : List Res
  curX : List Res
  curY : List Res
  /-- The X half of the bundle has been issued and its Y half has not. -/
  mid : Bool
  /-- The bundle waits in WAIT, HSYNC or CIDLE (R98). -/
  stall : Bool
  /-- DMEM banks read by the TLU of this bundle; all of them for TLU.K (R98). -/
  tluBanks : List Nat
  /-- KPS entries that the KGET of this bundle advances, and stall cycles of its TLU: both happen with the bundle. -/
  adv : List Nat
  xst : Nat
  /-- 3 in the bundle of a branch, 2 and 1 in its delay slots, else 0; and the target of the branch (R126). -/
  dly : Nat
  dtgt : Option Nat
  /-- 3 in the bundle of a REP, 2 in its set-up slot, 1 in its first body bundle, else 0; and where execution continues
  after the set-up slot when the count was 0 (R77, R80). -/
  setup : Nat
  skip : Option Nat
  /-- Bundle boundaries left in an LSAVE or LREST window (R80). -/
  lwin : Nat
  /-- The X half of the bundle whose WAIT was interrupted by the second program of a twin run. -/
  heldX : List Res
  /-- The old program's marker of this block was a WAIT (R92). -/
  oldWait : Bool
  /-- The block tick a WAIT sleeps for: the first sample of the block (R81). -/
  waitFor : Option Nat
  /-- The same of the program in the hidden context. -/
  hiddenWait : Option Nat
  /-- RING_RESHAPED has been raised in this block (R75). -/
  reshaped : Bool
  /-- Cycles since the block tick (ENG_CYC). -/
  cyc : Nat
  /-- Sample of the pending start and stop request. -/
  startReq : Option Nat
  stopReq : Option Nat
  /-- DMEM address of the START_RING table of the pending start, and the commands behind start and stop. -/
  startRing : Option Nat
  startCmd : Option Nat
  stopCmd : Option Nat
  /-- The stop's boundary has passed and the haul drains (R58). -/
  stopping : Option Nat
  /-- Self-test slice of the next block tick, and the slice that mismatched at the last one (R87, R88). -/
  slice : Nat
  misSlice : Option Nat
  /-- The tile whose signature mismatches in the slice of the current block tick, for an engine that starts there (R57). -/
  testBad : Option (Fin 4)
  /-- The executing program sleeps in CIDLE (control engine). -/
  idle : Bool
  /-- The debug handler is executing (ECTL.SSTEP). -/
  inDbg : Bool
  deriving DecidableEq, Repr

/-- The registers as a start leaves them (R57), for bank `b`. R57 leaves IPC, IEST, IVB and HR0-HR7 as they are, and the spec gives
them no reset value: after PORST_N they hold 0, as does DBELL (DESIGN CHOICE, log entry 20). -/
def ERegs.zero (b : Nat) : ERegs :=
  { v := [], a := [], am := [], q := [], g := [], p := [], m := [], b := [], bStg := [], lcnt := [], lbeg := [],
    lend := [], ldepth := 0, ectl := 0, est := 0, ipc := 0, iest := 0, ivb := 0, hr := [], pc := 16384 * b }

/-- An engine after PORST_N (R56). -/
def Engine.reset : Engine :=
  { r := ERegs.zero 0, hidden := none, mem := [], kbuf := [], kps := [], krec := [], icur := 0x300000, ocur := 0x310000,
    bidx := 0, work := 0, late := false, ended := false, missed := false, play := .zero, pbase := 0x318000, fbuf := [],
    xf := none, clean := true, ip := 0, brk := 0, herr := 0, haul := [], dbell := 0, twin := false, bank := 0,
    prog := none, infl := [], curX := [], curY := [], mid := false, stall := false, tluBanks := [], adv := [], xst := 0, dly := 0,
    dtgt := none, setup := 0, skip := none, lwin := 0, heldX := [], oldWait := false, waitFor := none, hiddenWait := none, reshaped := false, cyc := 0, startReq := none,
    stopReq := none, startRing := none, startCmd := none, stopCmd := none, stopping := none, slice := 0, misSlice := none, testBad := none,
    idle := false, inDbg := false }

/-- A KPS entry after reset (R66). -/
def KpsEntry.reset : KpsEntry :=
  { start := 0, tgt := 0, busy := false, kend := false, curve := 0, fmt := 0, spanm1 := 0, elapsed := 0, lead := 0,
    pos := 0, s0 := 0, ahead := [] }

/-- The record of an entry after reset: idle at 0. -/
def KSt.reset : KSt :=
  { s0 := 0, busy := false, start := 0, tgt := 0, curve := 0, span := 0, kend := false, fmt := 0, handle := none,
    fired := false, order := 0, askSpan := 0, askKend := false }

end Sys2Proof.Machine
end

