-- ==== Sys2Proof/Machine/StateFar.lean ====
section
/-! DEFINITION. State of the bus matrix, the yard and the SDRAM that no register holds (R393-R414). -/

namespace Sys2Proof.Machine

/-- A matrix transaction waiting for its response (R395): master, ID, write, far address, length in bytes and, for a
write, its bytes, none where a strobe is off; `bar2` marks BAR2 traffic of HOSTDMA, which CFG does not admit (R393). -/
structure MtxTx where
  master : Nat
  id : Nat
  write : Bool
  far : Nat
  len : Nat
  data : List (Option Byte)
  locked : Bool
  bar2 : Bool
  /-- Its target has granted it; and, for the yard, another master's request met it there (R398, R406). -/
  granted : Bool
  met : Bool
  deriving DecidableEq, Repr

/-- The arbiter of a target (R398): grants of each master in the current round, and consecutive grants in which a bulk request
waited. -/
structure Arb where
  used : Tbl Nat
  bulk : Nat
  deriving DecidableEq, Repr

/-- A lock (R400): the target, its master, and the transactions granted under it. -/
structure MtxLock where
  target : Nat
  master : Nat
  count : Nat
  deriving DecidableEq, Repr

/-- The far side of the matrix. -/
structure FarSt where
  /-- Yard bytes by far address; unlisted bytes read 0 (R496). -/
  yard : Memory
  /-- SDRAM bytes by offset from 0x04_0000_0000 (contents after power-on and training: the log). -/
  sdr : Memory
  txs : List MtxTx
  locks : List MtxLock
  arbs : Tbl Arb
  /-- Banks on their way to ON: usable in some time (R405). -/
  waking : List Nat
  /-- Attempts of cruise at the region under test that were abandoned (R408). -/
  crAbandon : Nat
  /-- Far address bits [31:0] of the last error; MTX_ERR1 shows them once a read of MTX_ERR0 latches them. -/
  err1 : Word
  /-- Channels under training and the SDR_TRAIN command behind it, with those that have ended well. -/
  train : Option (Nat × Nat × Nat × Nat)
  /-- Uncorrectable errors of each channel in the current 1 s window. -/
  ue : Tbl Nat
  deriving DecidableEq, Repr

/-- The far side after reset. -/
def FarSt.reset : FarSt :=
  { yard := [], sdr := [], txs := [], locks := [], arbs := [], waking := [], crAbandon := 0, err1 := 0, train := none, ue := [] }

end Sys2Proof.Machine
end

