-- ==== Sys2Proof/Machine/Regs.lean ====
section
/-! DEFINITION. The register map of the spec: one named offset per register, one named field per field of
its table, and one row per register word (place, reset value, bits the host may write), following R4-R7,
R27, R362 and the register headings of the chapters. -/

namespace Sys2Proof.Machine

/-- A register field: BAR0 offset of its word, most and least significant bit (R7). -/
structure Fld where
  off : Nat
  hi : Nat
  lo : Nat
  deriving DecidableEq, Repr

/-- Offset of `GLB_ID`. -/
def GLB_ID.adr : Nat := 0
def GLB_ID.PART : Fld := ⟨0, 31, 16⟩
def GLB_ID.REVMAJ : Fld := ⟨0, 15, 12⟩
def GLB_ID.REVMIN : Fld := ⟨0, 11, 8⟩
def GLB_ID.PKG : Fld := ⟨0, 7, 4⟩
/-- Offset of `GLB_MODE`. -/
def GLB_MODE.adr : Nat := 0x10
def GLB_MODE.SAFE_CAUSE : Fld := ⟨0x10, 31, 24⟩
def GLB_MODE.PENDING : Fld := ⟨0x10, 11, 11⟩
def GLB_MODE.TARGET : Fld := ⟨0x10, 10, 8⟩
def GLB_MODE.CUR : Fld := ⟨0x10, 2, 0⟩
/-- Offset of `GLB_RATE`. -/
def GLB_RATE.adr : Nat := 0x20
def GLB_RATE.REFUSE : Fld := ⟨0x20, 31, 28⟩
def GLB_RATE.FAM : Fld := ⟨0x20, 20, 20⟩
def GLB_RATE.PENDING : Fld := ⟨0x20, 19, 19⟩
def GLB_RATE.NB : Fld := ⟨0x20, 9, 8⟩
def GLB_RATE.RATE : Fld := ⟨0x20, 2, 0⟩
/-- Offset of `GLB_SCNT_LO`. -/
def GLB_SCNT_LO.adr : Nat := 0x28
def GLB_SCNT_LO.CNT_LO : Fld := ⟨0x28, 31, 0⟩
/-- Offset of `GLB_SCNT_HI`. -/
def GLB_SCNT_HI.adr : Nat := 0x2c
def GLB_SCNT_HI.CNT_HI : Fld := ⟨0x2c, 31, 0⟩
/-- Offset of `GLB_SPHASE`. -/
def GLB_SPHASE.adr : Nat := 0x30
def GLB_SPHASE.PHASE : Fld := ⟨0x30, 15, 0⟩
/-- Offset of `GLB_RSTCAUSE`. -/
def GLB_RSTCAUSE.adr : Nat := 0x34
def GLB_RSTCAUSE.CAUSE : Fld := ⟨0x34, 31, 28⟩
def GLB_RSTCAUSE.RAIL : Fld := ⟨0x34, 27, 24⟩
def GLB_RSTCAUSE.MIN : Fld := ⟨0x34, 15, 0⟩
/-- Offset of `GLB_BOOT`. -/
def GLB_BOOT.adr : Nat := 0x38
def GLB_BOOT.STEP : Fld := ⟨0x38, 31, 28⟩
def GLB_BOOT.FAIL : Fld := ⟨0x38, 27, 24⟩
def GLB_BOOT.SRC : Fld := ⟨0x38, 23, 22⟩
def GLB_BOOT.KEYOPEN : Fld := ⟨0x38, 21, 21⟩
def GLB_BOOT.FALLBACK : Fld := ⟨0x38, 20, 20⟩
def GLB_BOOT.COPYB : Fld := ⟨0x38, 19, 19⟩
def GLB_BOOT.IVER : Fld := ⟨0x38, 15, 0⟩
/-- Offset of `SUP_STAT`. -/
def SUP_STAT.adr : Nat := 0x40
def SUP_STAT.WARN : Fld := ⟨0x40, 29, 16⟩
def SUP_STAT.LOW : Fld := ⟨0x40, 13, 0⟩
/-- Offset of `THM_STAT`. -/
def THM_STAT.adr : Nat := 0x60
def THM_STAT.TRIPPED : Fld := ⟨0x60, 31, 31⟩
def THM_STAT.WARN : Fld := ⟨0x60, 30, 30⟩
def THM_STAT.FAULTY : Fld := ⟨0x60, 23, 16⟩
def THM_STAT.MAX : Fld := ⟨0x60, 15, 0⟩
/-- Offset of `THM_TEMP`. -/
def THM_TEMP.adr (i : Nat) : Nat := 0x70 + 4 * i
def THM_TEMP.T (i : Nat) : Fld := ⟨0x70 + 4 * i, 15, 0⟩
/-- Offset of `FUSE_STAT`. -/
def FUSE_STAT.adr : Nat := 0x90
def FUSE_STAT.BURNING : Fld := ⟨0x90, 31, 31⟩
def FUSE_STAT.ARMED : Fld := ⟨0x90, 30, 30⟩
def FUSE_STAT.ARMSET : Fld := ⟨0x90, 29, 27⟩
def FUSE_STAT.DBGLOCK : Fld := ⟨0x90, 26, 26⟩
def FUSE_STAT.PEND : Fld := ⟨0x90, 20, 16⟩
def FUSE_STAT.WRITTEN : Fld := ⟨0x90, 4, 0⟩
/-- Offset of `FUSE_SLOTS`. -/
def FUSE_SLOTS.adr : Nat := 0x94
def FUSE_SLOTS.DBG : Fld := ⟨0x94, 16, 16⟩
def FUSE_SLOTS.DAC : Fld := ⟨0x94, 15, 12⟩
def FUSE_SLOTS.KEY : Fld := ⟨0x94, 11, 8⟩
def FUSE_SLOTS.SIDE : Fld := ⟨0x94, 7, 4⟩
def FUSE_SLOTS.NODE : Fld := ⟨0x94, 3, 0⟩
/-- Offset of `FUSE_NODE`. -/
def FUSE_NODE.adr : Nat := 0x98
def FUSE_NODE.NVALID : Fld := ⟨0x98, 31, 31⟩
def FUSE_NODE.SVALID : Fld := ⟨0x98, 30, 30⟩
def FUSE_NODE.SIDE : Fld := ⟨0x98, 16, 16⟩
def FUSE_NODE.NODE : Fld := ⟨0x98, 13, 0⟩
/-- Offset of `FUSE_KEYHASH`. -/
def FUSE_KEYHASH.adr (i : Nat) : Nat := 0xa0 + 4 * i
def FUSE_KEYHASH.VALUE (i : Nat) : Fld := ⟨0xa0 + 4 * i, 31, 0⟩
/-- Offset of `GLB_GPIO`. -/
def GLB_GPIO.adr : Nat := 0xc0
def GLB_GPIO.OE : Fld := ⟨0xc0, 31, 16⟩
def GLB_GPIO.OUT : Fld := ⟨0xc0, 15, 0⟩
/-- Offset of `GLB_GPIO_IN`. -/
def GLB_GPIO_IN.adr : Nat := 0xc4
def GLB_GPIO_IN.IN : Fld := ⟨0xc4, 15, 0⟩
/-- Offset of `GLB_LEVEL`. -/
def GLB_LEVEL.adr : Nat := 0xfc
def GLB_LEVEL.BASIC_RESET : Fld := ⟨0xfc, 11, 8⟩
def GLB_LEVEL.XMODE : Fld := ⟨0xfc, 3, 0⟩
/-- Offset of `SUP_XTHRr`. -/
def SUP_XTHR.adr (i : Nat) : Nat := 0x200 + 4 * i
def SUP_XTHR.WARN (i : Nat) : Fld := ⟨0x200 + 4 * i, 31, 16⟩
def SUP_XTHR.RESET (i : Nat) : Fld := ⟨0x200 + 4 * i, 15, 0⟩
/-- Offset of `SUP_XBRACE`. -/
def SUP_XBRACE.adr : Nat := 0x240
def SUP_XBRACE.EN : Fld := ⟨0x240, 31, 31⟩
def SUP_XBRACE.RAILS : Fld := ⟨0x240, 29, 16⟩
def SUP_XBRACE.SPAN : Fld := ⟨0x240, 15, 0⟩
/-- Offset of `SUP_DIP_CNT`. -/
def SUP_DIP_CNT.adr (i : Nat) : Nat := 0x280 + 4 * i
def SUP_DIP_CNT.COUNT (i : Nat) : Fld := ⟨0x280 + 4 * i, 31, 0⟩
/-- Offset of `SUP_PEG`. -/
def SUP_PEG.adr : Nat := 0x2c0
def SUP_PEG.PEG : Fld := ⟨0x2c0, 31, 0⟩
/-- Offset of `THM_XCFG`. -/
def THM_XCFG.adr : Nat := 0x300
def THM_XCFG.WARN : Fld := ⟨0x300, 23, 16⟩
/-- Offset of `THM_WARN_CNT`. -/
def THM_WARN_CNT.adr : Nat := 0x310
def THM_WARN_CNT.COUNT : Fld := ⟨0x310, 31, 0⟩
/-- Offset of `THM_PEG`. -/
def THM_PEG.adr : Nat := 0x314
def THM_PEG.PEG : Fld := ⟨0x314, 31, 0⟩
/-- Offset of `HOST_CMD_HDR`. -/
def HOST_CMD_HDR.adr : Nat := 0x100000
def HOST_CMD_HDR.VALUE : Fld := ⟨0x100000, 31, 0⟩
/-- Offset of `HOST_CMD_TAG`. -/
def HOST_CMD_TAG.adr : Nat := 0x100004
def HOST_CMD_TAG.VALUE : Fld := ⟨0x100004, 31, 0⟩
/-- Offset of `HOST_CMD_ARG`. -/
def HOST_CMD_ARG.adr (i : Nat) : Nat := 0x100008 + 4 * i
def HOST_CMD_ARG.VALUE (i : Nat) : Fld := ⟨0x100008 + 4 * i, 31, 0⟩
/-- Offset of `HOST_CMD_HANDLE`. -/
def HOST_CMD_HANDLE.adr : Nat := 0x100040
def HOST_CMD_HANDLE.HANDLE : Fld := ⟨0x100040, 31, 0⟩
/-- Offset of `HOST_CMD_STAT`. -/
def HOST_CMD_STAT.adr : Nat := 0x100044
def HOST_CMD_STAT.REFUSED : Fld := ⟨0x100044, 31, 31⟩
def HOST_CMD_STAT.PENDING : Fld := ⟨0x100044, 5, 0⟩
/-- Offset of `HOST_DCPL`. -/
def HOST_DCPL.adr (i : Nat) : Nat := 0x100060 + 4 * i
def HOST_DCPL.VALUE (i : Nat) : Fld := ⟨0x100060 + 4 * i, 31, 0⟩
/-- Offset of `HOST_DEVQ`. -/
def HOST_DEVQ.adr (i : Nat) : Nat := 0x100080 + 4 * i
def HOST_DEVQ.VALUE (i : Nat) : Fld := ⟨0x100080 + 4 * i, 31, 0⟩
/-- Offset of `HOST_DSTAT`. -/
def HOST_DSTAT.adr : Nat := 0x1000a0
def HOST_DSTAT.CPL : Fld := ⟨0x1000a0, 22, 16⟩
def HOST_DSTAT.EV : Fld := ⟨0x1000a0, 6, 0⟩
/-- Offset of `HOST_EVEN`. -/
def HOST_EVEN.adr (i : Nat) : Nat := 0x1000c0 + 4 * i
def HOST_EVEN.VALUE (i : Nat) : Fld := ⟨0x1000c0 + 4 * i, 31, 0⟩
/-- Offset of `HOST_IRQ`. -/
def HOST_IRQ.adr : Nat := 0x1000e0
def HOST_IRQ.PIN : Fld := ⟨0x1000e0, 31, 31⟩
def HOST_IRQ.MSIEV : Fld := ⟨0x1000e0, 3, 3⟩
def HOST_IRQ.MSICPL : Fld := ⟨0x1000e0, 2, 2⟩
def HOST_IRQ.EV : Fld := ⟨0x1000e0, 1, 1⟩
def HOST_IRQ.CPL : Fld := ⟨0x1000e0, 0, 0⟩
/-- Offset of `HOST_LEVEL`. -/
def HOST_LEVEL.adr : Nat := 0x1000fc
def HOST_LEVEL.BASIC_RESET : Fld := ⟨0x1000fc, 11, 8⟩
def HOST_LEVEL.XMODE : Fld := ⟨0x1000fc, 3, 0⟩
/-- Offset of `HOST_ACCERR_CNT`. -/
def HOST_ACCERR_CNT.adr : Nat := 0x100110
def HOST_ACCERR_CNT.COUNT : Fld := ⟨0x100110, 31, 0⟩
/-- Offset of `HOST_NOROUTE_CNT`. -/
def HOST_NOROUTE_CNT.adr : Nat := 0x100114
def HOST_NOROUTE_CNT.COUNT : Fld := ⟨0x100114, 31, 0⟩
/-- Offset of `HOST_PEG`. -/
def HOST_PEG.adr : Nat := 0x100118
def HOST_PEG.PEG : Fld := ⟨0x100118, 31, 0⟩
/-- Offset of `HOST_XEVRc`. -/
def HOST_XEVR.adr (i : Nat) : Nat := 0x100400 + 4 * i
def HOST_XEVR.RING (i : Nat) : Fld := ⟨0x100400 + 4 * i, 31, 31⟩
def HOST_XEVR.FIFO (i : Nat) : Fld := ⟨0x100400 + 4 * i, 30, 30⟩
def HOST_XEVR.ERING (i : Nat) : Fld := ⟨0x100400 + 4 * i, 6, 0⟩
/-- Offset of `HOST_RINGr`. -/
def HOST_RING.adr (i : Nat) : Nat := 0x101000 + 0x20 * i
def HOST_RING.BASE_LO (i : Nat) : Fld := ⟨0x101000 + 0x20 * i, 31, 0⟩
def HOST_RING.BASE_HI (i : Nat) : Fld := ⟨0x101004 + 0x20 * i, 31, 0⟩
def HOST_RING.EN (i : Nat) : Fld := ⟨0x101008 + 0x20 * i, 31, 31⟩
def HOST_RING.ROLE (i : Nat) : Fld := ⟨0x101008 + 0x20 * i, 30, 29⟩
def HOST_RING.LOG2SZ (i : Nat) : Fld := ⟨0x101008 + 0x20 * i, 28, 24⟩
def HOST_RING.IEN (i : Nat) : Fld := ⟨0x101008 + 0x20 * i, 23, 23⟩
def HOST_RING.VEC (i : Nat) : Fld := ⟨0x101008 + 0x20 * i, 22, 17⟩
def HOST_RING.CRING (i : Nat) : Fld := ⟨0x101008 + 0x20 * i, 13, 7⟩
def HOST_RING.DIDX (i : Nat) : Fld := ⟨0x10100c + 0x20 * i, 31, 0⟩
def HOST_RING.HIDX (i : Nat) : Fld := ⟨0x101010 + 0x20 * i, 31, 0⟩
def HOST_RING.STATE (i : Nat) : Fld := ⟨0x101014 + 0x20 * i, 31, 28⟩
def HOST_RING.CAUSE (i : Nat) : Fld := ⟨0x101014 + 0x20 * i, 27, 24⟩
/-- Offset of `HOST_DB`. -/
def HOST_DB.adr (i : Nat) : Nat := 0x102000 + 4 * i
def HOST_DB.VALUE (i : Nat) : Fld := ⟨0x102000 + 4 * i, 31, 0⟩
/-- Offset of `HOST_EVLOST_CNT`. -/
def HOST_EVLOST_CNT.adr (i : Nat) : Nat := 0x103000 + 4 * i
def HOST_EVLOST_CNT.COUNT (i : Nat) : Fld := ⟨0x103000 + 4 * i, 31, 0⟩
/-- Offset of `HOST_EVPEG`. -/
def HOST_EVPEG.adr (i : Nat) : Nat := 0x103200 + 4 * i
def HOST_EVPEG.PEG (i : Nat) : Fld := ⟨0x103200 + 4 * i, 31, 0⟩
/-- Offset of `LND_STAT`. -/
def LND_STAT.adr : Nat := 0x200000
def LND_STAT.METERS : Fld := ⟨0x200000, 28, 16⟩
def LND_STAT.ROUTES : Fld := ⟨0x200000, 14, 0⟩
/-- Offset of `LND_MSEQ`. -/
def LND_MSEQ.adr : Nat := 0x200004
def LND_MSEQ.VALUE : Fld := ⟨0x200004, 31, 0⟩
/-- Offset of `LND_MCLR`. -/
def LND_MCLR.adr : Nat := 0x200008
def LND_MCLR.ALL : Fld := ⟨0x200008, 31, 31⟩
def LND_MCLR.METER : Fld := ⟨0x200008, 11, 0⟩
/-- Offset of `LND_TONEn`. -/
def LND_TONE.adr (i : Nat) : Nat := 0x200040 + 4 * i
def LND_TONE.TYPE (i : Nat) : Fld := ⟨0x200040 + 4 * i, 31, 28⟩
def LND_TONE.ATTEN (i : Nat) : Fld := ⟨0x200040 + 4 * i, 27, 16⟩
def LND_TONE.FREQ (i : Nat) : Fld := ⟨0x200040 + 4 * i, 15, 0⟩
/-- Offset of `LND_LEVEL`. -/
def LND_LEVEL.adr : Nat := 0x2000fc
def LND_LEVEL.BASIC_RESET : Fld := ⟨0x2000fc, 11, 8⟩
def LND_LEVEL.XMODE : Fld := ⟨0x2000fc, 3, 0⟩
/-- Offset of `LND_KDEF`. -/
def LND_KDEF.adr : Nat := 0x200100
def LND_KDEF.CURVE : Fld := ⟨0x200100, 21, 20⟩
def LND_KDEF.SPAN : Fld := ⟨0x200100, 16, 0⟩
/-- Offset of `LND_REFUSE`. -/
def LND_REFUSE.adr : Nat := 0x200104
def LND_REFUSE.TABLE : Fld := ⟨0x200104, 31, 30⟩
def LND_REFUSE.CAUSE : Fld := ⟨0x200104, 27, 24⟩
def LND_REFUSE.INDEX : Fld := ⟨0x200104, 15, 0⟩
/-- Offset of `LND_MCLR`. -/
def LND_XMCLR.adr : Nat := 0x200108
def LND_XMCLR.ALL : Fld := ⟨0x200108, 31, 31⟩
def LND_XMCLR.METER : Fld := ⟨0x200108, 11, 0⟩
/-- Offset of `LND_REFUSE_CNT`. -/
def LND_REFUSE_CNT.adr : Nat := 0x200110
def LND_REFUSE_CNT.COUNT : Fld := ⟨0x200110, 31, 0⟩
/-- Offset of `LND_ALLOCF_CNT`. -/
def LND_ALLOCF_CNT.adr : Nat := 0x200114
def LND_ALLOCF_CNT.COUNT : Fld := ⟨0x200114, 31, 0⟩
/-- Offset of `LND_PEG`. -/
def LND_PEG.adr : Nat := 0x200118
def LND_PEG.PEG : Fld := ⟨0x200118, 31, 0⟩
/-- Offset of `LND_GENn_CTL`. -/
def LND_GEN_CTL.adr (i : Nat) : Nat := 0x200200 + 0x10 * i
def LND_GEN_CTL.TYPE (i : Nat) : Fld := ⟨0x200200 + 0x10 * i, 31, 28⟩
def LND_GEN_CTL.PHLOCK (i : Nat) : Fld := ⟨0x200200 + 0x10 * i, 8, 8⟩
def LND_GEN_CTL.BUSY (i : Nat) : Fld := ⟨0x200200 + 0x10 * i, 0, 0⟩
/-- Offset of `LND_GENn_FREQ`. -/
def LND_GEN_FREQ.adr (i : Nat) : Nat := 0x200204 + 0x10 * i
def LND_GEN_FREQ.FREQ (i : Nat) : Fld := ⟨0x200204 + 0x10 * i, 23, 0⟩
/-- Offset of `LND_GENn_LEVEL`. -/
def LND_GEN_LEVEL.adr (i : Nat) : Nat := 0x200208 + 0x10 * i
def LND_GEN_LEVEL.LEVEL (i : Nat) : Fld := ⟨0x200208 + 0x10 * i, 15, 0⟩
/-- Offset of `LND_GENn_SEED`. -/
def LND_GEN_SEED.adr (i : Nat) : Nat := 0x20020c + 0x10 * i
def LND_GEN_SEED.SEED (i : Nat) : Fld := ⟨0x20020c + 0x10 * i, 31, 0⟩
/-- Offset of `LND_RT_CFG[i]`. -/
def LND_RT_CFG.adr (i : Nat) : Nat := 0x210000 + 0x10 * i
def LND_RT_CFG.EN (i : Nat) : Fld := ⟨0x210000 + 0x10 * i, 31, 31⟩
def LND_RT_CFG.SINK (i : Nat) : Fld := ⟨0x210000 + 0x10 * i, 30, 16⟩
def LND_RT_CFG.SRC (i : Nat) : Fld := ⟨0x210000 + 0x10 * i, 14, 0⟩
/-- Offset of `LND_RT_STAT[i]`. -/
def LND_RT_STAT.adr (i : Nat) : Nat := 0x210004 + 0x10 * i
def LND_RT_STAT.KERF (i : Nat) : Fld := ⟨0x210004 + 0x10 * i, 31, 31⟩
def LND_RT_STAT.QUEUED (i : Nat) : Fld := ⟨0x210004 + 0x10 * i, 30, 30⟩
def LND_RT_STAT.FROM (i : Nat) : Fld := ⟨0x210004 + 0x10 * i, 14, 0⟩
/-- Offset of `LND_RT_APPL[i]`. -/
def LND_RT_APPL.adr (i : Nat) : Nat := 0x210008 + 0x10 * i
def LND_RT_APPL.SIDX (i : Nat) : Fld := ⟨0x210008 + 0x10 * i, 31, 0⟩
/-- Offset of `LND_MC[m]`. -/
def LND_MC.adr (i : Nat) : Nat := 0x250000 + 4 * i
def LND_MC.EN (i : Nat) : Fld := ⟨0x250000 + 4 * i, 31, 31⟩
def LND_MC.SIDE (i : Nat) : Fld := ⟨0x250000 + 4 * i, 30, 30⟩
def LND_MC.WIN (i : Nat) : Fld := ⟨0x250000 + 4 * i, 29, 28⟩
def LND_MC.HOLDT (i : Nat) : Fld := ⟨0x250000 + 4 * i, 27, 20⟩
def LND_MC.ADDR (i : Nat) : Fld := ⟨0x250000 + 4 * i, 14, 0⟩
/-- Offset of `LND_MR[m]`. -/
def LND_MR.adr (i : Nat) : Nat := 0x260000 + 8 * i
def LND_MR.PEAK (i : Nat) : Fld := ⟨0x260000 + 8 * i, 31, 16⟩
def LND_MR.RMS (i : Nat) : Fld := ⟨0x260000 + 8 * i, 15, 0⟩
def LND_MR.TPEAK (i : Nat) : Fld := ⟨0x260004 + 8 * i, 31, 16⟩
def LND_MR.TPHOLD (i : Nat) : Fld := ⟨0x260004 + 8 * i, 15, 0⟩
/-- Offset of `LND_SD[s]`. -/
def LND_SD.adr (i : Nat) : Nat := 0x280000 + 4 * i
def LND_SD.OWNED (i : Nat) : Fld := ⟨0x280000 + 4 * i, 31, 31⟩
def LND_SD.ENTRY (i : Nat) : Fld := ⟨0x280000 + 4 * i, 13, 0⟩
/-- Offset of `KRF_STAT`. -/
def KRF_STAT.adr : Nat := 0x300000
def KRF_STAT.QUEUED : Fld := ⟨0x300000, 28, 16⟩
def KRF_STAT.INFLIGHT : Fld := ⟨0x300000, 10, 0⟩
/-- Offset of `KRF_DEF`. -/
def KRF_DEF.adr : Nat := 0x300004
def KRF_DEF.CURVE : Fld := ⟨0x300004, 21, 20⟩
def KRF_DEF.SPAN : Fld := ⟨0x300004, 16, 0⟩
/-- Offset of `KRF_TWIN`. -/
def KRF_TWIN.adr : Nat := 0x300008
def KRF_TWIN.ENG : Fld := ⟨0x300008, 15, 0⟩
/-- Offset of `SCN_STAT`. -/
def SCN_STAT.adr : Nat := 0x300080
def SCN_STAT.STATE : Fld := ⟨0x300080, 31, 29⟩
def SCN_STAT.BUF : Fld := ⟨0x300080, 21, 16⟩
def SCN_STAT.SCHED : Fld := ⟨0x300080, 10, 0⟩
/-- Offset of `SCN_DEF`. -/
def SCN_DEF.adr : Nat := 0x300084
def SCN_DEF.LOCAL : Fld := ⟨0x300084, 0, 0⟩
/-- Offset of `SCN_LAST_LO`. -/
def SCN_LAST_LO.adr : Nat := 0x300088
def SCN_LAST_LO.VALUE : Fld := ⟨0x300088, 31, 0⟩
/-- Offset of `SCN_LAST_HI`. -/
def SCN_LAST_HI.adr : Nat := 0x30008c
def SCN_LAST_HI.VALUE : Fld := ⟨0x30008c, 31, 0⟩
/-- Offset of `SCN_LAST_INFO`. -/
def SCN_LAST_INFO.adr : Nat := 0x300090
def SCN_LAST_INFO.LATE : Fld := ⟨0x300090, 31, 31⟩
def SCN_LAST_INFO.ROUNDED : Fld := ⟨0x300090, 30, 30⟩
def SCN_LAST_INFO.PARTIAL : Fld := ⟨0x300090, 29, 29⟩
def SCN_LAST_INFO.REFUSED : Fld := ⟨0x300090, 16, 0⟩
/-- Offset of `SCN_LAST_BAD`. -/
def SCN_LAST_BAD.adr : Nat := 0x300094
def SCN_LAST_BAD.FIRST : Fld := ⟨0x300094, 15, 0⟩
/-- Offset of `KRF_LEVEL`. -/
def KRF_LEVEL.adr : Nat := 0x3000fc
def KRF_LEVEL.BASIC_RESET : Fld := ⟨0x3000fc, 11, 8⟩
def KRF_LEVEL.XMODE : Fld := ⟨0x3000fc, 3, 0⟩
/-- Offset of `KRF_DEF`. -/
def KRF_XPDEF.adr : Nat := 0x300100
def KRF_XPDEF.CURVE : Fld := ⟨0x300100, 21, 20⟩
def KRF_XPDEF.SPAN : Fld := ⟨0x300100, 16, 0⟩
/-- Offset of `KRF_TDEF`. -/
def KRF_TDEF.adr : Nat := 0x300104
def KRF_TDEF.CURVE : Fld := ⟨0x300104, 21, 20⟩
def KRF_TDEF.SPAN : Fld := ⟨0x300104, 16, 0⟩
/-- Offset of `KRF_QMAX`. -/
def KRF_QMAX.adr : Nat := 0x300108
def KRF_QMAX.CLR : Fld := ⟨0x300108, 31, 31⟩
def KRF_QMAX.MAX : Fld := ⟨0x300108, 30, 0⟩
/-- Offset of `KRF_QUEUED_CNT`. -/
def KRF_QUEUED_CNT.adr : Nat := 0x300110
def KRF_QUEUED_CNT.COUNT : Fld := ⟨0x300110, 31, 0⟩
/-- Offset of `KRF_HELD_CNT`. -/
def KRF_HELD_CNT.adr : Nat := 0x300114
def KRF_HELD_CNT.COUNT : Fld := ⟨0x300114, 31, 0⟩
/-- Offset of `KRF_QFULL_CNT`. -/
def KRF_QFULL_CNT.adr : Nat := 0x300118
def KRF_QFULL_CNT.COUNT : Fld := ⟨0x300118, 31, 0⟩
/-- Offset of `KRF_PEG`. -/
def KRF_PEG.adr : Nat := 0x30011c
def KRF_PEG.PEG : Fld := ⟨0x30011c, 31, 0⟩
/-- Offset of `SCN_XDEF`. -/
def SCN_XDEF.adr : Nat := 0x300200
def SCN_XDEF.SYS : Fld := ⟨0x300200, 1, 1⟩
def SCN_XDEF.LOCAL : Fld := ⟨0x300200, 0, 0⟩
/-- Offset of `SCN_LATE_CNT`. -/
def SCN_LATE_CNT.adr : Nat := 0x300210
def SCN_LATE_CNT.COUNT : Fld := ⟨0x300210, 31, 0⟩
/-- Offset of `SCN_REJ_CNT`. -/
def SCN_REJ_CNT.adr : Nat := 0x300214
def SCN_REJ_CNT.COUNT : Fld := ⟨0x300214, 31, 0⟩
/-- Offset of `SCN_PARTIAL_CNT`. -/
def SCN_PARTIAL_CNT.adr : Nat := 0x300218
def SCN_PARTIAL_CNT.COUNT : Fld := ⟨0x300218, 31, 0⟩
/-- Offset of `SCN_PEG`. -/
def SCN_PEG.adr : Nat := 0x30021c
def SCN_PEG.PEG : Fld := ⟨0x30021c, 31, 0⟩
/-- Offset of `SCN_BUFn`. -/
def SCN_BUF.adr (i : Nat) : Nat := 0x301000 + 0x10 * i
def SCN_BUF.BASE_LO (i : Nat) : Fld := ⟨0x301000 + 0x10 * i, 31, 0⟩
def SCN_BUF.BASE_HI (i : Nat) : Fld := ⟨0x301004 + 0x10 * i, 7, 0⟩
def SCN_BUF.CAP (i : Nat) : Fld := ⟨0x301008 + 0x10 * i, 16, 0⟩
def SCN_BUF.STATE (i : Nat) : Fld := ⟨0x30100c + 0x10 * i, 31, 29⟩
def SCN_BUF.CNT (i : Nat) : Fld := ⟨0x30100c + 0x10 * i, 16, 0⟩
/-- Offset of `OUT_STAT`. -/
def OUT_STAT.adr : Nat := 0x380000
def OUT_STAT.REDUCING : Fld := ⟨0x380000, 26, 16⟩
def OUT_STAT.LIMITERS : Fld := ⟨0x380000, 10, 0⟩
/-- Offset of `OUT_DEF`. -/
def OUT_DEF.adr : Nat := 0x380004
def OUT_DEF.LA : Fld := ⟨0x380004, 22, 16⟩
def OUT_DEF.REL : Fld := ⟨0x380004, 10, 0⟩
/-- Offset of `OUT_GRSEQ`. -/
def OUT_GRSEQ.adr : Nat := 0x380008
def OUT_GRSEQ.VALUE : Fld := ⟨0x380008, 31, 0⟩
/-- Offset of `ST_PATHn`. -/
def ST_PATH.adr (i : Nat) : Nat := 0x380080 + 4 * i
def ST_PATH.EN (i : Nat) : Fld := ⟨0x380080 + 4 * i, 31, 31⟩
def ST_PATH.MUTE (i : Nat) : Fld := ⟨0x380080 + 4 * i, 30, 30⟩
def ST_PATH.HPF (i : Nat) : Fld := ⟨0x380080 + 4 * i, 29, 29⟩
def ST_PATH.DEST (i : Nat) : Fld := ⟨0x380080 + 4 * i, 28, 18⟩
def ST_PATH.SRC (i : Nat) : Fld := ⟨0x380080 + 4 * i, 17, 8⟩
def ST_PATH.GAIN (i : Nat) : Fld := ⟨0x380080 + 4 * i, 7, 0⟩
/-- Offset of `ST_STAT`. -/
def ST_STAT.adr : Nat := 0x3800c0
def ST_STAT.ASYNC : Fld := ⟨0x3800c0, 31, 16⟩
def ST_STAT.RUN : Fld := ⟨0x3800c0, 15, 0⟩
/-- Offset of `OUT_LEVEL`. -/
def OUT_LEVEL.adr : Nat := 0x3800fc
def OUT_LEVEL.BASIC_RESET : Fld := ⟨0x3800fc, 11, 8⟩
def OUT_LEVEL.XMODE : Fld := ⟨0x3800fc, 3, 0⟩
/-- Offset of `OUT_XMUTE`. -/
def OUT_XMUTE.adr : Nat := 0x380100
def OUT_XMUTE.SVC : Fld := ⟨0x380100, 0, 0⟩
/-- Offset of `OUT_REFUSE`. -/
def OUT_REFUSE.adr : Nat := 0x380104
def OUT_REFUSE.TABLE : Fld := ⟨0x380104, 31, 30⟩
def OUT_REFUSE.CAUSE : Fld := ⟨0x380104, 27, 24⟩
def OUT_REFUSE.INDEX : Fld := ⟨0x380104, 15, 0⟩
/-- Offset of `OUT_REFUSE_CNT`. -/
def OUT_REFUSE_CNT.adr : Nat := 0x380110
def OUT_REFUSE_CNT.COUNT : Fld := ⟨0x380110, 31, 0⟩
/-- Offset of `OUT_PEG`. -/
def OUT_PEG.adr : Nat := 0x380118
def OUT_PEG.PEG : Fld := ⟨0x380118, 31, 0⟩
/-- Offset of `ST_PATHn`. -/
def ST_XPATH.adr (i : Nat) : Nat := 0x380400 + 4 * i
def ST_XPATH.EN (i : Nat) : Fld := ⟨0x380400 + 4 * i, 31, 31⟩
def ST_XPATH.MUTE (i : Nat) : Fld := ⟨0x380400 + 4 * i, 30, 30⟩
def ST_XPATH.HPF (i : Nat) : Fld := ⟨0x380400 + 4 * i, 29, 29⟩
def ST_XPATH.DEST (i : Nat) : Fld := ⟨0x380400 + 4 * i, 28, 18⟩
def ST_XPATH.SRC (i : Nat) : Fld := ⟨0x380400 + 4 * i, 17, 8⟩
def ST_XPATH.GAIN (i : Nat) : Fld := ⟨0x380400 + 4 * i, 7, 0⟩
/-- Offset of `ST_XRAMP`. -/
def ST_XRAMP.adr : Nat := 0x380440
def ST_XRAMP.CURVE : Fld := ⟨0x380440, 21, 20⟩
def ST_XRAMP.SPAN : Fld := ⟨0x380440, 16, 0⟩
/-- Offset of `ST_SAT`. -/
def ST_SAT.adr (i : Nat) : Nat := 0x380480 + 4 * i
def ST_SAT.COUNT (i : Nat) : Fld := ⟨0x380480 + 4 * i, 31, 0⟩
/-- Offset of `ST_PEG`. -/
def ST_PEG.adr : Nat := 0x3804c0
def ST_PEG.PEG : Fld := ⟨0x3804c0, 31, 0⟩
/-- Offset of `OUT_LIMk`. -/
def OUT_LIM.adr (i : Nat) : Nat := 0x390000 + 0x10 * i
def OUT_LIM.EN (i : Nat) : Fld := ⟨0x390000 + 0x10 * i, 31, 31⟩
def OUT_LIM.SINK (i : Nat) : Fld := ⟨0x390000 + 0x10 * i, 30, 16⟩
def OUT_LIM.LA (i : Nat) : Fld := ⟨0x390000 + 0x10 * i, 14, 8⟩
def OUT_LIM.CEIL (i : Nat) : Fld := ⟨0x390000 + 0x10 * i, 7, 0⟩
def OUT_LIM.LINKED (i : Nat) : Fld := ⟨0x390004 + 0x10 * i, 31, 31⟩
def OUT_LIM.LEAD (i : Nat) : Fld := ⟨0x390004 + 0x10 * i, 25, 16⟩
def OUT_LIM.REL (i : Nat) : Fld := ⟨0x390004 + 0x10 * i, 10, 0⟩
/-- Offset of `OUT_LIMSTk`. -/
def OUT_LIMST.adr (i : Nat) : Nat := 0x394000 + 4 * i
def OUT_LIMST.TP (i : Nat) : Fld := ⟨0x394000 + 4 * i, 31, 31⟩
def OUT_LIMST.ACTIVE (i : Nat) : Fld := ⟨0x394000 + 4 * i, 30, 30⟩
def OUT_LIMST.GR (i : Nat) : Fld := ⟨0x394000 + 4 * i, 15, 0⟩
/-- Offset of `OUT_SATCNT`. -/
def OUT_SATCNT.adr (i : Nat) : Nat := 0x3a0000 + 4 * i
def OUT_SATCNT.COUNT (i : Nat) : Fld := ⟨0x3a0000 + 4 * i, 31, 0⟩
/-- Offset of `OUT_SATPEG`. -/
def OUT_SATPEG.adr (i : Nat) : Nat := 0x3aa000 + 4 * i
def OUT_SATPEG.PEG (i : Nat) : Fld := ⟨0x3aa000 + 4 * i, 31, 0⟩
/-- Offset of `TDMn_CTL`. -/
def TDM_CTL.adr (i : Nat) : Nat := 0x400000 + 0x1000 * i
def TDM_CTL.EN (i : Nat) : Fld := ⟨0x400000 + 0x1000 * i, 31, 31⟩
def TDM_CTL.FMT (i : Nat) : Fld := ⟨0x400000 + 0x1000 * i, 30, 29⟩
def TDM_CTL.SLOTSM1 (i : Nat) : Fld := ⟨0x400000 + 0x1000 * i, 28, 24⟩
def TDM_CTL.WIDTH (i : Nat) : Fld := ⟨0x400000 + 0x1000 * i, 23, 22⟩
/-- Offset of `TDMn_RXMASK`. -/
def TDM_RXMASK.adr (i : Nat) : Nat := 0x400004 + 0x1000 * i
def TDM_RXMASK.MASK (i : Nat) : Fld := ⟨0x400004 + 0x1000 * i, 31, 0⟩
/-- Offset of `TDMn_TXMASK`. -/
def TDM_TXMASK.adr (i : Nat) : Nat := 0x400008 + 0x1000 * i
def TDM_TXMASK.MASK (i : Nat) : Fld := ⟨0x400008 + 0x1000 * i, 31, 0⟩
/-- Offset of `TDMn_SYNC`. -/
def TDM_SYNC.adr (i : Nat) : Nat := 0x40000c + 0x1000 * i
def TDM_SYNC.CONFIRM (i : Nat) : Fld := ⟨0x40000c + 0x1000 * i, 0, 0⟩
/-- Offset of `TDMn_STAT`. -/
def TDM_STAT.adr (i : Nat) : Nat := 0x400010 + 0x1000 * i
def TDM_STAT.STATE (i : Nat) : Fld := ⟨0x400010 + 0x1000 * i, 31, 28⟩
def TDM_STAT.FAULT (i : Nat) : Fld := ⟨0x400010 + 0x1000 * i, 27, 24⟩
def TDM_STAT.SYNC (i : Nat) : Fld := ⟨0x400010 + 0x1000 * i, 23, 22⟩
def TDM_STAT.NEXT (i : Nat) : Fld := ⟨0x400010 + 0x1000 * i, 21, 21⟩
def TDM_STAT.PHASE (i : Nat) : Fld := ⟨0x400010 + 0x1000 * i, 15, 0⟩
/-- Offset of `TDMn_MEAS`. -/
def TDM_MEAS.adr (i : Nat) : Nat := 0x400014 + 0x1000 * i
def TDM_MEAS.FRATE (i : Nat) : Fld := ⟨0x400014 + 0x1000 * i, 31, 12⟩
def TDM_MEAS.FLEN (i : Nat) : Fld := ⟨0x400014 + 0x1000 * i, 10, 0⟩
/-- Offset of `TDMn_MASK_APPLIED`. -/
def TDM_MASK_APPLIED.adr (i : Nat) : Nat := 0x400018 + 0x1000 * i
def TDM_MASK_APPLIED.FIDX (i : Nat) : Fld := ⟨0x400018 + 0x1000 * i, 31, 0⟩
/-- Offset of `TDM_LEVEL`. -/
def TDM_LEVEL.adr (i : Nat) : Nat := 0x4000fc + 0x1000 * i
def TDM_LEVEL.BASIC_RESET (i : Nat) : Fld := ⟨0x4000fc + 0x1000 * i, 11, 8⟩
def TDM_LEVEL.XMODE (i : Nat) : Fld := ⟨0x4000fc + 0x1000 * i, 3, 0⟩
/-- Offset of `TDMn_CTL`. -/
def TDM_XCTL.adr (i : Nat) : Nat := 0x400100 + 0x1000 * i
def TDM_XCTL.EN (i : Nat) : Fld := ⟨0x400100 + 0x1000 * i, 31, 31⟩
def TDM_XCTL.FMT (i : Nat) : Fld := ⟨0x400100 + 0x1000 * i, 30, 29⟩
def TDM_XCTL.SLOTSM1 (i : Nat) : Fld := ⟨0x400100 + 0x1000 * i, 28, 24⟩
def TDM_XCTL.WIDTH (i : Nat) : Fld := ⟨0x400100 + 0x1000 * i, 23, 22⟩
/-- Offset of `TDMn_RXMASK`. -/
def TDM_XRXMASK.adr (i : Nat) : Nat := 0x400104 + 0x1000 * i
def TDM_XRXMASK.MASK (i : Nat) : Fld := ⟨0x400104 + 0x1000 * i, 31, 0⟩
/-- Offset of `TDMn_TXMASK`. -/
def TDM_XTXMASK.adr (i : Nat) : Nat := 0x400108 + 0x1000 * i
def TDM_XTXMASK.MASK (i : Nat) : Fld := ⟨0x400108 + 0x1000 * i, 31, 0⟩
/-- Offset of `TDMn_XCFG`. -/
def TDM_XCFG.adr (i : Nat) : Nat := 0x40010c + 0x1000 * i
def TDM_XCFG.FLEN (i : Nat) : Fld := ⟨0x40010c + 0x1000 * i, 22, 12⟩
def TDM_XCFG.AUTOCONF (i : Nat) : Fld := ⟨0x40010c + 0x1000 * i, 11, 11⟩
def TDM_XCFG.DELAY (i : Nat) : Fld := ⟨0x40010c + 0x1000 * i, 10, 10⟩
def TDM_XCFG.BINV (i : Nat) : Fld := ⟨0x40010c + 0x1000 * i, 9, 9⟩
def TDM_XCFG.FSINV (i : Nat) : Fld := ⟨0x40010c + 0x1000 * i, 8, 8⟩
def TDM_XCFG.SDOZ (i : Nat) : Fld := ⟨0x40010c + 0x1000 * i, 7, 7⟩
/-- Offset of `TDM_TS_LO`. -/
def TDM_TS_LO.adr (i : Nat) : Nat := 0x400110 + 0x1000 * i
def TDM_TS_LO.VALUE (i : Nat) : Fld := ⟨0x400110 + 0x1000 * i, 31, 0⟩
/-- Offset of `TDM_TS_HI`. -/
def TDM_TS_HI.adr (i : Nat) : Nat := 0x400114 + 0x1000 * i
def TDM_TS_HI.VALUE (i : Nat) : Fld := ⟨0x400114 + 0x1000 * i, 31, 0⟩
/-- Offset of `TDMn_TS_INFO`. -/
def TDM_TS_INFO.adr (i : Nat) : Nat := 0x400118 + 0x1000 * i
def TDM_TS_INFO.PHASE (i : Nat) : Fld := ⟨0x400118 + 0x1000 * i, 31, 16⟩
def TDM_TS_INFO.FRAMES (i : Nat) : Fld := ⟨0x400118 + 0x1000 * i, 9, 0⟩
/-- Offset of `TDM_TS_FIDX`. -/
def TDM_TS_FIDX.adr (i : Nat) : Nat := 0x40011c + 0x1000 * i
def TDM_TS_FIDX.VALUE (i : Nat) : Fld := ⟨0x40011c + 0x1000 * i, 31, 0⟩
/-- Offset of `TDM_FAULT_CNT`. -/
def TDM_FAULT_CNT.adr (i : Nat) : Nat := 0x400120 + 0x1000 * i
def TDM_FAULT_CNT.COUNT (i : Nat) : Fld := ⟨0x400120 + 0x1000 * i, 31, 0⟩
/-- Offset of `TDM_SLIP_CNT`. -/
def TDM_SLIP_CNT.adr (i : Nat) : Nat := 0x400124 + 0x1000 * i
def TDM_SLIP_CNT.COUNT (i : Nat) : Fld := ⟨0x400124 + 0x1000 * i, 31, 0⟩
/-- Offset of `TDM_SYNCLOSS_CNT`. -/
def TDM_SYNCLOSS_CNT.adr (i : Nat) : Nat := 0x400128 + 0x1000 * i
def TDM_SYNCLOSS_CNT.COUNT (i : Nat) : Fld := ⟨0x400128 + 0x1000 * i, 31, 0⟩
/-- Offset of `TDM_PEG`. -/
def TDM_PEG.adr (i : Nat) : Nat := 0x40012c + 0x1000 * i
def TDM_PEG.PEG (i : Nat) : Fld := ⟨0x40012c + 0x1000 * i, 31, 0⟩
/-- Offset of `BOOM_CFGb`. -/
def BOOM_CFG.adr (i : Nat) : Nat := 0x440000 + 4 * i
def BOOM_CFG.EN (i : Nat) : Fld := ⟨0x440000 + 4 * i, 31, 31⟩
def BOOM_CFG.DELAY (i : Nat) : Fld := ⟨0x440000 + 4 * i, 9, 0⟩
/-- Offset of `BOOM_PORTS`. -/
def BOOM_PORTS.adr (i : Nat) : Nat := 0x440040 + 4 * i
def BOOM_PORTS.VALUE (i : Nat) : Fld := ⟨0x440040 + 4 * i, 31, 0⟩
/-- Offset of `BOOM_STAT`. -/
def BOOM_STAT.adr : Nat := 0x440080
def BOOM_STAT.INCIDENT : Fld := ⟨0x440080, 31, 16⟩
def BOOM_STAT.RUN : Fld := ⟨0x440080, 15, 0⟩
/-- Offset of `BOOM_LEVEL`. -/
def BOOM_LEVEL.adr : Nat := 0x4400fc
def BOOM_LEVEL.BASIC_RESET : Fld := ⟨0x4400fc, 11, 8⟩
def BOOM_LEVEL.XMODE : Fld := ⟨0x4400fc, 3, 0⟩
/-- Offset of `BOOM_CFGb`. -/
def BOOM_XCFG.adr (i : Nat) : Nat := 0x440100 + 4 * i
def BOOM_XCFG.EN (i : Nat) : Fld := ⟨0x440100 + 4 * i, 31, 31⟩
def BOOM_XCFG.DELAY (i : Nat) : Fld := ⟨0x440100 + 4 * i, 9, 0⟩
/-- Offset of `BOOM_XPOOL_BASE`. -/
def BOOM_XPOOL_BASE.adr : Nat := 0x440200
def BOOM_XPOOL_BASE.VALUE : Fld := ⟨0x440200, 31, 0⟩
/-- Offset of `BOOM_XPOOL_LEN`. -/
def BOOM_XPOOL_LEN.adr : Nat := 0x440204
def BOOM_XPOOL_LEN.VALUE : Fld := ⟨0x440204, 31, 0⟩
/-- Offset of `BOOM_XMEM[b][m]`. -/
def BOOM_XMEM.adr (i : Nat) (j : Nat) : Nat := 0x441000 + 0x40 * i + 4 * j
def BOOM_XMEM.KIND (i : Nat) (j : Nat) : Fld := ⟨0x441000 + 0x40 * i + 4 * j, 31, 30⟩
def BOOM_XMEM.INCIDENT (i : Nat) (j : Nat) : Fld := ⟨0x441000 + 0x40 * i + 4 * j, 29, 29⟩
def BOOM_XMEM.ID (i : Nat) (j : Nat) : Fld := ⟨0x441000 + 0x40 * i + 4 * j, 11, 0⟩
/-- Offset of `BOOM_UNDER_CNT`. -/
def BOOM_UNDER_CNT.adr (i : Nat) (j : Nat) : Nat := 0x442000 + 0x40 * i + 4 * j
def BOOM_UNDER_CNT.COUNT (i : Nat) (j : Nat) : Fld := ⟨0x442000 + 0x40 * i + 4 * j, 31, 0⟩
/-- Offset of `BOOM_OVER_CNT`. -/
def BOOM_OVER_CNT.adr (i : Nat) (j : Nat) : Nat := 0x442400 + 0x40 * i + 4 * j
def BOOM_OVER_CNT.COUNT (i : Nat) (j : Nat) : Fld := ⟨0x442400 + 0x40 * i + 4 * j, 31, 0⟩
/-- Offset of `BOOM_DROP_CNT`. -/
def BOOM_DROP_CNT.adr (i : Nat) (j : Nat) : Nat := 0x442800 + 0x40 * i + 4 * j
def BOOM_DROP_CNT.COUNT (i : Nat) (j : Nat) : Fld := ⟨0x442800 + 0x40 * i + 4 * j, 31, 0⟩
/-- Offset of `BOOM_UPEG`. -/
def BOOM_UPEG.adr (i : Nat) : Nat := 0x442c00 + 4 * i
def BOOM_UPEG.PEG (i : Nat) : Fld := ⟨0x442c00 + 4 * i, 31, 0⟩
/-- Offset of `BOOM_OPEG`. -/
def BOOM_OPEG.adr (i : Nat) : Nat := 0x442c40 + 4 * i
def BOOM_OPEG.PEG (i : Nat) : Fld := ⟨0x442c40 + 4 * i, 31, 0⟩
/-- Offset of `BOOM_DPEG`. -/
def BOOM_DPEG.adr (i : Nat) : Nat := 0x442c80 + 4 * i
def BOOM_DPEG.PEG (i : Nat) : Fld := ⟨0x442c80 + 4 * i, 31, 0⟩
/-- Offset of `ASRC_BPORTp`. -/
def ASRC_BPORT.adr (i : Nat) : Nat := 0x500000 + 4 * i
def ASRC_BPORT.EN (i : Nat) : Fld := ⟨0x500000 + 4 * i, 31, 31⟩
def ASRC_BPORT.GROUP (i : Nat) : Fld := ⟨0x500000 + 4 * i, 5, 0⟩
/-- Offset of `ASRC_BCFG`. -/
def ASRC_BCFG.adr : Nat := 0x500080
def ASRC_BCFG.MODE : Fld := ⟨0x500080, 0, 0⟩
/-- Offset of `ASRC_STAT`. -/
def ASRC_STAT.adr : Nat := 0x500084
def ASRC_STAT.LOCKED : Fld := ⟨0x500084, 22, 16⟩
def ASRC_STAT.CHANNELS : Fld := ⟨0x500084, 10, 0⟩
/-- Offset of `ASRC_LEVEL`. -/
def ASRC_LEVEL.adr : Nat := 0x5000fc
def ASRC_LEVEL.BASIC_RESET : Fld := ⟨0x5000fc, 11, 8⟩
def ASRC_LEVEL.XMODE : Fld := ⟨0x5000fc, 3, 0⟩
/-- Offset of `ASRC_XGRPg`. -/
def ASRC_XGRP.adr (i : Nat) : Nat := 0x500100 + 8 * i
def ASRC_XGRP.EN (i : Nat) : Fld := ⟨0x500100 + 8 * i, 31, 31⟩
def ASRC_XGRP.MODE (i : Nat) : Fld := ⟨0x500100 + 8 * i, 30, 30⟩
def ASRC_XGRP.KIND (i : Nat) : Fld := ⟨0x500100 + 8 * i, 29, 28⟩
def ASRC_XGRP.PILOT (i : Nat) : Fld := ⟨0x500100 + 8 * i, 11, 0⟩
def ASRC_XGRP.HOLDMAX (i : Nat) : Fld := ⟨0x500104 + 8 * i, 15, 0⟩
/-- Offset of `ASRC_GSTATg`. -/
def ASRC_GSTAT.adr (i : Nat) : Nat := 0x500400 + 4 * i
def ASRC_GSTAT.STATE (i : Nat) : Fld := ⟨0x500400 + 4 * i, 31, 28⟩
def ASRC_GSTAT.PKIND (i : Nat) : Fld := ⟨0x500400 + 4 * i, 27, 26⟩
def ASRC_GSTAT.PID (i : Nat) : Fld := ⟨0x500400 + 4 * i, 11, 0⟩
/-- Offset of `ASRC_RATIOg`. -/
def ASRC_RATIO.adr (i : Nat) : Nat := 0x500500 + 4 * i
def ASRC_RATIO.RATIO (i : Nat) : Fld := ⟨0x500500 + 4 * i, 31, 0⟩
/-- Offset of `ASRC_STEP_CNT`. -/
def ASRC_STEP_CNT.adr (i : Nat) : Nat := 0x500600 + 4 * i
def ASRC_STEP_CNT.COUNT (i : Nat) : Fld := ⟨0x500600 + 4 * i, 31, 0⟩
/-- Offset of `ASRC_LOSS_CNT`. -/
def ASRC_LOSS_CNT.adr (i : Nat) : Nat := 0x500700 + 4 * i
def ASRC_LOSS_CNT.COUNT (i : Nat) : Fld := ⟨0x500700 + 4 * i, 31, 0⟩
/-- Offset of `ASRC_STRAY_CNT`. -/
def ASRC_STRAY_CNT.adr (i : Nat) : Nat := 0x500800 + 4 * i
def ASRC_STRAY_CNT.COUNT (i : Nat) : Fld := ⟨0x500800 + 4 * i, 31, 0⟩
/-- Offset of `ASRC_SPEG`. -/
def ASRC_SPEG.adr (i : Nat) : Nat := 0x500900 + 4 * i
def ASRC_SPEG.PEG (i : Nat) : Fld := ⟨0x500900 + 4 * i, 31, 0⟩
/-- Offset of `ASRC_LPEG`. -/
def ASRC_LPEG.adr (i : Nat) : Nat := 0x500908 + 4 * i
def ASRC_LPEG.PEG (i : Nat) : Fld := ⟨0x500908 + 4 * i, 31, 0⟩
/-- Offset of `ASRC_YPEG`. -/
def ASRC_YPEG.adr (i : Nat) : Nat := 0x500910 + 4 * i
def ASRC_YPEG.PEG (i : Nat) : Fld := ⟨0x500910 + 4 * i, 31, 0⟩
/-- Offset of `ASRC_XCHc`. -/
def ASRC_XCH.adr (i : Nat) : Nat := 0x501000 + 4 * i
def ASRC_XCH.EN (i : Nat) : Fld := ⟨0x501000 + 4 * i, 31, 31⟩
def ASRC_XCH.DIR (i : Nat) : Fld := ⟨0x501000 + 4 * i, 30, 30⟩
def ASRC_XCH.GROUP (i : Nat) : Fld := ⟨0x501000 + 4 * i, 29, 24⟩
def ASRC_XCH.KIND (i : Nat) : Fld := ⟨0x501000 + 4 * i, 23, 22⟩
def ASRC_XCH.ID (i : Nat) : Fld := ⟨0x501000 + 4 * i, 21, 10⟩
def ASRC_XCH.SLOT (i : Nat) : Fld := ⟨0x501000 + 4 * i, 5, 0⟩
/-- Offset of `RAFT_CTL`. -/
def RAFT_CTL.adr : Nat := 0x600000
def RAFT_CTL.EN : Fld := ⟨0x600000, 31, 31⟩
def RAFT_CTL.MASTER : Fld := ⟨0x600000, 30, 30⟩
/-- Offset of `RAFT_STAT`. -/
def RAFT_STAT.adr : Nat := 0x600004
def RAFT_STAT.STATE : Fld := ⟨0x600004, 31, 28⟩
def RAFT_STAT.ORIENT : Fld := ⟨0x600004, 27, 27⟩
def RAFT_STAT.MV : Fld := ⟨0x600004, 26, 26⟩
def RAFT_STAT.RINDEX : Fld := ⟨0x600004, 25, 20⟩
def RAFT_STAT.N : Fld := ⟨0x600004, 19, 13⟩
def RAFT_STAT.SUM : Fld := ⟨0x600004, 12, 0⟩
/-- Offset of `RAFT_NODE`. -/
def RAFT_NODE.adr : Nat := 0x600008
def RAFT_NODE.NODE : Fld := ⟨0x600008, 13, 0⟩
/-- Offset of `RAFT_LEVEL`. -/
def RAFT_LEVEL.adr : Nat := 0x6000fc
def RAFT_LEVEL.BASIC_RESET : Fld := ⟨0x6000fc, 11, 8⟩
def RAFT_LEVEL.XMODE : Fld := ⟨0x6000fc, 3, 0⟩
/-- Offset of `RAFT_XCFG`. -/
def RAFT_XCFG.adr : Nat := 0x600100
def RAFT_XCFG.GUARD : Fld := ⟨0x600100, 31, 24⟩
def RAFT_XCFG.MAXDLY : Fld := ⟨0x600100, 23, 14⟩
def RAFT_XCFG.WTR : Fld := ⟨0x600100, 13, 0⟩
/-- Offset of `RAFT_XTOK`. -/
def RAFT_XTOK.adr : Nat := 0x600104
def RAFT_XTOK.BTIMEOUT : Fld := ⟨0x600104, 31, 16⟩
/-- Offset of `RAFT_XNODE`. -/
def RAFT_XNODE.adr : Nat := 0x600108
def RAFT_XNODE.OVR : Fld := ⟨0x600108, 31, 31⟩
def RAFT_XNODE.NODE : Fld := ⟨0x600108, 13, 0⟩
/-- Offset of `RAFT_REFUSE`. -/
def RAFT_REFUSE.adr : Nat := 0x60010c
def RAFT_REFUSE.TABLE : Fld := ⟨0x60010c, 31, 30⟩
def RAFT_REFUSE.CAUSE : Fld := ⟨0x60010c, 27, 24⟩
def RAFT_REFUSE.INDEX : Fld := ⟨0x60010c, 15, 0⟩
/-- Offset of `RAFT_LINKE`. -/
def RAFT_LINKE.adr : Nat := 0x600110
def RAFT_LINKE.STATE : Fld := ⟨0x600110, 31, 28⟩
def RAFT_LINKE.CAUSE : Fld := ⟨0x600110, 27, 24⟩
def RAFT_LINKE.INV0 : Fld := ⟨0x600110, 23, 23⟩
def RAFT_LINKE.INV1 : Fld := ⟨0x600110, 22, 22⟩
def RAFT_LINKE.SWAP : Fld := ⟨0x600110, 21, 21⟩
def RAFT_LINKE.NSIDE : Fld := ⟨0x600110, 20, 20⟩
def RAFT_LINKE.T : Fld := ⟨0x600110, 15, 0⟩
/-- Offset of `RAFT_LINKW`. -/
def RAFT_LINKW.adr : Nat := 0x600114
def RAFT_LINKW.STATE : Fld := ⟨0x600114, 31, 28⟩
def RAFT_LINKW.CAUSE : Fld := ⟨0x600114, 27, 24⟩
def RAFT_LINKW.INV0 : Fld := ⟨0x600114, 23, 23⟩
def RAFT_LINKW.INV1 : Fld := ⟨0x600114, 22, 22⟩
def RAFT_LINKW.SWAP : Fld := ⟨0x600114, 21, 21⟩
def RAFT_LINKW.NSIDE : Fld := ⟨0x600114, 20, 20⟩
def RAFT_LINKW.T : Fld := ⟨0x600114, 15, 0⟩
/-- Offset of `RAFT_FCS_CNT`. -/
def RAFT_FCS_CNT.adr : Nat := 0x600120
def RAFT_FCS_CNT.COUNT : Fld := ⟨0x600120, 31, 0⟩
/-- Offset of `RAFT_CWERR_CNT`. -/
def RAFT_CWERR_CNT.adr : Nat := 0x600124
def RAFT_CWERR_CNT.COUNT : Fld := ⟨0x600124, 31, 0⟩
/-- Offset of `RAFT_RSAT_CNT`. -/
def RAFT_RSAT_CNT.adr : Nat := 0x600128
def RAFT_RSAT_CNT.COUNT : Fld := ⟨0x600128, 31, 0⟩
/-- Offset of `RAFT_WRAP_CNT`. -/
def RAFT_WRAP_CNT.adr : Nat := 0x60012c
def RAFT_WRAP_CNT.COUNT : Fld := ⟨0x60012c, 31, 0⟩
/-- Offset of `RAFT_TOKRTX_CNT`. -/
def RAFT_TOKRTX_CNT.adr : Nat := 0x600130
def RAFT_TOKRTX_CNT.COUNT : Fld := ⟨0x600130, 31, 0⟩
/-- Offset of `RAFT_CONFLICT_CNT`. -/
def RAFT_CONFLICT_CNT.adr : Nat := 0x600134
def RAFT_CONFLICT_CNT.COUNT : Fld := ⟨0x600134, 31, 0⟩
/-- Offset of `RAFT_MSGLOST_CNT`. -/
def RAFT_MSGLOST_CNT.adr : Nat := 0x600138
def RAFT_MSGLOST_CNT.COUNT : Fld := ⟨0x600138, 31, 0⟩
/-- Offset of `RAFT_PEG`. -/
def RAFT_PEG.adr : Nat := 0x60013c
def RAFT_PEG.PEG : Fld := ⟨0x60013c, 31, 0⟩
/-- Offset of `RAFT_HOP[r]`. -/
def RAFT_HOP.adr (i : Nat) : Nat := 0x600400 + 4 * i
def RAFT_HOP.VALID (i : Nat) : Fld := ⟨0x600400 + 4 * i, 31, 31⟩
def RAFT_HOP.POS (i : Nat) : Fld := ⟨0x600400 + 4 * i, 30, 25⟩
def RAFT_HOP.DHOP (i : Nat) : Fld := ⟨0x600400 + 4 * i, 23, 16⟩
def RAFT_HOP.T (i : Nat) : Fld := ⟨0x600400 + 4 * i, 15, 0⟩
/-- Offset of `RAFT_RLAT`. -/
def RAFT_RLAT.adr (i : Nat) : Nat := 0x601000 + 4 * i
def RAFT_RLAT.VALID (i : Nat) : Fld := ⟨0x601000 + 4 * i, 31, 31⟩
def RAFT_RLAT.SPLIT (i : Nat) : Fld := ⟨0x601000 + 4 * i, 30, 30⟩
def RAFT_RLAT.L (i : Nat) : Fld := ⟨0x601000 + 4 * i, 15, 0⟩
/-- Offset of `RAFT_DLAT`. -/
def RAFT_DLAT.adr (i : Nat) : Nat := 0x602000 + 4 * i
def RAFT_DLAT.VALID (i : Nat) : Fld := ⟨0x602000 + 4 * i, 31, 31⟩
def RAFT_DLAT.POS (i : Nat) : Fld := ⟨0x602000 + 4 * i, 30, 25⟩
def RAFT_DLAT.L (i : Nat) : Fld := ⟨0x602000 + 4 * i, 15, 0⟩
/-- Offset of `RAFT_XPROT`. -/
def RAFT_XPROT.adr (i : Nat) : Nat := 0x60a000 + 4 * i
def RAFT_XPROT.VALUE (i : Nat) : Fld := ⟨0x60a000 + 4 * i, 31, 0⟩
/-- Offset of `RAFT_SLOTE[k]`. -/
def RAFT_SLOTE.adr (i : Nat) : Nat := 0x610000 + 4 * i
def RAFT_SLOTE.OP (i : Nat) : Fld := ⟨0x610000 + 4 * i, 31, 29⟩
def RAFT_SLOTE.HEAD (i : Nat) : Fld := ⟨0x610000 + 4 * i, 28, 23⟩
def RAFT_SLOTE.CH (i : Nat) : Fld := ⟨0x610000 + 4 * i, 12, 0⟩
/-- Offset of `RAFT_SLOTW[k]`. -/
def RAFT_SLOTW.adr (i : Nat) : Nat := 0x630000 + 4 * i
def RAFT_SLOTW.OP (i : Nat) : Fld := ⟨0x630000 + 4 * i, 31, 29⟩
def RAFT_SLOTW.HEAD (i : Nat) : Fld := ⟨0x630000 + 4 * i, 28, 23⟩
def RAFT_SLOTW.CH (i : Nat) : Fld := ⟨0x630000 + 4 * i, 12, 0⟩
/-- Offset of `NET_CTL`. -/
def NET_CTL.adr : Nat := 0x700000
def NET_CTL.VALUE : Fld := ⟨0x700000, 15, 0⟩
/-- Offset of `NET_STAT`. -/
def NET_STAT.adr : Nat := 0x700004
def NET_STAT.RXF : Fld := ⟨0x700004, 31, 19⟩
def NET_STAT.TXF : Fld := ⟨0x700004, 18, 6⟩
def NET_STAT.UP : Fld := ⟨0x700004, 3, 0⟩
/-- Offset of `NET_DEF`. -/
def NET_DEF.adr : Nat := 0x700008
def NET_DEF.LOFF_US : Fld := ⟨0x700008, 31, 16⟩
def NET_DEF.PTIME : Fld := ⟨0x700008, 15, 13⟩
def NET_DEF.L16 : Fld := ⟨0x700008, 12, 12⟩
/-- Offset of `NET_LEVEL`. -/
def NET_LEVEL.adr : Nat := 0x7000fc
def NET_LEVEL.BASIC_RESET : Fld := ⟨0x7000fc, 11, 8⟩
def NET_LEVEL.XMODE : Fld := ⟨0x7000fc, 3, 0⟩
/-- Offset of `NET_REFUSE`. -/
def NET_REFUSE.adr : Nat := 0x700104
def NET_REFUSE.TABLE : Fld := ⟨0x700104, 31, 30⟩
def NET_REFUSE.CAUSE : Fld := ⟨0x700104, 27, 24⟩
def NET_REFUSE.INDEX : Fld := ⟨0x700104, 11, 0⟩
/-- Offset of `NET_XCLAIM`. -/
def NET_XCLAIM.adr : Nat := 0x700108
def NET_XCLAIM.ID : Fld := ⟨0x700108, 3, 0⟩
/-- Offset of `NET_XCQ`. -/
def NET_XCQ.adr : Nat := 0x70010c
def NET_XCQ.PORT : Fld := ⟨0x70010c, 15, 0⟩
/-- Offset of `NET_XJPOOL_BASE`. -/
def NET_XJPOOL_BASE.adr : Nat := 0x700110
def NET_XJPOOL_BASE.VALUE : Fld := ⟨0x700110, 31, 0⟩
/-- Offset of `NET_XJPOOL_LEN`. -/
def NET_XJPOOL_LEN.adr : Nat := 0x700114
def NET_XJPOOL_LEN.VALUE : Fld := ⟨0x700114, 31, 0⟩
/-- Offset of `NET_XJSDR_BASE`. -/
def NET_XJSDR_BASE.adr : Nat := 0x700118
def NET_XJSDR_BASE.VALUE : Fld := ⟨0x700118, 31, 0⟩
/-- Offset of `NET_XJSDR_LEN`. -/
def NET_XJSDR_LEN.adr : Nat := 0x70011c
def NET_XJSDR_LEN.VALUE : Fld := ⟨0x70011c, 31, 0⟩
/-- Offset of `NET_MACLO`. -/
def NET_MACLO.adr (i : Nat) : Nat := 0x700200 + 0x40 * i
def NET_MACLO.VALUE (i : Nat) : Fld := ⟨0x700200 + 0x40 * i, 31, 0⟩
/-- Offset of `NET_MACHI`. -/
def NET_MACHI.adr (i : Nat) : Nat := 0x700204 + 0x40 * i
def NET_MACHI.HI (i : Nat) : Fld := ⟨0x700204 + 0x40 * i, 15, 0⟩
/-- Offset of `NET_IP`. -/
def NET_IP.adr (i : Nat) : Nat := 0x700208 + 0x40 * i
def NET_IP.VALUE (i : Nat) : Fld := ⟨0x700208 + 0x40 * i, 31, 0⟩
/-- Offset of `NET_MASK`. -/
def NET_MASK.adr (i : Nat) : Nat := 0x70020c + 0x40 * i
def NET_MASK.VALUE (i : Nat) : Fld := ⟨0x70020c + 0x40 * i, 31, 0⟩
/-- Offset of `NET_GW`. -/
def NET_GW.adr (i : Nat) : Nat := 0x700210 + 0x40 * i
def NET_GW.VALUE (i : Nat) : Fld := ⟨0x700210 + 0x40 * i, 31, 0⟩
/-- Offset of `NET_MXCFG`. -/
def NET_MXCFG.adr (i : Nat) : Nat := 0x700214 + 0x40 * i
def NET_MXCFG.EN (i : Nat) : Fld := ⟨0x700214 + 0x40 * i, 31, 31⟩
def NET_MXCFG.SPEED (i : Nat) : Fld := ⟨0x700214 + 0x40 * i, 30, 30⟩
def NET_MXCFG.FEC (i : Nat) : Fld := ⟨0x700214 + 0x40 * i, 29, 28⟩
def NET_MXCFG.CVLAN (i : Nat) : Fld := ⟨0x700214 + 0x40 * i, 12, 12⟩
def NET_MXCFG.CVID (i : Nat) : Fld := ⟨0x700214 + 0x40 * i, 11, 0⟩
/-- Offset of `NET_RXFRM`. -/
def NET_RXFRM.adr (i : Nat) : Nat := 0x700220 + 0x40 * i
def NET_RXFRM.COUNT (i : Nat) : Fld := ⟨0x700220 + 0x40 * i, 31, 0⟩
/-- Offset of `NET_TXFRM`. -/
def NET_TXFRM.adr (i : Nat) : Nat := 0x700224 + 0x40 * i
def NET_TXFRM.COUNT (i : Nat) : Fld := ⟨0x700224 + 0x40 * i, 31, 0⟩
/-- Offset of `NET_RXFCS`. -/
def NET_RXFCS.adr (i : Nat) : Nat := 0x700228 + 0x40 * i
def NET_RXFCS.COUNT (i : Nat) : Fld := ⟨0x700228 + 0x40 * i, 31, 0⟩
/-- Offset of `NET_RXDROP`. -/
def NET_RXDROP.adr (i : Nat) : Nat := 0x70022c + 0x40 * i
def NET_RXDROP.COUNT (i : Nat) : Fld := ⟨0x70022c + 0x40 * i, 31, 0⟩
/-- Offset of `NET_CQDROP`. -/
def NET_CQDROP.adr (i : Nat) : Nat := 0x700230 + 0x40 * i
def NET_CQDROP.COUNT (i : Nat) : Fld := ⟨0x700230 + 0x40 * i, 31, 0⟩
/-- Offset of `NET_MPEG`. -/
def NET_MPEG.adr (i : Nat) : Nat := 0x700234 + 0x40 * i
def NET_MPEG.PEG (i : Nat) : Fld := ⟨0x700234 + 0x40 * i, 31, 0⟩
/-- Offset of `NET_IRQ_TIMEn`. -/
def NET_IRQ_TIME.adr (i : Nat) : Nat := 0x700400 + 0x20 * i
def NET_IRQ_TIME.VALID (i : Nat) : Fld := ⟨0x700400 + 0x20 * i, 31, 31⟩
def NET_IRQ_TIME.RXTAG (i : Nat) : Fld := ⟨0x700400 + 0x20 * i, 15, 0⟩
def NET_IRQ_TIME.W1 (i : Nat) : Fld := ⟨0x700404 + 0x20 * i, 31, 0⟩
def NET_IRQ_TIME.W2 (i : Nat) : Fld := ⟨0x700408 + 0x20 * i, 31, 0⟩
def NET_IRQ_TIME.W3 (i : Nat) : Fld := ⟨0x70040c + 0x20 * i, 31, 0⟩
def NET_IRQ_TIME.W4 (i : Nat) : Fld := ⟨0x700410 + 0x20 * i, 31, 0⟩
def NET_IRQ_TIME.W5 (i : Nat) : Fld := ⟨0x700414 + 0x20 * i, 31, 0⟩
/-- Offset of `NET_RXF[f]`. -/
def NET_RXF.adr (i : Nat) : Nat := 0x710000 + 0x20 * i
def NET_RXF.EN (i : Nat) : Fld := ⟨0x710000 + 0x20 * i, 31, 31⟩
def NET_RXF.MAC (i : Nat) : Fld := ⟨0x710000 + 0x20 * i, 30, 29⟩
def NET_RXF.L16 (i : Nat) : Fld := ⟨0x710000 + 0x20 * i, 28, 28⟩
def NET_RXF.UNLOCKED (i : Nat) : Fld := ⟨0x710000 + 0x20 * i, 27, 27⟩
def NET_RXF.RATE (i : Nat) : Fld := ⟨0x710000 + 0x20 * i, 26, 24⟩
def NET_RXF.CLAIM (i : Nat) : Fld := ⟨0x710000 + 0x20 * i, 23, 22⟩
def NET_RXF.CHM1 (i : Nat) : Fld := ⟨0x710000 + 0x20 * i, 21, 16⟩
def NET_RXF.SPP (i : Nat) : Fld := ⟨0x710000 + 0x20 * i, 15, 8⟩
def NET_RXF.DADDR (i : Nat) : Fld := ⟨0x710004 + 0x20 * i, 31, 0⟩
def NET_RXF.SADDR (i : Nat) : Fld := ⟨0x710008 + 0x20 * i, 31, 0⟩
def NET_RXF.DPORT (i : Nat) : Fld := ⟨0x71000c + 0x20 * i, 31, 16⟩
def NET_RXF.VLANF (i : Nat) : Fld := ⟨0x71000c + 0x20 * i, 15, 15⟩
def NET_RXF.VID (i : Nat) : Fld := ⟨0x71000c + 0x20 * i, 11, 0⟩
def NET_RXF.MCOFF (i : Nat) : Fld := ⟨0x710010 + 0x20 * i, 31, 0⟩
def NET_RXF.LOFF (i : Nat) : Fld := ⟨0x710014 + 0x20 * i, 31, 16⟩
def NET_RXF.BASECH (i : Nat) : Fld := ⟨0x710014 + 0x20 * i, 12, 0⟩
def NET_RXF.JSDR (i : Nat) : Fld := ⟨0x710018 + 0x20 * i, 31, 31⟩
def NET_RXF.JBUF (i : Nat) : Fld := ⟨0x710018 + 0x20 * i, 19, 0⟩
def NET_RXF.ALT (i : Nat) : Fld := ⟨0x71001c + 0x20 * i, 11, 0⟩
/-- Offset of `NET_TXF[f]`. -/
def NET_TXF.adr (i : Nat) : Nat := 0x730000 + 0x20 * i
def NET_TXF.EN (i : Nat) : Fld := ⟨0x730000 + 0x20 * i, 31, 31⟩
def NET_TXF.MAC (i : Nat) : Fld := ⟨0x730000 + 0x20 * i, 30, 29⟩
def NET_TXF.L16 (i : Nat) : Fld := ⟨0x730000 + 0x20 * i, 28, 28⟩
def NET_TXF.UNLOCKED (i : Nat) : Fld := ⟨0x730000 + 0x20 * i, 27, 27⟩
def NET_TXF.RATE (i : Nat) : Fld := ⟨0x730000 + 0x20 * i, 26, 24⟩
def NET_TXF.CLAIMX (i : Nat) : Fld := ⟨0x730000 + 0x20 * i, 23, 23⟩
def NET_TXF.SAP (i : Nat) : Fld := ⟨0x730000 + 0x20 * i, 22, 22⟩
def NET_TXF.CHM1 (i : Nat) : Fld := ⟨0x730000 + 0x20 * i, 21, 16⟩
def NET_TXF.SPP (i : Nat) : Fld := ⟨0x730000 + 0x20 * i, 15, 8⟩
def NET_TXF.DADDR (i : Nat) : Fld := ⟨0x730004 + 0x20 * i, 31, 0⟩
def NET_TXF.DPORT (i : Nat) : Fld := ⟨0x730008 + 0x20 * i, 31, 16⟩
def NET_TXF.SPORT (i : Nat) : Fld := ⟨0x730008 + 0x20 * i, 15, 0⟩
def NET_TXF.VLAN (i : Nat) : Fld := ⟨0x73000c + 0x20 * i, 31, 31⟩
def NET_TXF.PCP (i : Nat) : Fld := ⟨0x73000c + 0x20 * i, 30, 28⟩
def NET_TXF.VID (i : Nat) : Fld := ⟨0x73000c + 0x20 * i, 27, 16⟩
def NET_TXF.DSCP (i : Nat) : Fld := ⟨0x73000c + 0x20 * i, 15, 10⟩
def NET_TXF.TTL (i : Nat) : Fld := ⟨0x73000c + 0x20 * i, 7, 0⟩
def NET_TXF.SSRC (i : Nat) : Fld := ⟨0x730010 + 0x20 * i, 31, 0⟩
def NET_TXF.MCOFF (i : Nat) : Fld := ⟨0x730014 + 0x20 * i, 31, 0⟩
def NET_TXF.PT (i : Nat) : Fld := ⟨0x730018 + 0x20 * i, 31, 25⟩
def NET_TXF.BASECH (i : Nat) : Fld := ⟨0x730018 + 0x20 * i, 12, 0⟩
/-- Offset of `NET_RXS[f]`. -/
def NET_RXS.adr (i : Nat) : Nat := 0x750000 + 8 * i
def NET_RXS.STATE (i : Nat) : Fld := ⟨0x750000 + 8 * i, 31, 28⟩
def NET_RXS.SEL (i : Nat) : Fld := ⟨0x750000 + 8 * i, 27, 27⟩
def NET_RXS.CONV (i : Nat) : Fld := ⟨0x750000 + 8 * i, 26, 26⟩
def NET_RXS.CLAIM (i : Nat) : Fld := ⟨0x750000 + 8 * i, 15, 0⟩
def NET_RXS.SSRC (i : Nat) : Fld := ⟨0x750004 + 8 * i, 31, 0⟩
/-- Offset of `NET_TXS`. -/
def NET_TXS.adr (i : Nat) : Nat := 0x758000 + 4 * i
def NET_TXS.STATE (i : Nat) : Fld := ⟨0x758000 + 4 * i, 31, 28⟩
def NET_TXS.SEQ (i : Nat) : Fld := ⟨0x758000 + 4 * i, 15, 0⟩
/-- Offset of `NET_RXUND_CNT`. -/
def NET_RXUND_CNT.adr (i : Nat) : Nat := 0x760000 + 4 * i
def NET_RXUND_CNT.COUNT (i : Nat) : Fld := ⟨0x760000 + 4 * i, 31, 0⟩
/-- Offset of `NET_RXDROP_CNT`. -/
def NET_RXDROP_CNT.adr (i : Nat) : Nat := 0x764000 + 4 * i
def NET_RXDROP_CNT.COUNT (i : Nat) : Fld := ⟨0x764000 + 4 * i, 31, 0⟩
/-- Offset of `NET_RXSEQ_CNT`. -/
def NET_RXSEQ_CNT.adr (i : Nat) : Nat := 0x768000 + 4 * i
def NET_RXSEQ_CNT.COUNT (i : Nat) : Fld := ⟨0x768000 + 4 * i, 31, 0⟩
/-- Offset of `NET_UPEG`. -/
def NET_UPEG.adr (i : Nat) : Nat := 0x76c000 + 4 * i
def NET_UPEG.PEG (i : Nat) : Fld := ⟨0x76c000 + 4 * i, 31, 0⟩
/-- Offset of `NET_DPEG`. -/
def NET_DPEG.adr (i : Nat) : Nat := 0x76c200 + 4 * i
def NET_DPEG.PEG (i : Nat) : Fld := ⟨0x76c200 + 4 * i, 31, 0⟩
/-- Offset of `NET_SPEG`. -/
def NET_SPEG.adr (i : Nat) : Nat := 0x76c400 + 4 * i
def NET_SPEG.PEG (i : Nat) : Fld := ⟨0x76c400 + 4 * i, 31, 0⟩
/-- Offset of `REF_SEL`. -/
def REF_SEL.adr : Nat := 0x800000
def REF_SEL.WCRATE : Fld := ⟨0x800000, 18, 16⟩
def REF_SEL.TDMPORT : Fld := ⟨0x800000, 14, 10⟩
def REF_SEL.WCO : Fld := ⟨0x800000, 9, 8⟩
def REF_SEL.SRC : Fld := ⟨0x800000, 3, 0⟩
/-- Offset of `REF_STAT`. -/
def REF_STAT.adr : Nat := 0x800004
def REF_STAT.STATE : Fld := ⟨0x800004, 31, 29⟩
def REF_STAT.BW : Fld := ⟨0x800004, 28, 27⟩
def REF_STAT.SWITCHING : Fld := ⟨0x800004, 26, 26⟩
def REF_STAT.PULLIN : Fld := ⟨0x800004, 25, 25⟩
def REF_STAT.SLEWING : Fld := ⟨0x800004, 24, 24⟩
def REF_STAT.CUR : Fld := ⟨0x800004, 23, 20⟩
def REF_STAT.NEXT : Fld := ⟨0x800004, 19, 16⟩
def REF_STAT.QADV : Fld := ⟨0x800004, 15, 8⟩
/-- Offset of `REF_CSTAT`. -/
def REF_CSTAT.adr : Nat := 0x800008
def REF_CSTAT.DEGRADED : Fld := ⟨0x800008, 26, 16⟩
def REF_CSTAT.QUALIFIED : Fld := ⟨0x800008, 10, 0⟩
/-- Offset of `REF_DCO_LO`. -/
def REF_DCO_LO.adr : Nat := 0x800010
def REF_DCO_LO.VALUE : Fld := ⟨0x800010, 31, 0⟩
/-- Offset of `REF_DCO_HI`. -/
def REF_DCO_HI.adr : Nat := 0x800014
def REF_DCO_HI.HI : Fld := ⟨0x800014, 7, 0⟩
/-- Offset of `REF_MEAS_LO`. -/
def REF_MEAS_LO.adr (i : Nat) : Nat := 0x800040 + 8 * i
def REF_MEAS_LO.VALUE (i : Nat) : Fld := ⟨0x800040 + 8 * i, 31, 0⟩
/-- Offset of `REF_MEAS_HI`. -/
def REF_MEAS_HI.adr (i : Nat) : Nat := 0x800044 + 8 * i
def REF_MEAS_HI.VALID (i : Nat) : Fld := ⟨0x800044 + 8 * i, 31, 31⟩
def REF_MEAS_HI.HI (i : Nat) : Fld := ⟨0x800044 + 8 * i, 7, 0⟩
/-- Offset of `REF_LEVEL`. -/
def REF_LEVEL.adr : Nat := 0x8000fc
def REF_LEVEL.BASIC_RESET : Fld := ⟨0x8000fc, 11, 8⟩
def REF_LEVEL.XMODE : Fld := ⟨0x8000fc, 3, 0⟩
/-- Offset of `REF_XSEL`. -/
def REF_XSEL.adr : Nat := 0x800100
def REF_XSEL.POLICY : Fld := ⟨0x800100, 31, 30⟩
def REF_XSEL.REVERT : Fld := ⟨0x800100, 29, 29⟩
def REF_XSEL.WCO : Fld := ⟨0x800100, 9, 8⟩
def REF_XSEL.SRC : Fld := ⟨0x800100, 3, 0⟩
/-- Offset of `REF_XLOOP`. -/
def REF_XLOOP.adr : Nat := 0x800104
def REF_XLOOP.FASTACQ : Fld := ⟨0x800104, 31, 31⟩
def REF_XLOOP.SETTLE : Fld := ⟨0x800104, 30, 19⟩
def REF_XLOOP.SLEW : Fld := ⟨0x800104, 13, 0⟩
/-- Offset of `REF_XHOLD`. -/
def REF_XHOLD.adr : Nat := 0x800108
def REF_XHOLD.HMAX : Fld := ⟨0x800108, 31, 16⟩
def REF_XHOLD.HOLDQ : Fld := ⟨0x800108, 7, 0⟩
/-- Offset of `REF_XDCO_LO`. -/
def REF_XDCO_LO.adr : Nat := 0x80010c
def REF_XDCO_LO.VALUE : Fld := ⟨0x80010c, 31, 0⟩
/-- Offset of `REF_XDCO_HI`. -/
def REF_XDCO_HI.adr : Nat := 0x800110
def REF_XDCO_HI.HI : Fld := ⟨0x800110, 7, 0⟩
/-- Offset of `REF_HAVG_LO`. -/
def REF_HAVG_LO.adr : Nat := 0x800114
def REF_HAVG_LO.VALUE : Fld := ⟨0x800114, 31, 0⟩
/-- Offset of `REF_HAVG_HI`. -/
def REF_HAVG_HI.adr : Nat := 0x800118
def REF_HAVG_HI.VALID : Fld := ⟨0x800118, 31, 31⟩
def REF_HAVG_HI.AGE : Fld := ⟨0x800118, 21, 16⟩
def REF_HAVG_HI.HI : Fld := ⟨0x800118, 7, 0⟩
/-- Offset of `REF_PHERR`. -/
def REF_PHERR.adr : Nat := 0x80011c
def REF_PHERR.VALUE : Fld := ⟨0x80011c, 31, 0⟩
/-- Offset of `REF_XCANDc`. -/
def REF_XCAND.adr (i : Nat) : Nat := 0x800140 + 8 * i
def REF_XCAND.EN (i : Nat) : Fld := ⟨0x800140 + 8 * i, 31, 31⟩
def REF_XCAND.PHALIGN (i : Nat) : Fld := ⟨0x800140 + 8 * i, 30, 30⟩
def REF_XCAND.QSW (i : Nat) : Fld := ⟨0x800140 + 8 * i, 29, 29⟩
def REF_XCAND.QUAL (i : Nat) : Fld := ⟨0x800140 + 8 * i, 27, 20⟩
def REF_XCAND.PRIO (i : Nat) : Fld := ⟨0x800140 + 8 * i, 19, 16⟩
def REF_XCAND.TOL (i : Nat) : Fld := ⟨0x800140 + 8 * i, 12, 0⟩
def REF_XCAND.WTR (i : Nat) : Fld := ⟨0x800144 + 8 * i, 25, 16⟩
def REF_XCAND.PORT (i : Nat) : Fld := ⟨0x800144 + 8 * i, 12, 8⟩
def REF_XCAND.NRATE (i : Nat) : Fld := ⟨0x800144 + 8 * i, 2, 0⟩
/-- Offset of `REF_DISQ_CNT`. -/
def REF_DISQ_CNT.adr (i : Nat) : Nat := 0x800200 + 4 * i
def REF_DISQ_CNT.COUNT (i : Nat) : Fld := ⟨0x800200 + 4 * i, 31, 0⟩
/-- Offset of `REF_SWITCH_CNT`. -/
def REF_SWITCH_CNT.adr : Nat := 0x800240
def REF_SWITCH_CNT.COUNT : Fld := ⟨0x800240, 31, 0⟩
/-- Offset of `REF_HOLD_CNT`. -/
def REF_HOLD_CNT.adr : Nat := 0x800244
def REF_HOLD_CNT.COUNT : Fld := ⟨0x800244, 31, 0⟩
/-- Offset of `REF_PEG`. -/
def REF_PEG.adr : Nat := 0x800248
def REF_PEG.PEG : Fld := ⟨0x800248, 31, 0⟩
/-- Offset of `TIM_CTL`. -/
def TIM_CTL.adr : Nat := 0x900000
def TIM_CTL.SRC : Fld := ⟨0x900000, 31, 30⟩
def TIM_CTL.PPSEN : Fld := ⟨0x900000, 29, 29⟩
def TIM_CTL.DOMAIN : Fld := ⟨0x900000, 7, 0⟩
/-- Offset of `TIM_STAT`. -/
def TIM_STAT.adr : Nat := 0x900004
def TIM_STAT.STATE : Fld := ⟨0x900004, 31, 28⟩
def TIM_STAT.DIV : Fld := ⟨0x900004, 27, 27⟩
def TIM_STAT.JOINED : Fld := ⟨0x900004, 26, 26⟩
def TIM_STAT.SRCERR : Fld := ⟨0x900004, 25, 25⟩
def TIM_STAT.STEPPEND : Fld := ⟨0x900004, 24, 24⟩
def TIM_STAT.EPOCH : Fld := ⟨0x900004, 15, 0⟩
/-- Offset of `TIM_NOW`. -/
def TIM_NOW.adr (i : Nat) : Nat := 0x900010 + 4 * i
def TIM_NOW.VALUE (i : Nat) : Fld := ⟨0x900010 + 4 * i, 31, 0⟩
/-- Offset of `TIM_MSEQ`. -/
def TIM_MSEQ.adr : Nat := 0x90002c
def TIM_MSEQ.VALUE : Fld := ⟨0x90002c, 31, 0⟩
/-- Offset of `TIM_MAP`. -/
def TIM_MAP.adr (i : Nat) : Nat := 0x900030 + 4 * i
def TIM_MAP.VALUE (i : Nat) : Fld := ⟨0x900030 + 4 * i, 31, 0⟩
/-- Offset of `TIM_LEVEL`. -/
def TIM_LEVEL.adr : Nat := 0x9000fc
def TIM_LEVEL.BASIC_RESET : Fld := ⟨0x9000fc, 11, 8⟩
def TIM_LEVEL.XMODE : Fld := ⟨0x9000fc, 3, 0⟩
/-- Offset of `TIM_XSERVO`. -/
def TIM_XSERVO.adr : Nat := 0x900100
def TIM_XSERVO.SRC : Fld := ⟨0x900100, 31, 30⟩
def TIM_XSERVO.THRESH : Fld := ⟨0x900100, 29, 20⟩
def TIM_XSERVO.RATEMAX : Fld := ⟨0x900100, 19, 12⟩
/-- Offset of `TIM_XINC_LO`. -/
def TIM_XINC_LO.adr : Nat := 0x900104
def TIM_XINC_LO.VALUE : Fld := ⟨0x900104, 31, 0⟩
/-- Offset of `TIM_XINC_HI`. -/
def TIM_XINC_HI.adr : Nat := 0x900108
def TIM_XINC_HI.NS : Fld := ⟨0x900108, 11, 8⟩
def TIM_XINC_HI.FRAC : Fld := ⟨0x900108, 7, 0⟩
/-- Offset of `TIM_XORIGIN`. -/
def TIM_XORIGIN.adr (i : Nat) : Nat := 0x90010c + 4 * i
def TIM_XORIGIN.VALUE (i : Nat) : Fld := ⟨0x90010c + 4 * i, 31, 0⟩
/-- Offset of `TIM_XPPS`. -/
def TIM_XPPS.adr : Nat := 0x900118
def TIM_XPPS.EN : Fld := ⟨0x900118, 31, 31⟩
def TIM_XPPS.FREE : Fld := ⟨0x900118, 30, 30⟩
def TIM_XPPS.WIDTH : Fld := ⟨0x900118, 9, 0⟩
/-- Offset of `TIM_XPTP`. -/
def TIM_XPTP.adr : Nat := 0x90011c
def TIM_XPTP.PROFILE : Fld := ⟨0x90011c, 31, 30⟩
def TIM_XPTP.SLAVEONLY : Fld := ⟨0x90011c, 29, 29⟩
def TIM_XPTP.MAC : Fld := ⟨0x90011c, 28, 27⟩
def TIM_XPTP.BMAC : Fld := ⟨0x90011c, 26, 25⟩
def TIM_XPTP.BEN : Fld := ⟨0x90011c, 24, 24⟩
def TIM_XPTP.DOMAIN : Fld := ⟨0x90011c, 23, 16⟩
def TIM_XPTP.PRIO1 : Fld := ⟨0x90011c, 15, 8⟩
def TIM_XPTP.CLASS : Fld := ⟨0x90011c, 7, 0⟩
/-- Offset of `TIM_OFFSET`. -/
def TIM_OFFSET.adr : Nat := 0x900120
def TIM_OFFSET.VALUE : Fld := ⟨0x900120, 31, 0⟩
/-- Offset of `TIM_PPSIN`. -/
def TIM_PPSIN.adr (i : Nat) : Nat := 0x900130 + 4 * i
def TIM_PPSIN.VALUE (i : Nat) : Fld := ⟨0x900130 + 4 * i, 31, 0⟩
/-- Offset of `TIM_RXOVW_CNT`. -/
def TIM_RXOVW_CNT.adr : Nat := 0x900180
def TIM_RXOVW_CNT.COUNT : Fld := ⟨0x900180, 31, 0⟩
/-- Offset of `TIM_TXQ_OVF_CNT`. -/
def TIM_TXQ_OVF_CNT.adr : Nat := 0x900184
def TIM_TXQ_OVF_CNT.COUNT : Fld := ⟨0x900184, 31, 0⟩
/-- Offset of `TIM_JUMP_CNT`. -/
def TIM_JUMP_CNT.adr : Nat := 0x900188
def TIM_JUMP_CNT.COUNT : Fld := ⟨0x900188, 31, 0⟩
/-- Offset of `TIM_PEG`. -/
def TIM_PEG.adr : Nat := 0x90018c
def TIM_PEG.PEG : Fld := ⟨0x90018c, 31, 0⟩
/-- Offset of `TIM_TXQn`. -/
def TIM_TXQ.adr (i : Nat) : Nat := 0x900200 + 0x20 * i
def TIM_TXQ.VALID (i : Nat) : Fld := ⟨0x900200 + 0x20 * i, 31, 31⟩
def TIM_TXQ.LEFT (i : Nat) : Fld := ⟨0x900200 + 0x20 * i, 20, 16⟩
def TIM_TXQ.TAG (i : Nat) : Fld := ⟨0x900200 + 0x20 * i, 15, 0⟩
def TIM_TXQ.W1 (i : Nat) : Fld := ⟨0x900204 + 0x20 * i, 31, 0⟩
def TIM_TXQ.W2 (i : Nat) : Fld := ⟨0x900208 + 0x20 * i, 31, 0⟩
def TIM_TXQ.W3 (i : Nat) : Fld := ⟨0x90020c + 0x20 * i, 31, 0⟩
def TIM_TXQ.W4 (i : Nat) : Fld := ⟨0x900210 + 0x20 * i, 31, 0⟩
def TIM_TXQ.W5 (i : Nat) : Fld := ⟨0x900214 + 0x20 * i, 31, 0⟩
/-- Offset of `PAIR_CTL`. -/
def PAIR_CTL.adr : Nat := 0xa00000
def PAIR_CTL.EN : Fld := ⟨0xa00000, 31, 31⟩
def PAIR_CTL.AUTORESYNC : Fld := ⟨0xa00000, 30, 30⟩
def PAIR_CTL.RESYNC : Fld := ⟨0xa00000, 29, 29⟩
def PAIR_CTL.PARTNER : Fld := ⟨0xa00000, 5, 0⟩
/-- Offset of `PAIR_STAT`. -/
def PAIR_STAT.adr : Nat := 0xa00004
def PAIR_STAT.CLASS : Fld := ⟨0xa00004, 31, 30⟩
def PAIR_STAT.ROLE : Fld := ⟨0xa00004, 29, 28⟩
def PAIR_STAT.ILKV : Fld := ⟨0xa00004, 27, 27⟩
def PAIR_STAT.ILKPIN : Fld := ⟨0xa00004, 26, 26⟩
def PAIR_STAT.HBOK : Fld := ⟨0xa00004, 25, 25⟩
def PAIR_STAT.STATEOK : Fld := ⟨0xa00004, 24, 24⟩
def PAIR_STAT.SYNC : Fld := ⟨0xa00004, 23, 21⟩
def PAIR_STAT.GEN : Fld := ⟨0xa00004, 20, 13⟩
def PAIR_STAT.RUN : Fld := ⟨0xa00004, 12, 0⟩
/-- Offset of `PAIR_CLAIM`. -/
def PAIR_CLAIM.adr : Nat := 0xa00008
def PAIR_CLAIM.CLAIM : Fld := ⟨0xa00008, 15, 0⟩
/-- Offset of `PAIR_PSTAT`. -/
def PAIR_PSTAT.adr : Nat := 0xa0000c
def PAIR_PSTAT.HBCLASS : Fld := ⟨0xa0000c, 31, 30⟩
def PAIR_PSTAT.CLAIM : Fld := ⟨0xa0000c, 29, 14⟩
def PAIR_PSTAT.GEN : Fld := ⟨0xa0000c, 13, 6⟩
def PAIR_PSTAT.SYNC : Fld := ⟨0xa0000c, 5, 3⟩
def PAIR_PSTAT.MSGOK : Fld := ⟨0xa0000c, 2, 2⟩
/-- Offset of `PAIR_LEVEL`. -/
def PAIR_LEVEL.adr : Nat := 0xa000fc
def PAIR_LEVEL.BASIC_RESET : Fld := ⟨0xa000fc, 11, 8⟩
def PAIR_LEVEL.XMODE : Fld := ⟨0xa000fc, 3, 0⟩
/-- Offset of `PAIR_XCFG`. -/
def PAIR_XCFG.adr : Nat := 0xa00100
def PAIR_XCFG.TDMDRV : Fld := ⟨0xa00100, 31, 31⟩
def PAIR_XCFG.NETWH : Fld := ⟨0xa00100, 30, 30⟩
def PAIR_XCFG.HLOW : Fld := ⟨0xa00100, 19, 12⟩
def PAIR_XCFG.TPER : Fld := ⟨0xa00100, 7, 0⟩
/-- Offset of `PAIR_XCOPY`. -/
def PAIR_XCOPY.adr : Nat := 0xa00104
def PAIR_XCOPY.RING : Fld := ⟨0xa00104, 31, 31⟩
def PAIR_XCOPY.BASE : Fld := ⟨0xa00104, 30, 16⟩
def PAIR_XCOPY.SLOTS : Fld := ⟨0xa00104, 12, 0⟩
/-- Offset of `PAIR_XGRP`. -/
def PAIR_XGRP.adr (i : Nat) : Nat := 0xa00140 + 4 * i
def PAIR_XGRP.VALUE (i : Nat) : Fld := ⟨0xa00140 + 4 * i, 31, 0⟩
/-- Offset of `PAIR_HLTH`. -/
def PAIR_HLTH.adr (i : Nat) : Nat := 0xa00200 + 4 * i
def PAIR_HLTH.SCORE (i : Nat) : Fld := ⟨0xa00200 + 4 * i, 6, 0⟩
/-- Offset of `PAIR_PHLTH`. -/
def PAIR_PHLTH.adr (i : Nat) : Nat := 0xa00280 + 4 * i
def PAIR_PHLTH.VALID (i : Nat) : Fld := ⟨0xa00280 + 4 * i, 31, 31⟩
def PAIR_PHLTH.SCORE (i : Nat) : Fld := ⟨0xa00280 + 4 * i, 6, 0⟩
/-- Offset of `PAIR_MISMATCH_CNT`. -/
def PAIR_MISMATCH_CNT.adr : Nat := 0xa00300
def PAIR_MISMATCH_CNT.COUNT : Fld := ⟨0xa00300, 31, 0⟩
/-- Offset of `PAIR_MISSING_CNT`. -/
def PAIR_MISSING_CNT.adr : Nat := 0xa00304
def PAIR_MISSING_CNT.COUNT : Fld := ⟨0xa00304, 31, 0⟩
/-- Offset of `PAIR_HBLOSS_CNT`. -/
def PAIR_HBLOSS_CNT.adr : Nat := 0xa00308
def PAIR_HBLOSS_CNT.COUNT : Fld := ⟨0xa00308, 31, 0⟩
/-- Offset of `PAIR_ILKFAIL_CNT`. -/
def PAIR_ILKFAIL_CNT.adr : Nat := 0xa0030c
def PAIR_ILKFAIL_CNT.COUNT : Fld := ⟨0xa0030c, 31, 0⟩
/-- Offset of `PAIR_TAKEOVER_CNT`. -/
def PAIR_TAKEOVER_CNT.adr : Nat := 0xa00310
def PAIR_TAKEOVER_CNT.COUNT : Fld := ⟨0xa00310, 31, 0⟩
/-- Offset of `PAIR_PEG`. -/
def PAIR_PEG.adr : Nat := 0xa00314
def PAIR_PEG.PEG : Fld := ⟨0xa00314, 31, 0⟩
/-- Offset of `PAIR_DIGMASK`. -/
def PAIR_DIGMASK.adr : Nat := 0xa00318
def PAIR_DIGMASK.GROUPS : Fld := ⟨0xa00318, 15, 0⟩
/-- Offset of `PAIR_XREG`. -/
def PAIR_XREG.adr (i : Nat) : Nat := 0xa00400 + 0x10 * i
def PAIR_XREG.W0 (i : Nat) : Fld := ⟨0xa00400 + 0x10 * i, 31, 0⟩
def PAIR_XREG.W1 (i : Nat) : Fld := ⟨0xa00404 + 0x10 * i, 31, 0⟩
def PAIR_XREG.W2 (i : Nat) : Fld := ⟨0xa00408 + 0x10 * i, 31, 0⟩
def PAIR_XREG.W3 (i : Nat) : Fld := ⟨0xa0040c + 0x10 * i, 31, 0⟩
/-- Offset of `MTX_STAT`. -/
def MTX_STAT.adr : Nat := 0xb00000
def MTX_STAT.ISO : Fld := ⟨0xb00000, 22, 0⟩
/-- Offset of `MTX_ERR0`. -/
def MTX_ERR0.adr : Nat := 0xb00004
def MTX_ERR0.RESP : Fld := ⟨0xb00004, 31, 29⟩
def MTX_ERR0.MASTER : Fld := ⟨0xb00004, 28, 24⟩
def MTX_ERR0.TARGET : Fld := ⟨0xb00004, 23, 20⟩
def MTX_ERR0.WRITE : Fld := ⟨0xb00004, 19, 19⟩
def MTX_ERR0.ADDRHI : Fld := ⟨0xb00004, 7, 0⟩
/-- Offset of `MTX_ERR1`. -/
def MTX_ERR1.adr : Nat := 0xb00008
def MTX_ERR1.VALUE : Fld := ⟨0xb00008, 31, 0⟩
/-- Offset of `MTX_LEVEL`. -/
def MTX_LEVEL.adr : Nat := 0xb000fc
def MTX_LEVEL.BASIC_RESET : Fld := ⟨0xb000fc, 11, 8⟩
def MTX_LEVEL.XMODE : Fld := ⟨0xb000fc, 3, 0⟩
/-- Offset of `MTX_XMCFGm`. -/
def MTX_XMCFG.adr (i : Nat) : Nat := 0xb00100 + 4 * i
def MTX_XMCFG.CLASS (i : Nat) : Fld := ⟨0xb00100 + 4 * i, 31, 31⟩
def MTX_XMCFG.WEIGHT (i : Nat) : Fld := ⟨0xb00100 + 4 * i, 3, 0⟩
/-- Offset of `MTX_PARKt`. -/
def MTX_PARK.adr (i : Nat) : Nat := 0xb00180 + 4 * i
def MTX_PARK.MASTER (i : Nat) : Fld := ⟨0xb00180 + 4 * i, 4, 0⟩
/-- Offset of `MTX_XBULK`. -/
def MTX_XBULK.adr : Nat := 0xb001c0
def MTX_XBULK.BULKMIN : Fld := ⟨0xb001c0, 7, 0⟩
/-- Offset of `MTX_XMRST`. -/
def MTX_XMRST.adr : Nat := 0xb001c4
def MTX_XMRST.RST : Fld := ⟨0xb001c4, 22, 0⟩
/-- Offset of `MTX_DECERR_CNT`. -/
def MTX_DECERR_CNT.adr : Nat := 0xb00200
def MTX_DECERR_CNT.COUNT : Fld := ⟨0xb00200, 31, 0⟩
/-- Offset of `MTX_LOCKBRK_CNT`. -/
def MTX_LOCKBRK_CNT.adr : Nat := 0xb00204
def MTX_LOCKBRK_CNT.COUNT : Fld := ⟨0xb00204, 31, 0⟩
/-- Offset of `MTX_PARERR_CNT`. -/
def MTX_PARERR_CNT.adr : Nat := 0xb00208
def MTX_PARERR_CNT.COUNT : Fld := ⟨0xb00208, 31, 0⟩
/-- Offset of `MTX_PEG`. -/
def MTX_PEG.adr : Nat := 0xb0020c
def MTX_PEG.PEG : Fld := ⟨0xb0020c, 31, 0⟩
/-- Offset of `YARD_STAT`. -/
def YARD_STAT.adr : Nat := 0xc00000
def YARD_STAT.CRUISE : Fld := ⟨0xc00000, 31, 31⟩
def YARD_STAT.ON : Fld := ⟨0xc00000, 22, 16⟩
def YARD_STAT.RET : Fld := ⟨0xc00000, 14, 8⟩
def YARD_STAT.OFF : Fld := ⟨0xc00000, 6, 0⟩
/-- Offset of `YARD_SLEEP`. -/
def YARD_SLEEP.adr : Nat := 0xc00004
def YARD_SLEEP.GRP : Fld := ⟨0xc00004, 7, 0⟩
/-- Offset of `YARD_LEVEL`. -/
def YARD_LEVEL.adr : Nat := 0xc000fc
def YARD_LEVEL.BASIC_RESET : Fld := ⟨0xc000fc, 11, 8⟩
def YARD_LEVEL.XMODE : Fld := ⟨0xc000fc, 3, 0⟩
/-- Offset of `YARD_XPWR`. -/
def YARD_XPWR.adr (i : Nat) : Nat := 0xc00100 + 4 * i
def YARD_XPWR.VALUE (i : Nat) : Fld := ⟨0xc00100 + 4 * i, 31, 0⟩
/-- Offset of `YARD_XCRUISE`. -/
def YARD_XCRUISE.adr : Nat := 0xc00110
def YARD_XCRUISE.EN : Fld := ⟨0xc00110, 31, 31⟩
def YARD_XCRUISE.SVCPER : Fld := ⟨0xc00110, 25, 16⟩
def YARD_XCRUISE.PER : Fld := ⟨0xc00110, 15, 0⟩
/-- Offset of `YARD_CRPOS`. -/
def YARD_CRPOS.adr : Nat := 0xc00114
def YARD_CRPOS.REGION : Fld := ⟨0xc00114, 16, 0⟩
/-- Offset of `YARD_CORR_CNT`. -/
def YARD_CORR_CNT.adr : Nat := 0xc00180
def YARD_CORR_CNT.COUNT : Fld := ⟨0xc00180, 31, 0⟩
/-- Offset of `YARD_UNC_CNT`. -/
def YARD_UNC_CNT.adr : Nat := 0xc00184
def YARD_UNC_CNT.COUNT : Fld := ⟨0xc00184, 31, 0⟩
/-- Offset of `YARD_ASLEEP_CNT`. -/
def YARD_ASLEEP_CNT.adr : Nat := 0xc00188
def YARD_ASLEEP_CNT.COUNT : Fld := ⟨0xc00188, 31, 0⟩
/-- Offset of `YARD_CRRETRY_CNT`. -/
def YARD_CRRETRY_CNT.adr : Nat := 0xc0018c
def YARD_CRRETRY_CNT.COUNT : Fld := ⟨0xc0018c, 31, 0⟩
/-- Offset of `YARD_CRSKIP_CNT`. -/
def YARD_CRSKIP_CNT.adr : Nat := 0xc00190
def YARD_CRSKIP_CNT.COUNT : Fld := ⟨0xc00190, 31, 0⟩
/-- Offset of `YARD_CRFAIL_CNT`. -/
def YARD_CRFAIL_CNT.adr : Nat := 0xc00194
def YARD_CRFAIL_CNT.COUNT : Fld := ⟨0xc00194, 31, 0⟩
/-- Offset of `YARD_PEG`. -/
def YARD_PEG.adr : Nat := 0xc00198
def YARD_PEG.PEG : Fld := ⟨0xc00198, 31, 0⟩
/-- Offset of `YARD_CONF_CNT`. -/
def YARD_CONF_CNT.adr (i : Nat) : Nat := 0xc00200 + 4 * i
def YARD_CONF_CNT.COUNT (i : Nat) : Fld := ⟨0xc00200 + 4 * i, 31, 0⟩
/-- Offset of `YARD_CPEG`. -/
def YARD_CPEG.adr : Nat := 0xc00260
def YARD_CPEG.PEG : Fld := ⟨0xc00260, 31, 0⟩
/-- Offset of `SDR_STAT`. -/
def SDR_STAT.adr : Nat := 0xd00000
def SDR_STAT.ST1 : Fld := ⟨0xd00000, 31, 29⟩
def SDR_STAT.SIZE1 : Fld := ⟨0xd00000, 28, 24⟩
def SDR_STAT.ST0 : Fld := ⟨0xd00000, 15, 13⟩
def SDR_STAT.SIZE0 : Fld := ⟨0xd00000, 12, 8⟩
def SDR_STAT.ECC : Fld := ⟨0xd00000, 1, 1⟩
def SDR_STAT.INTLV : Fld := ⟨0xd00000, 0, 0⟩
/-- Offset of `SDR_CTL`. -/
def SDR_CTL.adr : Nat := 0xd00004
def SDR_CTL.ECC : Fld := ⟨0xd00004, 1, 1⟩
def SDR_CTL.INTLV : Fld := ⟨0xd00004, 0, 0⟩
/-- Offset of `SDR_LEVEL`. -/
def SDR_LEVEL.adr : Nat := 0xd000fc
def SDR_LEVEL.BASIC_RESET : Fld := ⟨0xd000fc, 11, 8⟩
def SDR_LEVEL.XMODE : Fld := ⟨0xd000fc, 3, 0⟩
/-- Offset of `SDR_XCFG`. -/
def SDR_XCFG.adr : Nat := 0xd00100
def SDR_XCFG.UEMAX : Fld := ⟨0xd00100, 31, 24⟩
def SDR_XCFG.ECC : Fld := ⟨0xd00100, 1, 1⟩
def SDR_XCFG.INTLV : Fld := ⟨0xd00100, 0, 0⟩
/-- Offset of `SDR_CORR_CNT`. -/
def SDR_CORR_CNT.adr (i : Nat) : Nat := 0xd00180 + 4 * i
def SDR_CORR_CNT.COUNT (i : Nat) : Fld := ⟨0xd00180 + 4 * i, 31, 0⟩
/-- Offset of `SDR_UNC_CNT`. -/
def SDR_UNC_CNT.adr (i : Nat) : Nat := 0xd00188 + 4 * i
def SDR_UNC_CNT.COUNT (i : Nat) : Fld := ⟨0xd00188 + 4 * i, 31, 0⟩
/-- Offset of `SDR_PEG`. -/
def SDR_PEG.adr : Nat := 0xd00190
def SDR_PEG.PEG : Fld := ⟨0xd00190, 31, 0⟩
/-- Offset of `DAC_CTL`. -/
def DAC_CTL.adr : Nat := 0xe00000
def DAC_CTL.CLR : Fld := ⟨0xe00000, 31, 31⟩
def DAC_CTL.FILT : Fld := ⟨0xe00000, 16, 16⟩
def DAC_CTL.GAIN : Fld := ⟨0xe00000, 15, 8⟩
def DAC_CTL.EN : Fld := ⟨0xe00000, 7, 0⟩
/-- Offset of `DAC_STAT`. -/
def DAC_STAT.adr : Nat := 0xe00004
def DAC_STAT.CLRPIN : Fld := ⟨0xe00004, 31, 31⟩
def DAC_STAT.REFEXT : Fld := ⟨0xe00004, 30, 30⟩
def DAC_STAT.REFFAULT : Fld := ⟨0xe00004, 29, 29⟩
def DAC_STAT.SHORT : Fld := ⟨0xe00004, 23, 16⟩
def DAC_STAT.OPEN : Fld := ⟨0xe00004, 15, 8⟩
def DAC_STAT.LIVE : Fld := ⟨0xe00004, 7, 0⟩
/-- Offset of `DAC_CLRCODEd`. -/
def DAC_CLRCODE.adr (i : Nat) : Nat := 0xe00040 + 4 * i
def DAC_CLRCODE.CODE (i : Nat) : Fld := ⟨0xe00040 + 4 * i, 23, 0⟩
/-- Offset of `DAC_LEVEL`. -/
def DAC_LEVEL.adr : Nat := 0xe000fc
def DAC_LEVEL.BASIC_RESET : Fld := ⟨0xe000fc, 11, 8⟩
def DAC_LEVEL.XMODE : Fld := ⟨0xe000fc, 3, 0⟩
/-- Offset of `DAC_XCHd`. -/
def DAC_XCH.adr (i : Nat) : Nat := 0xe00100 + 4 * i
def DAC_XCH.EN (i : Nat) : Fld := ⟨0xe00100 + 4 * i, 31, 31⟩
def DAC_XCH.GAIN (i : Nat) : Fld := ⟨0xe00100 + 4 * i, 30, 30⟩
def DAC_XCH.FILT (i : Nat) : Fld := ⟨0xe00100 + 4 * i, 29, 29⟩
def DAC_XCH.OPENEN (i : Nat) : Fld := ⟨0xe00100 + 4 * i, 28, 28⟩
def DAC_XCH.RETRY (i : Nat) : Fld := ⟨0xe00100 + 4 * i, 27, 27⟩
/-- Offset of `DAC_XGLB`. -/
def DAC_XGLB.adr : Nat := 0xe00120
def DAC_XGLB.CLR : Fld := ⟨0xe00120, 31, 31⟩
def DAC_XGLB.REFEXT : Fld := ⟨0xe00120, 30, 30⟩
def DAC_XGLB.REFOUT : Fld := ⟨0xe00120, 29, 29⟩
def DAC_XGLB.THR : Fld := ⟨0xe00120, 3, 0⟩
/-- Offset of `DAC_CLRCODEd`. -/
def DAC_XCLRCODE.adr (i : Nat) : Nat := 0xe00140 + 4 * i
def DAC_XCLRCODE.CODE (i : Nat) : Fld := ⟨0xe00140 + 4 * i, 23, 0⟩
/-- Offset of `DAC_FAULT_CNT`. -/
def DAC_FAULT_CNT.adr (i : Nat) : Nat := 0xe00180 + 4 * i
def DAC_FAULT_CNT.COUNT (i : Nat) : Fld := ⟨0xe00180 + 4 * i, 31, 0⟩
/-- Offset of `DAC_PEG`. -/
def DAC_PEG.adr : Nat := 0xe001a0
def DAC_PEG.PEG : Fld := ⟨0xe001a0, 31, 0⟩
/-- Offset of `TLY_CTL`. -/
def TLY_CTL.adr : Nat := 0xf00000
def TLY_CTL.RANGE : Fld := ⟨0xf00000, 7, 0⟩
/-- Offset of `TLY_STAT`. -/
def TLY_STAT.adr : Nat := 0xf00004
def TLY_STAT.MIRFAIL : Fld := ⟨0xf00004, 31, 31⟩
def TLY_STAT.REFUSED : Fld := ⟨0xf00004, 30, 30⟩
def TLY_STAT.QDEPTH : Fld := ⟨0xf00004, 22, 16⟩
def TLY_STAT.VALID : Fld := ⟨0xf00004, 12, 0⟩
/-- Offset of `TLY_NEWEST`. -/
def TLY_NEWEST.adr : Nat := 0xf00008
def TLY_NEWEST.SEQ : Fld := ⟨0xf00008, 27, 0⟩
/-- Offset of `TLY_FLOOR`. -/
def TLY_FLOOR.adr : Nat := 0xf0000c
def TLY_FLOOR.SEQ : Fld := ⟨0xf0000c, 27, 0⟩
/-- Offset of `TLY_CURSOR`. -/
def TLY_CURSOR.adr : Nat := 0xf00010
def TLY_CURSOR.INC : Fld := ⟨0xf00010, 31, 31⟩
def TLY_CURSOR.SLOT : Fld := ⟨0xf00010, 11, 0⟩
/-- Offset of `TLY_WIN`. -/
def TLY_WIN.adr (i : Nat) : Nat := 0xf00040 + 4 * i
def TLY_WIN.VALUE (i : Nat) : Fld := ⟨0xf00040 + 4 * i, 31, 0⟩
/-- Offset of `TLY_LEVEL`. -/
def TLY_LEVEL.adr : Nat := 0xf000fc
def TLY_LEVEL.BASIC_RESET : Fld := ⟨0xf000fc, 11, 8⟩
def TLY_LEVEL.XMODE : Fld := ⟨0xf000fc, 3, 0⟩
/-- Offset of `TLY_XCFG`. -/
def TLY_XCFG.adr : Nat := 0xf00100
def TLY_XCFG.COMPAT : Fld := ⟨0xf00100, 31, 31⟩
def TLY_XCFG.MIREN : Fld := ⟨0xf00100, 30, 30⟩
/-- Offset of `TLY_XMIR_LO`. -/
def TLY_XMIR_LO.adr : Nat := 0xf00104
def TLY_XMIR_LO.VALUE : Fld := ⟨0xf00104, 31, 0⟩
/-- Offset of `TLY_XMIR_HI`. -/
def TLY_XMIR_HI.adr : Nat := 0xf00108
def TLY_XMIR_HI.HI : Fld := ⟨0xf00108, 7, 0⟩
/-- Offset of `TLY_XMIR_LEN`. -/
def TLY_XMIR_LEN.adr : Nat := 0xf0010c
def TLY_XMIR_LEN.LOG2 : Fld := ⟨0xf0010c, 4, 0⟩
/-- Offset of `TLY_LOST_CNT`. -/
def TLY_LOST_CNT.adr : Nat := 0xf00180
def TLY_LOST_CNT.COUNT : Fld := ⟨0xf00180, 31, 0⟩
/-- Offset of `TLY_MIRSKIP_CNT`. -/
def TLY_MIRSKIP_CNT.adr : Nat := 0xf00184
def TLY_MIRSKIP_CNT.COUNT : Fld := ⟨0xf00184, 31, 0⟩
/-- Offset of `TLY_SNAPERR_CNT`. -/
def TLY_SNAPERR_CNT.adr : Nat := 0xf00188
def TLY_SNAPERR_CNT.COUNT : Fld := ⟨0xf00188, 31, 0⟩
/-- Offset of `TLY_PEG`. -/
def TLY_PEG.adr : Nat := 0xf0018c
def TLY_PEG.PEG : Fld := ⟨0xf0018c, 31, 0⟩
/-- Offset of `TLY_XTRIGc`. -/
def TLY_XTRIG.adr (i : Nat) : Nat := 0xf00400 + 4 * i
def TLY_XTRIG.EN (i : Nat) : Fld := ⟨0xf00400 + 4 * i, 31, 31⟩
def TLY_XTRIG.RATE (i : Nat) : Fld := ⟨0xf00400 + 4 * i, 27, 16⟩
def TLY_XTRIG.BURST (i : Nat) : Fld := ⟨0xf00400 + 4 * i, 15, 8⟩
/-- Offset of `TLY_XSNAP`. -/
def TLY_XSNAP.adr (i : Nat) (j : Nat) : Nat := 0xf01000 + 0x20 * i + 4 * j
def TLY_XSNAP.KIND (i : Nat) (j : Nat) : Fld := ⟨0xf01000 + 0x20 * i + 4 * j, 31, 30⟩
def TLY_XSNAP.OFFSET (i : Nat) (j : Nat) : Fld := ⟨0xf01000 + 0x20 * i + 4 * j, 25, 0⟩
/-- Offset of `TLY_DROP_CNT`. -/
def TLY_DROP_CNT.adr (i : Nat) : Nat := 0xf03000 + 4 * i
def TLY_DROP_CNT.COUNT (i : Nat) : Fld := ⟨0xf03000 + 4 * i, 31, 0⟩
/-- Offset of `TLY_DPEG`. -/
def TLY_DPEG.adr (i : Nat) : Nat := 0xf03400 + 4 * i
def TLY_DPEG.PEG (i : Nat) : Fld := ⟨0xf03400 + 4 * i, 31, 0⟩
/-- Offset of `ENG_CTL`. -/
def ENG_CTL.adr (i : Nat) : Nat := 0x10e0000 + 0xf0000 * i
def ENG_CTL.IOVIEW (i : Nat) : Fld := ⟨0x10e0000 + 0xf0000 * i, 4, 4⟩
def ENG_CTL.BANK (i : Nat) : Fld := ⟨0x10e0000 + 0xf0000 * i, 3, 3⟩
def ENG_CTL.LF_HALT (i : Nat) : Fld := ⟨0x10e0000 + 0xf0000 * i, 2, 2⟩
def ENG_CTL.STOP (i : Nat) : Fld := ⟨0x10e0000 + 0xf0000 * i, 1, 1⟩
def ENG_CTL.RUN (i : Nat) : Fld := ⟨0x10e0000 + 0xf0000 * i, 0, 0⟩
/-- Offset of `ENG_STAT`. -/
def ENG_STAT.adr (i : Nat) : Nat := 0x10e0004 + 0xf0000 * i
def ENG_STAT.STATE (i : Nat) : Fld := ⟨0x10e0004 + 0xf0000 * i, 31, 28⟩
def ENG_STAT.CAUSE (i : Nat) : Fld := ⟨0x10e0004 + 0xf0000 * i, 27, 24⟩
def ENG_STAT.PC (i : Nat) : Fld := ⟨0x10e0004 + 0xf0000 * i, 14, 0⟩
/-- Offset of `ENG_CYC`. -/
def ENG_CYC.adr (i : Nat) : Nat := 0x10e0008 + 0xf0000 * i
def ENG_CYC.CLRMAX (i : Nat) : Fld := ⟨0x10e0008 + 0xf0000 * i, 31, 31⟩
def ENG_CYC.LAST (i : Nat) : Fld := ⟨0x10e0008 + 0xf0000 * i, 20, 0⟩
/-- Offset of `ENG_CYCMAX`. -/
def ENG_CYCMAX.adr (i : Nat) : Nat := 0x10e000c + 0xf0000 * i
def ENG_CYCMAX.MAX (i : Nat) : Fld := ⟨0x10e000c + 0xf0000 * i, 20, 0⟩
/-- Offset of `ENG_OVR_CNT`. -/
def ENG_OVR_CNT.adr (i : Nat) : Nat := 0x10e0010 + 0xf0000 * i
def ENG_OVR_CNT.COUNT (i : Nat) : Fld := ⟨0x10e0010 + 0xf0000 * i, 31, 0⟩
/-- Offset of `ENG_SKIP_CNT`. -/
def ENG_SKIP_CNT.adr (i : Nat) : Nat := 0x10e0014 + 0xf0000 * i
def ENG_SKIP_CNT.COUNT (i : Nat) : Fld := ⟨0x10e0014 + 0xf0000 * i, 31, 0⟩
/-- Offset of `ENG_BSTALL_CNT`. -/
def ENG_BSTALL_CNT.adr (i : Nat) : Nat := 0x10e0018 + 0xf0000 * i
def ENG_BSTALL_CNT.COUNT (i : Nat) : Fld := ⟨0x10e0018 + 0xf0000 * i, 31, 0⟩
/-- Offset of `ENG_HSTALL_CNT`. -/
def ENG_HSTALL_CNT.adr (i : Nat) : Nat := 0x10e001c + 0xf0000 * i
def ENG_HSTALL_CNT.COUNT (i : Nat) : Fld := ⟨0x10e001c + 0xf0000 * i, 31, 0⟩
/-- Offset of `ENG_STRETRY_CNT`. -/
def ENG_STRETRY_CNT.adr (i : Nat) : Nat := 0x10e0024 + 0xf0000 * i
def ENG_STRETRY_CNT.COUNT (i : Nat) : Fld := ⟨0x10e0024 + 0xf0000 * i, 31, 0⟩
/-- Offset of `ENG_PEG`. -/
def ENG_PEG.adr (i : Nat) : Nat := 0x10e0020 + 0xf0000 * i
def ENG_PEG.PEG (i : Nat) : Fld := ⟨0x10e0020 + 0xf0000 * i, 31, 0⟩
/-- Offset of `ENG_LFAULT`. -/
def ENG_LFAULT.adr (i : Nat) : Nat := 0x10e0028 + 0xf0000 * i
def ENG_LFAULT.PARITY (i : Nat) : Fld := ⟨0x10e0028 + 0xf0000 * i, 31, 16⟩
def ENG_LFAULT.CONFIRMED (i : Nat) : Fld := ⟨0x10e0028 + 0xf0000 * i, 15, 0⟩
/-- Offset of `ENG_DOORBELL`. -/
def ENG_DOORBELL.adr (i : Nat) : Nat := 0x10e002c + 0xf0000 * i
def ENG_DOORBELL.VALUE (i : Nat) : Fld := ⟨0x10e002c + 0xf0000 * i, 31, 0⟩
/-- Offset of `ENG_GRUN`. -/
def ENG_GRUN.adr : Nat := 0x1ff0000
def ENG_GRUN.VALUE : Fld := ⟨0x1ff0000, 31, 0⟩
/-- Offset of `ENG_GSTOP`. -/
def ENG_GSTOP.adr : Nat := 0x1ff0004
def ENG_GSTOP.VALUE : Fld := ⟨0x1ff0004, 31, 0⟩

/-- Reset thresholds of rail `i` (R444): warning in [31:16], reset in [15:0], mV or per cent. -/
def supThrReset (i : Nat) : Nat :=
  ([(700, 660), (750, 710), (1710, 1620), (95, 90), (95, 90), (95, 90), (95, 90), (3140, 2970), (855, 810),
    (855, 810), (1140, 1080), (855, 810), (1000, 950), (470, 450)].getD i (0, 0)).1 * 65536 +
  ([(700, 660), (750, 710), (1710, 1620), (95, 90), (95, 90), (95, 90), (95, 90), (3140, 2970), (855, 810),
    (855, 810), (1140, 1080), (855, 810), (1000, 950), (470, 450)].getD i (0, 0)).2

/-- Reset of word `w` of scene buffer descriptor `i` (R184): SB0-SB15 in the last 1 MiB of the yard; SB16-SB63
have no capacity while no SDRAM is fitted. -/
def scnBufReset (w i : Nat) : Nat :=
  match w with
  | 0 => if i < 16 then 0x1F00000 + 0x10000 * i else 0
  | 1 => 0
  | 2 => if i < 16 then 4096 else 0
  | _ => 0

/-- Reset of word 0 of candidate `i` (R322): EN, PHALIGN, QSW, QUAL, PRIO and TOL = 500. -/
def refCandReset0 (i : Nat) : Nat :=
  let r : Nat × Nat × Nat × Nat × Nat :=
    [(1, 0, 1, 32, 15), (1, 0, 1, 200, 4), (1, 0, 1, 160, 5), (1, 1, 1, 160, 6), (1, 1, 0, 0, 3), (1, 1, 0, 0, 1),
     (1, 1, 0, 0, 2), (0, 0, 1, 64, 7), (0, 0, 1, 64, 8), (0, 0, 1, 64, 9), (0, 0, 1, 64, 10)].getD i (0, 0, 0, 0, 0)
  r.1 * 2 ^ 31 + r.2.1 * 2 ^ 30 + r.2.2.1 * 2 ^ 29 + r.2.2.2.1 * 2 ^ 20 + r.2.2.2.2 * 2 ^ 16 + 500

/-- Reset of word 1 of every candidate (R322): WTR = 10, PORT = 0, NRATE = 7. -/
def refCandReset1 : Nat := 10 * 65536 + 7

/-- Reset of MTX_XMCFGm (R394): class in bit 31 (1 = critical), weight in [3:0]. -/
def mtxMasterReset (i : Nat) : Nat :=
  if i < 16 then 0x80000002 else [4, 8, 0x80000004, 0x80000004, 0x80000004, 1, 2].getD (i - 16) 0

/-- One row of the register table: words at `base + s1 * i + s2 * j` for `i < n1`, `j < n2`, reset value by index
`i * n2 + j`, the bits a host write may change (RW, RW-S), the W1C bits, and whether it is an RO-P counter. -/
structure RegRow where
  base : Nat
  s1 : Nat
  n1 : Nat
  s2 : Nat
  n2 : Nat
  reset : Nat → Nat
  rw : Nat
  w1c : Nat
  ctr : Bool

/-- The index of offset `off` in row `r`, when the row holds it. -/
def RegRow.index? (r : RegRow) (off : Nat) : Option Nat :=
  if off < r.base then none
  else
    let d := off - r.base
    let i := d / r.s1
    let e := d % r.s1
    if i < r.n1 ∧ e % r.s2 = 0 ∧ e / r.s2 < r.n2 then some (i * r.n2 + e / r.s2) else none

/-- Rows of the register table, BAR0 offsets from 0x000000. -/
def regRows0a : List RegRow := [
  ⟨0, 4, 1, 4, 1, (fun _ => 0x86161210), 0, 0, false⟩,
  ⟨0x10, 4, 1, 4, 1, (fun _ => 0), 0, 0, false⟩,
  ⟨0x20, 4, 1, 4, 1, (fun _ => 0x103), 0x307, 0, false⟩,
  ⟨0x28, 4, 1, 4, 1, (fun _ => 0), 0, 0, false⟩,
  ⟨0x2c, 4, 1, 4, 1, (fun _ => 0), 0, 0, false⟩,
  ⟨0x30, 4, 1, 4, 1, (fun _ => 0), 0, 0, false⟩,
  ⟨0x34, 4, 1, 4, 1, (fun _ => 0), 0, 0, false⟩,
  ⟨0x38, 4, 1, 4, 1, (fun _ => 0), 0, 0, false⟩,
  ⟨0x40, 4, 1, 4, 1, (fun _ => 0), 0, 0, false⟩,
  ⟨0x60, 4, 1, 4, 1, (fun _ => 0), 0, 0, false⟩,
  ⟨0x70, 4, 8, 4, 1, (fun _ => 0), 0, 0, false⟩,
  ⟨0x90, 4, 1, 4, 1, (fun _ => 0), 0, 0, false⟩,
  ⟨0x94, 4, 1, 4, 1, (fun _ => 0), 0, 0, false⟩,
  ⟨0x98, 4, 1, 4, 1, (fun _ => 0), 0, 0, false⟩,
  ⟨0xa0, 4, 8, 4, 1, (fun _ => 0), 0, 0, false⟩,
  ⟨0xc0, 4, 1, 4, 1, (fun _ => 0), 0xffffffff, 0, false⟩,
  ⟨0xc4, 4, 1, 4, 1, (fun _ => 0), 0, 0, false⟩,
  ⟨0xfc, 4, 1, 4, 1, (fun _ => 0), 0, 0, false⟩,
  ⟨0x200, 4, 0xe, 4, 1, (fun i => supThrReset i), 0xffffffff, 0, false⟩,
  ⟨0x240, 4, 1, 4, 1, (fun _ => 0x30040), 0xbfffffff, 0, false⟩,
  ⟨0x280, 4, 0xe, 4, 1, (fun _ => 0), 0, 0, true⟩,
  ⟨0x2c0, 4, 1, 4, 1, (fun _ => 0), 0, 0xffffffff, false⟩,
  ⟨0x300, 4, 1, 4, 1, (fun _ => 0x640000), 0xff0000, 0, false⟩,
  ⟨0x310, 4, 1, 4, 1, (fun _ => 0), 0, 0, true⟩]

/-- Rows of the register table, BAR0 offsets from 0x000000. -/
def regRows0b : List RegRow := [
  ⟨0x314, 4, 1, 4, 1, (fun _ => 0), 0, 0xffffffff, false⟩]

/-- Rows of the register table, BAR0 offsets from 0x100000. -/
def regRows1a : List RegRow := [
  ⟨0x100000, 4, 1, 4, 1, (fun _ => 0), 0, 0, false⟩,
  ⟨0x100004, 4, 1, 4, 1, (fun _ => 0), 0, 0, false⟩,
  ⟨0x100008, 4, 0xe, 4, 1, (fun _ => 0), 0, 0, false⟩,
  ⟨0x100040, 4, 1, 4, 1, (fun _ => 0), 0, 0, false⟩,
  ⟨0x100044, 4, 1, 4, 1, (fun _ => 0), 0, 0, false⟩,
  ⟨0x100060, 4, 8, 4, 1, (fun _ => 0), 0, 0, false⟩,
  ⟨0x100080, 4, 8, 4, 1, (fun _ => 0), 0, 0, false⟩,
  ⟨0x1000a0, 4, 1, 4, 1, (fun _ => 0), 0, 0, false⟩,
  ⟨0x1000c0, 4, 8, 4, 1, (fun _ => 0), 0xffffffff, 0, false⟩,
  ⟨0x1000e0, 4, 1, 4, 1, (fun _ => 0), 0xf, 0, false⟩,
  ⟨0x1000fc, 4, 1, 4, 1, (fun _ => 0), 0, 0, false⟩,
  ⟨0x100110, 4, 1, 4, 1, (fun _ => 0), 0, 0, true⟩,
  ⟨0x100114, 4, 1, 4, 1, (fun _ => 0), 0, 0, true⟩,
  ⟨0x100118, 4, 1, 4, 1, (fun _ => 0), 0, 0xffffffff, false⟩,
  ⟨0x100400, 4, 0x100, 4, 1, (fun _ => 0), 0xc000007f, 0, false⟩,
  ⟨0x101000, 0x20, 0x80, 4, 1, (fun _ => 0), 0xffffffff, 0, false⟩,
  ⟨0x101004, 0x20, 0x80, 4, 1, (fun _ => 0), 0xffffffff, 0, false⟩,
  ⟨0x101008, 0x20, 0x80, 4, 1, (fun _ => 0), 0xfffe3f80, 0, false⟩,
  ⟨0x10100c, 0x20, 0x80, 4, 1, (fun _ => 0), 0, 0, false⟩,
  ⟨0x101010, 0x20, 0x80, 4, 1, (fun _ => 0), 0, 0, false⟩,
  ⟨0x101014, 0x20, 0x80, 4, 1, (fun _ => 0), 0, 0, false⟩,
  ⟨0x101018, 0x20, 0x80, 4, 1, (fun _ => 0), 0, 0, false⟩,
  ⟨0x10101c, 0x20, 0x80, 4, 1, (fun _ => 0), 0, 0, false⟩,
  ⟨0x102000, 4, 0x80, 4, 1, (fun _ => 0), 0, 0, false⟩]

/-- Rows of the register table, BAR0 offsets from 0x100000. -/
def regRows1b : List RegRow := [
  ⟨0x103000, 4, 0x80, 4, 1, (fun _ => 0), 0, 0, true⟩,
  ⟨0x103200, 4, 4, 4, 1, (fun _ => 0), 0, 0xffffffff, false⟩]

/-- Rows of the register table, BAR0 offsets from 0x200000. -/
def regRows2 : List RegRow := [
  ⟨0x200000, 4, 1, 4, 1, (fun _ => 0), 0, 0, false⟩,
  ⟨0x200004, 4, 1, 4, 1, (fun _ => 0), 0, 0, false⟩,
  ⟨0x200008, 4, 1, 4, 1, (fun _ => 0), 0, 0, false⟩,
  ⟨0x200040, 4, 0x10, 4, 1, (fun _ => 0xc803e8), 0xffffffff, 0, false⟩,
  ⟨0x2000fc, 4, 1, 4, 1, (fun _ => 0), 0, 0, false⟩,
  ⟨0x200100, 4, 1, 4, 1, (fun _ => 0x100040), 0x31ffff, 0, false⟩,
  ⟨0x200104, 4, 1, 4, 1, (fun _ => 0), 0, 0, false⟩,
  ⟨0x200108, 4, 1, 4, 1, (fun _ => 0), 0, 0, false⟩,
  ⟨0x200110, 4, 1, 4, 1, (fun _ => 0), 0, 0, true⟩,
  ⟨0x200114, 4, 1, 4, 1, (fun _ => 0), 0, 0, true⟩,
  ⟨0x200118, 4, 1, 4, 1, (fun _ => 0), 0, 0xffffffff, false⟩,
  ⟨0x200200, 0x10, 0x10, 4, 1, (fun _ => 0), 0xf0000100, 0, false⟩,
  ⟨0x200204, 0x10, 0x10, 4, 1, (fun _ => 0x186a0), 0xffffff, 0, false⟩,
  ⟨0x200208, 0x10, 0x10, 4, 1, (fun _ => 0xf830), 0xffff, 0, false⟩,
  ⟨0x20020c, 0x10, 0x10, 4, 1, (fun i => i + 1), 0xffffffff, 0, false⟩,
  ⟨0x210000, 0x10, 0x4000, 4, 1, (fun _ => 0x7fff), 0xffff7fff, 0, false⟩,
  ⟨0x210004, 0x10, 0x4000, 4, 1, (fun _ => 0), 0, 0, false⟩,
  ⟨0x210008, 0x10, 0x4000, 4, 1, (fun _ => 0), 0, 0, false⟩,
  ⟨0x250000, 4, 0x1000, 4, 1, (fun _ => 0), 0xfff07fff, 0, false⟩,
  ⟨0x260000, 8, 0x1000, 4, 1, (fun _ => 0x80008000), 0, 0, false⟩,
  ⟨0x260004, 8, 0x1000, 4, 1, (fun _ => 0x80008000), 0, 0, false⟩,
  ⟨0x280000, 4, 0x8000, 4, 1, (fun _ => 0), 0, 0, false⟩]

/-- Rows of the register table, BAR0 offsets from 0x300000. -/
def regRows3a : List RegRow := [
  ⟨0x300000, 4, 1, 4, 1, (fun _ => 0), 0, 0, false⟩,
  ⟨0x300004, 4, 1, 4, 1, (fun _ => 0x2001e0), 0x31ffff, 0, false⟩,
  ⟨0x300008, 4, 1, 4, 1, (fun _ => 0), 0, 0, false⟩,
  ⟨0x300080, 4, 1, 4, 1, (fun _ => 0), 0, 0, false⟩,
  ⟨0x300084, 4, 1, 4, 1, (fun _ => 0), 1, 0, false⟩,
  ⟨0x300088, 4, 1, 4, 1, (fun _ => 0), 0, 0, false⟩,
  ⟨0x30008c, 4, 1, 4, 1, (fun _ => 0), 0, 0, false⟩,
  ⟨0x300090, 4, 1, 4, 1, (fun _ => 0), 0, 0, false⟩,
  ⟨0x300094, 4, 1, 4, 1, (fun _ => 0), 0, 0, false⟩,
  ⟨0x3000fc, 4, 1, 4, 1, (fun _ => 0), 0, 0, false⟩,
  ⟨0x300100, 4, 1, 4, 1, (fun _ => 0x2001e0), 0x31ffff, 0, false⟩,
  ⟨0x300104, 4, 1, 4, 1, (fun _ => 0x400), 0x31ffff, 0, false⟩,
  ⟨0x300108, 4, 1, 4, 1, (fun _ => 0), 0, 0, false⟩,
  ⟨0x300110, 4, 1, 4, 1, (fun _ => 0), 0, 0, true⟩,
  ⟨0x300114, 4, 1, 4, 1, (fun _ => 0), 0, 0, true⟩,
  ⟨0x300118, 4, 1, 4, 1, (fun _ => 0), 0, 0, true⟩,
  ⟨0x30011c, 4, 1, 4, 1, (fun _ => 0), 0, 0xffffffff, false⟩,
  ⟨0x300200, 4, 1, 4, 1, (fun _ => 2), 3, 0, false⟩,
  ⟨0x300210, 4, 1, 4, 1, (fun _ => 0), 0, 0, true⟩,
  ⟨0x300214, 4, 1, 4, 1, (fun _ => 0), 0, 0, true⟩,
  ⟨0x300218, 4, 1, 4, 1, (fun _ => 0), 0, 0, true⟩,
  ⟨0x30021c, 4, 1, 4, 1, (fun _ => 0), 0, 0xffffffff, false⟩,
  ⟨0x301000, 0x10, 0x40, 4, 1, (fun i => scnBufReset 0 i), 0xffffffff, 0, false⟩,
  ⟨0x301004, 0x10, 0x40, 4, 1, (fun i => scnBufReset 1 i), 0xff, 0, false⟩]

/-- Rows of the register table, BAR0 offsets from 0x300000. -/
def regRows3b : List RegRow := [
  ⟨0x301008, 0x10, 0x40, 4, 1, (fun i => scnBufReset 2 i), 0x1ffff, 0, false⟩,
  ⟨0x30100c, 0x10, 0x40, 4, 1, (fun i => scnBufReset 3 i), 0x1ffff, 0, false⟩,
  ⟨0x380000, 4, 1, 4, 1, (fun _ => 0), 0, 0, false⟩,
  ⟨0x380004, 4, 1, 4, 1, (fun _ => 0x100064), 0x7f07ff, 0, false⟩,
  ⟨0x380008, 4, 1, 4, 1, (fun _ => 0), 0, 0, false⟩,
  ⟨0x380080, 4, 0x10, 4, 1, (fun _ => 0x80), 0xffffffff, 0, false⟩,
  ⟨0x3800c0, 4, 1, 4, 1, (fun _ => 0), 0, 0, false⟩,
  ⟨0x3800fc, 4, 1, 4, 1, (fun _ => 0), 0, 0, false⟩,
  ⟨0x380100, 4, 1, 4, 1, (fun _ => 1), 1, 0, false⟩,
  ⟨0x380104, 4, 1, 4, 1, (fun _ => 0), 0, 0, false⟩,
  ⟨0x380110, 4, 1, 4, 1, (fun _ => 0), 0, 0, true⟩,
  ⟨0x380118, 4, 1, 4, 1, (fun _ => 0), 0, 0xffffffff, false⟩,
  ⟨0x380400, 4, 0x10, 4, 1, (fun _ => 0x80), 0xffffffff, 0, false⟩,
  ⟨0x380440, 4, 1, 4, 1, (fun _ => 0x2001e0), 0x31ffff, 0, false⟩,
  ⟨0x380480, 4, 0x10, 4, 1, (fun _ => 0), 0, 0, true⟩,
  ⟨0x3804c0, 4, 1, 4, 1, (fun _ => 0), 0, 0xffffffff, false⟩,
  ⟨0x390000, 0x10, 0x400, 4, 1, (fun _ => 0x1000), 0xffff7fff, 0, false⟩,
  ⟨0x390004, 0x10, 0x400, 4, 1, (fun _ => 0x64), 0x83ff07ff, 0, false⟩,
  ⟨0x394000, 4, 0x400, 4, 1, (fun _ => 0), 0, 0, false⟩,
  ⟨0x3a0000, 4, 0x2408, 4, 1, (fun _ => 0), 0, 0, true⟩,
  ⟨0x3aa000, 4, 0x121, 4, 1, (fun _ => 0), 0, 0xffffffff, false⟩]

/-- Rows of the register table, BAR0 offsets from 0x400000. -/
def regRows4a : List RegRow := [
  ⟨0x400000, 0x1000, 0x20, 4, 1, (fun _ => 0x1800000), 0xffc00000, 0, false⟩,
  ⟨0x400004, 0x1000, 0x20, 4, 1, (fun _ => 0xffffffff), 0xffffffff, 0, false⟩,
  ⟨0x400008, 0x1000, 0x20, 4, 1, (fun _ => 0xffffffff), 0xffffffff, 0, false⟩,
  ⟨0x40000c, 0x1000, 0x20, 4, 1, (fun _ => 0), 0, 0, false⟩,
  ⟨0x400010, 0x1000, 0x20, 4, 1, (fun _ => 0), 0, 0, false⟩,
  ⟨0x400014, 0x1000, 0x20, 4, 1, (fun _ => 0), 0, 0, false⟩,
  ⟨0x400018, 0x1000, 0x20, 4, 1, (fun _ => 0), 0, 0, false⟩,
  ⟨0x4000fc, 0x1000, 0x20, 4, 1, (fun _ => 0), 0, 0, false⟩,
  ⟨0x400100, 0x1000, 0x20, 4, 1, (fun _ => 0x1800000), 0xffc00000, 0, false⟩,
  ⟨0x400104, 0x1000, 0x20, 4, 1, (fun _ => 0xffffffff), 0xffffffff, 0, false⟩,
  ⟨0x400108, 0x1000, 0x20, 4, 1, (fun _ => 0xffffffff), 0xffffffff, 0, false⟩,
  ⟨0x40010c, 0x1000, 0x20, 4, 1, (fun _ => 0x40400), 0x7fff80, 0, false⟩,
  ⟨0x400110, 0x1000, 0x20, 4, 1, (fun _ => 0), 0, 0, false⟩,
  ⟨0x400114, 0x1000, 0x20, 4, 1, (fun _ => 0), 0, 0, false⟩,
  ⟨0x400118, 0x1000, 0x20, 4, 1, (fun _ => 0), 0, 0, false⟩,
  ⟨0x40011c, 0x1000, 0x20, 4, 1, (fun _ => 0), 0, 0, false⟩,
  ⟨0x400120, 0x1000, 0x20, 4, 1, (fun _ => 0), 0, 0, true⟩,
  ⟨0x400124, 0x1000, 0x20, 4, 1, (fun _ => 0), 0, 0, true⟩,
  ⟨0x400128, 0x1000, 0x20, 4, 1, (fun _ => 0), 0, 0, true⟩,
  ⟨0x40012c, 0x1000, 0x20, 4, 1, (fun _ => 0), 0, 0xffffffff, false⟩,
  ⟨0x440000, 4, 0x10, 4, 1, (fun _ => 0x30), 0x800003ff, 0, false⟩,
  ⟨0x440040, 4, 0x10, 4, 1, (fun _ => 0), 0xffffffff, 0, false⟩,
  ⟨0x440080, 4, 1, 4, 1, (fun _ => 0), 0, 0, false⟩,
  ⟨0x4400fc, 4, 1, 4, 1, (fun _ => 0), 0, 0, false⟩]

/-- Rows of the register table, BAR0 offsets from 0x400000. -/
def regRows4b : List RegRow := [
  ⟨0x440100, 4, 0x10, 4, 1, (fun _ => 0x30), 0x800003ff, 0, false⟩,
  ⟨0x440200, 4, 1, 4, 1, (fun _ => 0x1d00000), 0xffffffff, 0, false⟩,
  ⟨0x440204, 4, 1, 4, 1, (fun _ => 0x200000), 0xffffffff, 0, false⟩,
  ⟨0x441000, 0x40, 0x10, 4, 0x10, (fun _ => 0), 0xc0000fff, 0, false⟩,
  ⟨0x442000, 0x40, 0x10, 4, 0x10, (fun _ => 0), 0, 0, true⟩,
  ⟨0x442400, 0x40, 0x10, 4, 0x10, (fun _ => 0), 0, 0, true⟩,
  ⟨0x442800, 0x40, 0x10, 4, 0x10, (fun _ => 0), 0, 0, true⟩,
  ⟨0x442c00, 4, 0x10, 4, 1, (fun _ => 0), 0, 0xffffffff, false⟩,
  ⟨0x442c40, 4, 0x10, 4, 1, (fun _ => 0), 0, 0xffffffff, false⟩,
  ⟨0x442c80, 4, 0x10, 4, 1, (fun _ => 0), 0, 0xffffffff, false⟩]

/-- Rows of the register table, BAR0 offsets from 0x500000. -/
def regRows5 : List RegRow := [
  ⟨0x500000, 4, 0x20, 4, 1, (fun _ => 0), 0x8000003f, 0, false⟩,
  ⟨0x500080, 4, 1, 4, 1, (fun _ => 1), 1, 0, false⟩,
  ⟨0x500084, 4, 1, 4, 1, (fun _ => 0), 0, 0, false⟩,
  ⟨0x5000fc, 4, 1, 4, 1, (fun _ => 0), 0, 0, false⟩,
  ⟨0x500100, 8, 0x40, 4, 1, (fun _ => 0), 0xf0000fff, 0, false⟩,
  ⟨0x500104, 8, 0x40, 4, 1, (fun _ => 0x64), 0xffff, 0, false⟩,
  ⟨0x500400, 4, 0x40, 4, 1, (fun _ => 0), 0, 0, false⟩,
  ⟨0x500500, 4, 0x40, 4, 1, (fun _ => 0), 0, 0, false⟩,
  ⟨0x500600, 4, 0x40, 4, 1, (fun _ => 0), 0, 0, true⟩,
  ⟨0x500700, 4, 0x40, 4, 1, (fun _ => 0), 0, 0, true⟩,
  ⟨0x500800, 4, 0x40, 4, 1, (fun _ => 0), 0, 0, true⟩,
  ⟨0x500900, 4, 2, 4, 1, (fun _ => 0), 0, 0xffffffff, false⟩,
  ⟨0x500908, 4, 2, 4, 1, (fun _ => 0), 0, 0xffffffff, false⟩,
  ⟨0x500910, 4, 2, 4, 1, (fun _ => 0), 0, 0xffffffff, false⟩,
  ⟨0x501000, 4, 0x400, 4, 1, (fun _ => 0), 0xfffffc3f, 0, false⟩]

/-- Rows of the register table, BAR0 offsets from 0x600000. -/
def regRows6 : List RegRow := [
  ⟨0x600000, 4, 1, 4, 1, (fun _ => 0), 0xc0000000, 0, false⟩,
  ⟨0x600004, 4, 1, 4, 1, (fun _ => 0), 0, 0, false⟩,
  ⟨0x600008, 4, 1, 4, 1, (fun _ => 0), 0, 0, false⟩,
  ⟨0x6000fc, 4, 1, 4, 1, (fun _ => 0), 0, 0, false⟩,
  ⟨0x600100, 4, 1, 4, 1, (fun _ => 0x10190064), 0xffffffff, 0, false⟩,
  ⟨0x600104, 4, 1, 4, 1, (fun _ => 0x3e80000), 0xffff0000, 0, false⟩,
  ⟨0x600108, 4, 1, 4, 1, (fun _ => 0), 0x80003fff, 0, false⟩,
  ⟨0x60010c, 4, 1, 4, 1, (fun _ => 0), 0, 0, false⟩,
  ⟨0x600110, 4, 1, 4, 1, (fun _ => 0), 0, 0, false⟩,
  ⟨0x600114, 4, 1, 4, 1, (fun _ => 0), 0, 0, false⟩,
  ⟨0x600120, 4, 1, 4, 1, (fun _ => 0), 0, 0, true⟩,
  ⟨0x600124, 4, 1, 4, 1, (fun _ => 0), 0, 0, true⟩,
  ⟨0x600128, 4, 1, 4, 1, (fun _ => 0), 0, 0, true⟩,
  ⟨0x60012c, 4, 1, 4, 1, (fun _ => 0), 0, 0, true⟩,
  ⟨0x600130, 4, 1, 4, 1, (fun _ => 0), 0, 0, true⟩,
  ⟨0x600134, 4, 1, 4, 1, (fun _ => 0), 0, 0, true⟩,
  ⟨0x600138, 4, 1, 4, 1, (fun _ => 0), 0, 0, true⟩,
  ⟨0x60013c, 4, 1, 4, 1, (fun _ => 0), 0, 0xffffffff, false⟩,
  ⟨0x600400, 4, 0x40, 4, 1, (fun _ => 0), 0, 0, false⟩,
  ⟨0x601000, 4, 0x400, 4, 1, (fun _ => 0), 0, 0, false⟩,
  ⟨0x602000, 4, 0x2000, 4, 1, (fun _ => 0), 0, 0, false⟩,
  ⟨0x60a000, 4, 0x600, 4, 1, (fun _ => 0), 0xffffffff, 0, false⟩,
  ⟨0x610000, 4, 0x6000, 4, 1, (fun _ => 0), 0xff801fff, 0, false⟩,
  ⟨0x630000, 4, 0x6000, 4, 1, (fun _ => 0), 0xff801fff, 0, false⟩]

/-- Rows of the register table, BAR0 offsets from 0x700000. -/
def regRows7a : List RegRow := [
  ⟨0x700000, 4, 1, 4, 1, (fun _ => 0), 0xffff, 0, false⟩,
  ⟨0x700004, 4, 1, 4, 1, (fun _ => 0), 0, 0, false⟩,
  ⟨0x700008, 4, 1, 4, 1, (fun _ => 0x3e80000), 0xfffff000, 0, false⟩,
  ⟨0x7000fc, 4, 1, 4, 1, (fun _ => 0), 0, 0, false⟩,
  ⟨0x700104, 4, 1, 4, 1, (fun _ => 0), 0, 0, false⟩,
  ⟨0x700108, 4, 1, 4, 1, (fun _ => 7), 0xf, 0, false⟩,
  ⟨0x70010c, 4, 1, 4, 1, (fun _ => 0x9ea8), 0xffff, 0, false⟩,
  ⟨0x700110, 4, 1, 4, 1, (fun _ => 0x1700000), 0xffffffff, 0, false⟩,
  ⟨0x700114, 4, 1, 4, 1, (fun _ => 0x600000), 0xffffffff, 0, false⟩,
  ⟨0x700118, 4, 1, 4, 1, (fun _ => 0), 0xffffffff, 0, false⟩,
  ⟨0x70011c, 4, 1, 4, 1, (fun _ => 0), 0xffffffff, 0, false⟩,
  ⟨0x700200, 0x40, 4, 4, 1, (fun _ => 0), 0xffffffff, 0, false⟩,
  ⟨0x700204, 0x40, 4, 4, 1, (fun _ => 0), 0xffff, 0, false⟩,
  ⟨0x700208, 0x40, 4, 4, 1, (fun _ => 0), 0xffffffff, 0, false⟩,
  ⟨0x70020c, 0x40, 4, 4, 1, (fun _ => 0), 0xffffffff, 0, false⟩,
  ⟨0x700210, 0x40, 4, 4, 1, (fun _ => 0), 0xffffffff, 0, false⟩,
  ⟨0x700214, 0x40, 4, 4, 1, (fun _ => 0), 0xf0001fff, 0, false⟩,
  ⟨0x700220, 0x40, 4, 4, 1, (fun _ => 0), 0, 0, true⟩,
  ⟨0x700224, 0x40, 4, 4, 1, (fun _ => 0), 0, 0, true⟩,
  ⟨0x700228, 0x40, 4, 4, 1, (fun _ => 0), 0, 0, true⟩,
  ⟨0x70022c, 0x40, 4, 4, 1, (fun _ => 0), 0, 0, true⟩,
  ⟨0x700230, 0x40, 4, 4, 1, (fun _ => 0), 0, 0, true⟩,
  ⟨0x700234, 0x40, 4, 4, 1, (fun _ => 0), 0, 0xffffffff, false⟩,
  ⟨0x700400, 0x20, 4, 4, 1, (fun _ => 0), 0, 0, false⟩]

/-- Rows of the register table, BAR0 offsets from 0x700000. -/
def regRows7b : List RegRow := [
  ⟨0x700404, 0x20, 4, 4, 1, (fun _ => 0), 0, 0, false⟩,
  ⟨0x700408, 0x20, 4, 4, 1, (fun _ => 0), 0, 0, false⟩,
  ⟨0x70040c, 0x20, 4, 4, 1, (fun _ => 0), 0, 0, false⟩,
  ⟨0x700410, 0x20, 4, 4, 1, (fun _ => 0), 0, 0, false⟩,
  ⟨0x700414, 0x20, 4, 4, 1, (fun _ => 0), 0, 0, false⟩,
  ⟨0x710000, 0x20, 0x1000, 4, 1, (fun _ => 0), 0xffffff00, 0, false⟩,
  ⟨0x710004, 0x20, 0x1000, 4, 1, (fun _ => 0), 0xffffffff, 0, false⟩,
  ⟨0x710008, 0x20, 0x1000, 4, 1, (fun _ => 0), 0xffffffff, 0, false⟩,
  ⟨0x71000c, 0x20, 0x1000, 4, 1, (fun _ => 0), 0xffff8fff, 0, false⟩,
  ⟨0x710010, 0x20, 0x1000, 4, 1, (fun _ => 0), 0xffffffff, 0, false⟩,
  ⟨0x710014, 0x20, 0x1000, 4, 1, (fun _ => 0), 0xffff1fff, 0, false⟩,
  ⟨0x710018, 0x20, 0x1000, 4, 1, (fun _ => 0), 0x800fffff, 0, false⟩,
  ⟨0x71001c, 0x20, 0x1000, 4, 1, (fun _ => 0), 0xfff, 0, false⟩,
  ⟨0x730000, 0x20, 0x1000, 4, 1, (fun _ => 0), 0xffffff00, 0, false⟩,
  ⟨0x730004, 0x20, 0x1000, 4, 1, (fun _ => 0), 0xffffffff, 0, false⟩,
  ⟨0x730008, 0x20, 0x1000, 4, 1, (fun _ => 0), 0xffffffff, 0, false⟩,
  ⟨0x73000c, 0x20, 0x1000, 4, 1, (fun _ => 0), 0xfffffcff, 0, false⟩,
  ⟨0x730010, 0x20, 0x1000, 4, 1, (fun _ => 0), 0xffffffff, 0, false⟩,
  ⟨0x730014, 0x20, 0x1000, 4, 1, (fun _ => 0), 0xffffffff, 0, false⟩,
  ⟨0x730018, 0x20, 0x1000, 4, 1, (fun _ => 0), 0xfe001fff, 0, false⟩,
  ⟨0x73001c, 0x20, 0x1000, 4, 1, (fun _ => 0), 0, 0, false⟩,
  ⟨0x750000, 8, 0x1000, 4, 1, (fun _ => 0), 0, 0, false⟩,
  ⟨0x750004, 8, 0x1000, 4, 1, (fun _ => 0), 0, 0, false⟩,
  ⟨0x758000, 4, 0x1000, 4, 1, (fun _ => 0), 0, 0, false⟩]

/-- Rows of the register table, BAR0 offsets from 0x700000. -/
def regRows7c : List RegRow := [
  ⟨0x760000, 4, 0x1000, 4, 1, (fun _ => 0), 0, 0, true⟩,
  ⟨0x764000, 4, 0x1000, 4, 1, (fun _ => 0), 0, 0, true⟩,
  ⟨0x768000, 4, 0x1000, 4, 1, (fun _ => 0), 0, 0, true⟩,
  ⟨0x76c000, 4, 0x80, 4, 1, (fun _ => 0), 0, 0xffffffff, false⟩,
  ⟨0x76c200, 4, 0x80, 4, 1, (fun _ => 0), 0, 0xffffffff, false⟩,
  ⟨0x76c400, 4, 0x80, 4, 1, (fun _ => 0), 0, 0xffffffff, false⟩]

/-- Rows of the register table, BAR0 offsets from 0x800000. -/
def regRows8 : List RegRow := [
  ⟨0x800000, 4, 1, 4, 1, (fun _ => 0x70000), 0x77f0f, 0, false⟩,
  ⟨0x800004, 4, 1, 4, 1, (fun _ => 0x180f2000), 0, 0, false⟩,
  ⟨0x800008, 4, 1, 4, 1, (fun _ => 1), 0, 0, false⟩,
  ⟨0x800010, 4, 1, 4, 1, (fun _ => 0), 0, 0, false⟩,
  ⟨0x800014, 4, 1, 4, 1, (fun _ => 0), 0, 0, false⟩,
  ⟨0x800040, 8, 0xb, 4, 1, (fun _ => 0), 0, 0, false⟩,
  ⟨0x800044, 8, 0xb, 4, 1, (fun _ => 0), 0, 0, false⟩,
  ⟨0x8000fc, 4, 1, 4, 1, (fun _ => 0), 0, 0, false⟩,
  ⟨0x800100, 4, 1, 4, 1, (fun _ => 0x20000000), 0xe000030f, 0, false⟩,
  ⟨0x800104, 4, 1, 4, 1, (fun _ => 0x80f00064), 0xfff83fff, 0, false⟩,
  ⟨0x800108, 4, 1, 4, 1, (fun _ => 0x3c0040), 0xffff00ff, 0, false⟩,
  ⟨0x80010c, 4, 1, 4, 1, (fun _ => 0), 0xffffffff, 0, false⟩,
  ⟨0x800110, 4, 1, 4, 1, (fun _ => 0), 0xff, 0, false⟩,
  ⟨0x800114, 4, 1, 4, 1, (fun _ => 0), 0, 0, false⟩,
  ⟨0x800118, 4, 1, 4, 1, (fun _ => 0), 0, 0, false⟩,
  ⟨0x80011c, 4, 1, 4, 1, (fun _ => 0), 0, 0, false⟩,
  ⟨0x800140, 8, 0xb, 4, 1, (fun i => refCandReset0 i), 0xefff1fff, 0, false⟩,
  ⟨0x800144, 8, 0xb, 4, 1, (fun _ => refCandReset1), 0x3ff1f07, 0, false⟩,
  ⟨0x800200, 4, 0xb, 4, 1, (fun _ => 0), 0, 0, true⟩,
  ⟨0x800240, 4, 1, 4, 1, (fun _ => 0), 0, 0, true⟩,
  ⟨0x800244, 4, 1, 4, 1, (fun _ => 0), 0, 0, true⟩,
  ⟨0x800248, 4, 1, 4, 1, (fun _ => 0), 0, 0xffffffff, false⟩]

/-- Rows of the register table, BAR0 offsets from 0x900000. -/
def regRows9 : List RegRow := [
  ⟨0x900000, 4, 1, 4, 1, (fun _ => 0), 0xe00000ff, 0, false⟩,
  ⟨0x900004, 4, 1, 4, 1, (fun _ => 0x8000000), 0, 0, false⟩,
  ⟨0x900010, 4, 5, 4, 1, (fun _ => 0), 0, 0, false⟩,
  ⟨0x90002c, 4, 1, 4, 1, (fun _ => 0), 0, 0, false⟩,
  ⟨0x900030, 4, 7, 4, 1, (fun _ => 0), 0, 0, false⟩,
  ⟨0x9000fc, 4, 1, 4, 1, (fun _ => 0), 0, 0, false⟩,
  ⟨0x900100, 4, 1, 4, 1, (fun _ => 0x1c8000), 0xfffff000, 0, false⟩,
  ⟨0x900104, 4, 1, 4, 1, (fun _ => 0), 0xffffffff, 0, false⟩,
  ⟨0x900108, 4, 1, 4, 1, (fun _ => 0x400), 0xfff, 0, false⟩,
  ⟨0x90010c, 4, 3, 4, 1, (fun _ => 0), 0xffffffff, 0, false⟩,
  ⟨0x900118, 4, 1, 4, 1, (fun _ => 0x64), 0xc00003ff, 0, false⟩,
  ⟨0x90011c, 4, 1, 4, 1, (fun _ => 0x220080f8), 0xffffffff, 0, false⟩,
  ⟨0x900120, 4, 1, 4, 1, (fun _ => 0), 0, 0, false⟩,
  ⟨0x900130, 4, 5, 4, 1, (fun _ => 0), 0, 0, false⟩,
  ⟨0x900180, 4, 1, 4, 1, (fun _ => 0), 0, 0, true⟩,
  ⟨0x900184, 4, 1, 4, 1, (fun _ => 0), 0, 0, true⟩,
  ⟨0x900188, 4, 1, 4, 1, (fun _ => 0), 0, 0, true⟩,
  ⟨0x90018c, 4, 1, 4, 1, (fun _ => 0), 0, 0xffffffff, false⟩,
  ⟨0x900200, 0x20, 4, 4, 1, (fun _ => 0), 0, 0, false⟩,
  ⟨0x900204, 0x20, 4, 4, 1, (fun _ => 0), 0, 0, false⟩,
  ⟨0x900208, 0x20, 4, 4, 1, (fun _ => 0), 0, 0, false⟩,
  ⟨0x90020c, 0x20, 4, 4, 1, (fun _ => 0), 0, 0, false⟩,
  ⟨0x900210, 0x20, 4, 4, 1, (fun _ => 0), 0, 0, false⟩,
  ⟨0x900214, 0x20, 4, 4, 1, (fun _ => 0), 0, 0, false⟩]

/-- Rows of the register table, BAR0 offsets from 0xA00000. -/
def regRowsA : List RegRow := [
  ⟨0xa00000, 4, 1, 4, 1, (fun _ => 0x40000000), 0xc000003f, 0, false⟩,
  ⟨0xa00004, 4, 1, 4, 1, (fun _ => 0), 0, 0, false⟩,
  ⟨0xa00008, 4, 1, 4, 1, (fun _ => 0), 0, 0, false⟩,
  ⟨0xa0000c, 4, 1, 4, 1, (fun _ => 0), 0, 0, false⟩,
  ⟨0xa000fc, 4, 1, 4, 1, (fun _ => 0), 0, 0, false⟩,
  ⟨0xa00100, 4, 1, 4, 1, (fun _ => 0x3c00a), 0xc00ff0ff, 0, false⟩,
  ⟨0xa00104, 4, 1, 4, 1, (fun _ => 0x14000400), 0xffff1fff, 0, false⟩,
  ⟨0xa00140, 4, 0x10, 4, 1, (fun _ => 0), 0xffffffff, 0, false⟩,
  ⟨0xa00200, 4, 0x1c, 4, 1, (fun _ => 0), 0, 0, false⟩,
  ⟨0xa00280, 4, 0x1c, 4, 1, (fun _ => 0), 0, 0, false⟩,
  ⟨0xa00300, 4, 1, 4, 1, (fun _ => 0), 0, 0, true⟩,
  ⟨0xa00304, 4, 1, 4, 1, (fun _ => 0), 0, 0, true⟩,
  ⟨0xa00308, 4, 1, 4, 1, (fun _ => 0), 0, 0, true⟩,
  ⟨0xa0030c, 4, 1, 4, 1, (fun _ => 0), 0, 0, true⟩,
  ⟨0xa00310, 4, 1, 4, 1, (fun _ => 0), 0, 0, true⟩,
  ⟨0xa00314, 4, 1, 4, 1, (fun _ => 0), 0, 0xffffffff, false⟩,
  ⟨0xa00318, 4, 1, 4, 1, (fun _ => 0), 0, 0, false⟩,
  ⟨0xa00400, 0x10, 0x10, 4, 1, (fun _ => 0), 0xffffffff, 0, false⟩,
  ⟨0xa00404, 0x10, 0x10, 4, 1, (fun _ => 0), 0xffffffff, 0, false⟩,
  ⟨0xa00408, 0x10, 0x10, 4, 1, (fun _ => 0), 0xffffffff, 0, false⟩,
  ⟨0xa0040c, 0x10, 0x10, 4, 1, (fun _ => 0), 0xffffffff, 0, false⟩]

/-- Rows of the register table, BAR0 offsets from 0xB00000. -/
def regRowsB : List RegRow := [
  ⟨0xb00000, 4, 1, 4, 1, (fun _ => 0), 0, 0, false⟩,
  ⟨0xb00004, 4, 1, 4, 1, (fun _ => 0), 0, 0, false⟩,
  ⟨0xb00008, 4, 1, 4, 1, (fun _ => 0), 0, 0, false⟩,
  ⟨0xb000fc, 4, 1, 4, 1, (fun _ => 0), 0, 0, false⟩,
  ⟨0xb00100, 4, 0x17, 4, 1, (fun i => mtxMasterReset i), 0x8000000f, 0, false⟩,
  ⟨0xb00180, 4, 0xc, 4, 1, (fun i => if i = 10 then 0x10 else 0x11), 0x1f, 0, false⟩,
  ⟨0xb001c0, 4, 1, 4, 1, (fun _ => 8), 0xff, 0, false⟩,
  ⟨0xb001c4, 4, 1, 4, 1, (fun _ => 0), 0, 0, false⟩,
  ⟨0xb00200, 4, 1, 4, 1, (fun _ => 0), 0, 0, true⟩,
  ⟨0xb00204, 4, 1, 4, 1, (fun _ => 0), 0, 0, true⟩,
  ⟨0xb00208, 4, 1, 4, 1, (fun _ => 0), 0, 0, true⟩,
  ⟨0xb0020c, 4, 1, 4, 1, (fun _ => 0), 0, 0xffffffff, false⟩]

/-- Rows of the register table, BAR0 offsets from 0xC00000. -/
def regRowsC : List RegRow := [
  ⟨0xc00000, 4, 1, 4, 1, (fun _ => 0x80400000), 0, 0, false⟩,
  ⟨0xc00004, 4, 1, 4, 1, (fun _ => 0), 0xff, 0, false⟩,
  ⟨0xc000fc, 4, 1, 4, 1, (fun _ => 0), 0, 0, false⟩,
  ⟨0xc00100, 4, 4, 4, 1, (fun _ => 0), 0xffffffff, 0, false⟩,
  ⟨0xc00110, 4, 1, 4, 1, (fun _ => 0x80020064), 0x83ffffff, 0, false⟩,
  ⟨0xc00114, 4, 1, 4, 1, (fun _ => 0), 0, 0, false⟩,
  ⟨0xc00180, 4, 1, 4, 1, (fun _ => 0), 0, 0, true⟩,
  ⟨0xc00184, 4, 1, 4, 1, (fun _ => 0), 0, 0, true⟩,
  ⟨0xc00188, 4, 1, 4, 1, (fun _ => 0), 0, 0, true⟩,
  ⟨0xc0018c, 4, 1, 4, 1, (fun _ => 0), 0, 0, true⟩,
  ⟨0xc00190, 4, 1, 4, 1, (fun _ => 0), 0, 0, true⟩,
  ⟨0xc00194, 4, 1, 4, 1, (fun _ => 0), 0, 0, true⟩,
  ⟨0xc00198, 4, 1, 4, 1, (fun _ => 0), 0, 0xffffffff, false⟩,
  ⟨0xc00200, 4, 0x17, 4, 1, (fun _ => 0), 0, 0, true⟩,
  ⟨0xc00260, 4, 1, 4, 1, (fun _ => 0), 0, 0xffffffff, false⟩]

/-- Rows of the register table, BAR0 offsets from 0xD00000. -/
def regRowsD : List RegRow := [
  ⟨0xd00000, 4, 1, 4, 1, (fun _ => 0), 0, 0, false⟩,
  ⟨0xd00004, 4, 1, 4, 1, (fun _ => 3), 3, 0, false⟩,
  ⟨0xd000fc, 4, 1, 4, 1, (fun _ => 0), 0, 0, false⟩,
  ⟨0xd00100, 4, 1, 4, 1, (fun _ => 0x10000003), 0xff000003, 0, false⟩,
  ⟨0xd00180, 4, 2, 4, 1, (fun _ => 0), 0, 0, true⟩,
  ⟨0xd00188, 4, 2, 4, 1, (fun _ => 0), 0, 0, true⟩,
  ⟨0xd00190, 4, 1, 4, 1, (fun _ => 0), 0, 0xffffffff, false⟩]

/-- Rows of the register table, BAR0 offsets from 0xE00000. -/
def regRowsE : List RegRow := [
  ⟨0xe00000, 4, 1, 4, 1, (fun _ => 0), 0x8001ffff, 0, false⟩,
  ⟨0xe00004, 4, 1, 4, 1, (fun _ => 0), 0, 0, false⟩,
  ⟨0xe00040, 4, 8, 4, 1, (fun _ => 0), 0xffffff, 0, false⟩,
  ⟨0xe000fc, 4, 1, 4, 1, (fun _ => 0), 0, 0, false⟩,
  ⟨0xe00100, 4, 8, 4, 1, (fun _ => 0x8000000), 0xf8000000, 0, false⟩,
  ⟨0xe00120, 4, 1, 4, 1, (fun _ => 4), 0xe000000f, 0, false⟩,
  ⟨0xe00140, 4, 8, 4, 1, (fun _ => 0), 0xffffff, 0, false⟩,
  ⟨0xe00180, 4, 8, 4, 1, (fun _ => 0), 0, 0, true⟩,
  ⟨0xe001a0, 4, 1, 4, 1, (fun _ => 0), 0, 0xffffffff, false⟩]

/-- Rows of the register table, BAR0 offsets from 0xF00000. -/
def regRowsF : List RegRow := [
  ⟨0xf00000, 4, 1, 4, 1, (fun _ => 0xff), 0xff, 0, false⟩,
  ⟨0xf00004, 4, 1, 4, 1, (fun _ => 0), 0, 0x40000000, false⟩,
  ⟨0xf00008, 4, 1, 4, 1, (fun _ => 0), 0, 0, false⟩,
  ⟨0xf0000c, 4, 1, 4, 1, (fun _ => 0), 0, 0, false⟩,
  ⟨0xf00010, 4, 1, 4, 1, (fun _ => 0), 0x80000fff, 0, false⟩,
  ⟨0xf00040, 4, 0x10, 4, 1, (fun _ => 0), 0, 0, false⟩,
  ⟨0xf000fc, 4, 1, 4, 1, (fun _ => 0), 0, 0, false⟩,
  ⟨0xf00100, 4, 1, 4, 1, (fun _ => 0), 0xc0000000, 0, false⟩,
  ⟨0xf00104, 4, 1, 4, 1, (fun _ => 0), 0xffffffff, 0, false⟩,
  ⟨0xf00108, 4, 1, 4, 1, (fun _ => 0), 0xff, 0, false⟩,
  ⟨0xf0010c, 4, 1, 4, 1, (fun _ => 0xc), 0x1f, 0, false⟩,
  ⟨0xf00180, 4, 1, 4, 1, (fun _ => 0), 0, 0, true⟩,
  ⟨0xf00184, 4, 1, 4, 1, (fun _ => 0), 0, 0, true⟩,
  ⟨0xf00188, 4, 1, 4, 1, (fun _ => 0), 0, 0, true⟩,
  ⟨0xf0018c, 4, 1, 4, 1, (fun _ => 0), 0, 0xffffffff, false⟩,
  ⟨0xf00400, 4, 0x100, 4, 1, (fun _ => 0x80000100), 0x8fffff00, 0, false⟩,
  ⟨0xf01000, 0x20, 0x100, 4, 6, (fun i => if i % 6 = 0 then 0x80000000 else if i % 6 = 1 then 0xC0000000 else 0), 0xc3ffffff, 0, false⟩,
  ⟨0xf03000, 4, 0x100, 4, 1, (fun _ => 0), 0, 0, true⟩,
  ⟨0xf03400, 4, 8, 4, 1, (fun _ => 0), 0, 0xffffffff, false⟩]

/-- Rows of the register table, BAR0 offsets from 0x1000000. -/
def regRows10 : List RegRow := [
  ⟨0x10e0000, 0xf0000, 0x11, 4, 1, (fun _ => 4), 0x1c, 0, false⟩,
  ⟨0x10e0004, 0xf0000, 0x11, 4, 1, (fun _ => 0), 0, 0, false⟩,
  ⟨0x10e0008, 0xf0000, 0x11, 4, 1, (fun _ => 0), 0, 0, false⟩,
  ⟨0x10e000c, 0xf0000, 0x11, 4, 1, (fun _ => 0), 0, 0, false⟩,
  ⟨0x10e0010, 0xf0000, 0x11, 4, 1, (fun _ => 0), 0, 0, true⟩,
  ⟨0x10e0014, 0xf0000, 0x11, 4, 1, (fun _ => 0), 0, 0, true⟩,
  ⟨0x10e0018, 0xf0000, 0x11, 4, 1, (fun _ => 0), 0, 0, true⟩,
  ⟨0x10e001c, 0xf0000, 0x11, 4, 1, (fun _ => 0), 0, 0, true⟩,
  ⟨0x10e0024, 0xf0000, 0x11, 4, 1, (fun _ => 0), 0, 0, true⟩,
  ⟨0x10e0020, 0xf0000, 0x11, 4, 1, (fun _ => 0), 0, 0xffffffff, false⟩,
  ⟨0x10e0028, 0xf0000, 0x11, 4, 1, (fun _ => 0), 0, 0xffffffff, false⟩,
  ⟨0x10e002c, 0xf0000, 0x11, 4, 1, (fun _ => 0), 0, 0, false⟩]

/-- Rows of the register table, BAR0 offsets from 0x1F00000. -/
def regRows1F : List RegRow := [
  ⟨0x1ff0000, 4, 1, 4, 1, (fun _ => 0), 0, 0, false⟩,
  ⟨0x1ff0004, 4, 1, 4, 1, (fun _ => 0), 0, 0, false⟩]

/-- The rows of one 1 MiB part of BAR0 (the engine windows share one list). -/
def regRowsOf (mib : Nat) : List RegRow :=
  match mib with
  | 0 => regRows0a ++ regRows0b
  | 1 => regRows1a ++ regRows1b
  | 2 => regRows2
  | 3 => regRows3a ++ regRows3b
  | 4 => regRows4a ++ regRows4b
  | 5 => regRows5
  | 6 => regRows6
  | 7 => regRows7a ++ regRows7b ++ regRows7c
  | 8 => regRows8
  | 9 => regRows9
  | 10 => regRowsA
  | 11 => regRowsB
  | 12 => regRowsC
  | 13 => regRowsD
  | 14 => regRowsE
  | 15 => regRowsF
  | n => if 16 ≤ n ∧ n ≤ 31 then regRows10 ++ regRows1F else []

/-- The row that lists a register at `off`, with its index in the row. -/
def findRow (off : Nat) : Option (RegRow × Nat) :=
  (regRowsOf (off / 0x100000)).findSome? (fun r => (r.index? off).map (fun i => (r, i)))

/-- The reset value of the register at `off`; an offset at which no register is listed reads 0 (R363). -/
def regReset (off : Nat) : BitVec 32 :=
  match findRow off with
  | some (r, i) => BitVec.ofNat 32 (r.reset i)
  | none => 0

end Sys2Proof.Machine
end

