-- ==== Sys2Proof/Machine/StateGlb.lean ====
section
/-! DEFINITION. Chip-wide state that no register holds: pending mode and rate changes, Basic resets, time (R20-R41, R326). -/

namespace Sys2Proof.Machine

/-- A MODE_SET that has been accepted and is not DONE (R22): the handle, the sample of acceptance, and, once the mode
has changed, the sample at which it did. -/
structure ModePend where
  handle : Nat
  target : Nat
  accepted : Nat
  changedAt : Option Nat
  prev : Nat
  deriving DecidableEq, Repr

/-- A Basic reset in progress (R31): the level register, the function's bit, the sample of the write, and the block
boundary at which it was applied. -/
structure BasicRst where
  lvl : Nat
  bit : Nat
  asked : Nat
  applied : Option Nat
  deriving DecidableEq, Repr

/-- A COUNTER_SNAP that waits for its block boundary (R388): the command's handle (none for a raft snapshot), the
register range taken, the far address, the capacity and the sample of acceptance. -/
structure SnapPend where
  handle : Option Nat
  all : Bool
  off : Nat
  far : Nat
  cap : Nat
  accepted : Nat
  deriving DecidableEq, Repr

/-- Chip-wide state beside the registers. -/
structure GlbSt where
  modePend : Option ModePend
  /-- A cause of automatic entry to SAFE that waits for the next block boundary: SAFE_CAUSE and the sample (R23). -/
  safePend : Option (Nat × Nat)
  /-- An accepted GLB_RATE write: RATE, NB and the applying index (R34). -/
  ratePend : Option (Nat × Nat × Nat)
  resets : List BasicRst
  snaps : List SnapPend
  /-- The last block boundary whose BLOCK_TICK has run. -/
  lastBlock : Nat
  /-- PORST_N is low. -/
  porst : Bool
  /-- A fuse write burns (R24, R469). -/
  burning : Bool
  /-- The ball TEST_EN is high (R479). -/
  testEn : Bool
  /-- Samples since the release of PORST_N; no load of the sample counter moves it. -/
  up : Nat
  deriving DecidableEq, Repr

/-- A time value (R10, R326): seconds, nanoseconds, and the sub-nanosecond fraction in units of 2^-40 ns. -/
structure Time where
  sec : Nat
  ns : Nat
  frac : Nat
  deriving DecidableEq, Repr

/-- The eFuse array (R466): the consumed slots of each setting in order, each with its validity and value; the arming of
R468 (setting, value, code), and the burn in progress (handle, setting, value). -/
structure FuseSt where
  arr : Tbl (List (Bool × Nat))
  armed : Option (Nat × Nat × Nat)
  burn : Option (Nat × Nat × Nat)
  deriving DecidableEq, Repr

/-- Where the boot ROM is (R458, R463). -/
inductive BootPhase where
  /-- Before the release of PORST_N, or held by a crystal fault or factory test. -/
  | idle
  /-- Waiting for BOOT_IMAGE. -/
  | host
  /-- The CE has been started: from flash copy A (0), copy B (1) or the host (2). -/
  | ce (from_ : Nat)
  /-- No source is left. -/
  | failed
  /-- The boot mode has been entered. -/
  | up
  deriving DecidableEq, Repr

/-- The boot ROM: its phase, the BOOT_IMAGE in progress, flash copy B and the channels that would train with it, and the
image version and subsystem IDs of the image that runs. -/
structure BootSt where
  phase : BootPhase
  cmd : Option Nat
  copyB : Option (BootImg × Nat)
  ivr : Nat
  ssid : Word
  /-- Subsystem IDs that configuration space shows (R361). -/
  shown : Word
  deriving DecidableEq, Repr

/-- Fuses of a part never written, and the ROM before the first release of PORST_N. -/
def FuseSt.reset : FuseSt := ⟨[], none, none⟩
def BootSt.reset : BootSt := ⟨.idle, none, none, 0, 0, 0⟩

/-- Chip-wide state after reset. -/
def GlbSt.reset : GlbSt :=
  { modePend := none, safePend := none, ratePend := none, resets := [], snaps := [], lastBlock := 0,
    porst := false, burning := false, testEn := false, up := 0 }

end Sys2Proof.Machine
end

