-- ==== Sys2Proof/Machine/StateHost.lean ====
section
/-! DEFINITION. State of the host interface and of the tally recorder that no register holds (R360-R382, R429-R442). -/

namespace Sys2Proof.Machine

/-- An event as raised: its contents of R376. -/
structure Event where
  code : Nat
  epoch : Nat
  source : Nat
  arg0 : Word
  arg1 : Word
  sidx : Nat
  sec : Nat
  ns : Nat
  deriving DecidableEq, Repr

/-- A completion entry (R367), without the ring's PHASE bit. -/
structure Cpl where
  done : Bool
  acc : Bool
  epoch : Nat
  opcode : Nat
  status : Nat
  handle : Nat
  tag : Word
  sidx : Nat
  d0 : Word
  d1 : Word
  deriving DecidableEq, Repr

/-- The record of an accepted command until its DONE entry is written (R374); `d0` is a detail kept for it. -/
structure Cmd where
  src : Nat
  cring : Nat
  handle : Nat
  opcode : Nat
  tag : Word
  sidx : Nat
  discard : Bool
  sched : Bool
  late : Nat
  d0 : Nat
  deriving DecidableEq, Repr

/-- An entry of a bulk ring in progress (R375). -/
structure Bulk where
  handle : Nat
  toHost : Bool
  haddr : Nat
  faddr : Nat
  len : Nat
  deriving DecidableEq, Repr

/-- What the host interface holds beside its registers. -/
structure HostSt where
  /-- The sixteen words of the direct port (R370), write-only to the host. -/
  port : Tbl Word
  /-- The next sequence of each source (R366); an unlisted source is at 1. -/
  seq : Tbl Nat
  /-- Direct completion FIFO, oldest first (R371). -/
  dcpl : List Cpl
  /-- Direct event FIFO, oldest first, each entry with its LOST count (R371). -/
  devq : List (Event × Nat)
  /-- Events dropped at the direct FIFO since its last entry. -/
  devLost : Nat
  /-- Words 1-7 latched by the last pop of each FIFO. -/
  dcplLatch : List Word
  devqLatch : List Word
  /-- Accepted commands not DONE. -/
  cmds : List Cmd
  /-- Bulk entries in progress. -/
  bulks : List Bulk
  /-- Completions that wait for a full ring, oldest first (R374). -/
  held : List (Nat × Cpl)
  /-- Rings for which HOST_CPL_HELD has been raised since they last drained. -/
  heldRaised : List Nat
  /-- Events dropped for a full event ring since its last entry, by ring. -/
  evLost : Tbl Nat
  /-- Rings whose MSI-X vector is armed (R377). -/
  armed : List Nat
  /-- Submission and bulk rings that a Basic reset of HOST has told to stop fetching (R380). -/
  noFetch : Bool
  /-- A Basic reset of HOST waits for pending commands before the rings take EN = 0 (R380). -/
  draining : Bool
  /-- Words of the MSI-X table; an unlisted vector control word is masked. -/
  msix : Tbl Word
  /-- Vectors with their PBA bit set. -/
  pba : List Nat
  /-- MSI-X messages sent, counted by vector. -/
  msixSent : Tbl Nat
  /-- Words the device has written into host memory, by host byte address. -/
  hostMem : Tbl Word
  /-- The PCIe link is up. -/
  linkUp : Bool
  /-- The area that the last COUNTER_SNAP with ALL = 1 accepted: far address and capacity (R388). -/
  snapArea : Option (Nat × Nat)
  deriving DecidableEq, Repr

/-- An entry of the tally queue (R434): the first event, how many joined, the last sample index. -/
structure TlyQ where
  ev : Event
  count : Nat
  last : Nat
  deriving DecidableEq, Repr

/-- A tally record (R429); the six snapshot words are w9-w14. -/
structure TlyRec where
  ver : Nat
  seq : Nat
  ev : Event
  flags : Nat
  repeatCnt : Nat
  last : Nat
  snaps : List Word
  deriving DecidableEq, Repr

/-- What the tally recorder holds beside its registers. -/
structure TlySt where
  /-- The 4,096 slots of the store; an unlisted slot is empty. -/
  store : Tbl (Option TlyRec)
  /-- The queue of 64 entries, oldest first (R434). -/
  queue : List TlyQ
  /-- The hidden lost count (R434), 0-63. -/
  hidden : Nat
  /-- A loss has raised TLY_LOST and no record has been written since (R434). -/
  lostRaised : Bool
  /-- SEQ of the next new record (R430). -/
  nextSeq : Nat
  /-- SEQ of the most recent record that may still grow; none after a clear or before the first record. -/
  recent : Option Nat
  /-- Tokens missing from each code's full bucket, in units of a sample's share of a second, and the sample index at its
  last refill (R437). -/
  spent : Tbl Nat
  refill : Tbl Nat
  /-- Codes whose next record carries RLIM (R437). -/
  rlim : List Nat
  /-- The slot latched by the last read of TLY_WIN0. -/
  win : List Word
  /-- Mirror writes waiting: far address and the sixteen words (R439). -/
  mirror : List (Nat × List Word)
  deriving DecidableEq, Repr

/-- The host interface after reset. -/
def HostSt.reset : HostSt :=
  { port := [], seq := [], dcpl := [], devq := [], devLost := 0, dcplLatch := [], devqLatch := [], cmds := [],
    bulks := [], held := [], heldRaised := [], evLost := [], armed := [], noFetch := false, draining := false,
    msix := [], pba := [], msixSent := [], hostMem := [], linkUp := true, snapArea := none }

/-- The tally recorder after PORST_N (R429, R430). -/
def TlySt.reset : TlySt :=
  { store := [], queue := [], hidden := 0, lostRaised := false, nextSeq := 0, recent := none, spent := [],
    refill := [], rlim := [], win := [], mirror := [] }

end Sys2Proof.Machine
end

