-- ==== Sys2Proof/Machine/StateLnd.lean ====
section
/-! DEFINITION. State of the landing that no register holds: words, route kerfs, meters and generators (R141-R157,
R170-R175). Sample words are integers in units of 2^-31 (B40, R43). -/

namespace Sys2Proof.Machine

/-- A route kerf in flight (R161, R170, R171): start, span and curve; the arriving source with the frozen weight it had as
a leaving one; the leaving sources with their frozen weights (fixed point); the source shown in FROM; the command behind
it, the sample at which it applied, and whether it had been held. -/
structure RKerf where
  s : Nat
  span : Nat
  curve : Nat
  arr : Nat
  arrFrozen : Int
  leave : List (Nat × Int)
  src0 : Nat
  handle : Option Nat
  applied : Nat
  held : Bool
  deriving DecidableEq, Repr

/-- A route change that has applied and waits in the queue or is held (R172, R173). -/
structure RChange where
  entry : Nat
  src : Nat
  span : Nat
  curve : Nat
  handle : Option Nat
  applied : Nat
  held : Bool
  deriving DecidableEq, Repr

/-- An immediate ROUTE_SET or ROUTE_CLEAR on its way to the next sample tick (R146). -/
structure RouteReq where
  reach : Nat
  handle : Nat
  clear : Bool
  sink : Nat
  src : Nat
  span : Nat
  curve : Nat
  deriving DecidableEq, Repr

/-- A meter's detectors (R152): largest magnitude and largest oversampled magnitude of the block so far, mean square and
its fraction in fixed point, hold level and the sample of its last maximum. -/
structure MeterSt where
  peak : Nat
  tpeak : Nat
  ms : Nat
  hold : Nat
  holdAt : Nat
  /-- The last twelve words, the newest first, for the true-peak detector. -/
  hist : List Int
  deriving DecidableEq, Repr

/-- The settings of a generator that a transition leaves (R156). -/
structure GenSet where
  type : Nat
  phlock : Bool
  freq : Nat
  seed : Nat
  pinkAt : Nat
  deriving DecidableEq, Repr

/-- A generator (R155, R156): phase, level ramp (start sample and factor it left) and transition (start sample and the
settings it leaves); `pinkAt` is the sample at which TYPE became 3. -/
structure GenSt where
  ph : Nat
  rampAt : Option Nat
  rampFrom : Nat
  transAt : Option Nat
  old : Option GenSet
  pinkAt : Nat
  /-- The sample at which BUSY last returned to 0. -/
  idleAt : Option Nat
  deriving DecidableEq, Repr

/-- The landing. -/
structure LndSt where
  /-- The source words of sample n - 1 that the pass of sample n reads (R143). -/
  snap : Tbl Int
  /-- The words that sinks receive for the current sample; an unlisted sink receives 0 (R144). -/
  snk : Tbl Int
  /-- The source in force of each owned entry without a kerf. -/
  inForce : Tbl Nat
  kerfs : Tbl RKerf
  queue : List RChange
  held : List RChange
  reqs : List RouteReq
  meters : Tbl MeterSt
  /-- Meters whose hold is cleared at the next block boundary, and the clear of all of them, with the sample of the write
  (R154). -/
  clear : List (Nat × Nat)
  clearAll : Option Nat
  /-- METER_SET commands that wait for the block boundary, each with its meter. -/
  meterCmds : List (Nat × Nat)
  gens : Tbl GenSt
  deriving DecidableEq, Repr

/-- A meter just restarted (R151). -/
def MeterSt.start (n : Nat) : MeterSt := { peak := 0, tpeak := 0, ms := 0, hold := 0x8000, holdAt := n, hist := [] }

/-- A generator after reset (R155). -/
def GenSt.reset : GenSt :=
  { ph := 0, rampAt := none, rampFrom := 0, transAt := none, old := none, pinkAt := 0, idleAt := none }

/-- The landing after reset. -/
def LndSt.reset : LndSt :=
  { snap := [], snk := [], inForce := [], kerfs := [], queue := [], held := [], reqs := [],
    meters := [], clear := [], clearAll := none, meterCmds := [], gens := [] }

end Sys2Proof.Machine
end

