-- ==== Sys2Proof/Machine/StateOut.lean ====
section
/-! DEFINITION. State of the output stage, the serial ports, the booms and the rate conversion pool that no register holds
(R209-R256). -/

namespace Sys2Proof.Machine

/-- A fade of an output class (R22, R216, R348, R447): its target, its start, span and curve, and the gain it leaves. -/
structure Fade where
  on : Bool
  at_ : Nat
  span : Nat
  curve : Nat
  from_ : Int
  deriving DecidableEq, Repr

/-- Settings that a crossfade of a limiter leaves (R214): the sample at which it starts, the enable, the look-ahead and the gain
in dB with which they go on. -/
structure LimOld where
  at_ : Nat
  en : Bool
  la : Nat
  gdb : Int
  deriving DecidableEq, Repr

/-- A limiter (R212-R214): gain in dB (fixed point), the crossfades in progress, the oldest first, and the largest reduction of
the block so far. -/
structure LimSt where
  gdb : Int
  xf : List LimOld
  gr : Int
  deriving DecidableEq, Repr

/-- A side-tone path (R217-R220): the settings heard, its gain kerf (with `busy`), whether that kerf leads to a switch,
whether its conditions hold, and the high-pass's last input word and output (with 32 fraction bits more). -/
structure PathSt where
  heard : Word
  kerf : KSt
  switching : Bool
  up : Bool
  hx : Int
  hy : Int
  deriving DecidableEq, Repr

/-- The output stage. -/
structure OutSt where
  lims : Tbl LimSt
  /-- LIMIT_SET and LIMIT_CLEAR commands that wait for their crossfade: limiter, handle, DETAIL1. -/
  limCmds : List (Nat × Nat × Nat)
  paths : Tbl PathSt
  /-- The mode mute, the brace and clock-fault mute of TDM and network sinks, and the cold fade-in of every output. -/
  mode : Fade
  brace : Fade
  clk : Fade
  cold : Fade
  /-- The mute of raft add channels and relay contributions in SAFE (R216). -/
  safe : Fade
  /-- The fade-in of the serial ports' sinks at a hot takeover (R348). -/
  hot : Fade
  /-- Output words of the sample that ended last, in units of 2^-31. -/
  words : Tbl Int
  /-- The landing's words of all sinks for the samples before the current one, newest first. -/
  hist : List (Tbl Int)
  /-- Output words of the sinks that transmit channels convert, newest first (R249). -/
  sent : List (Tbl Int)
  deriving DecidableEq, Repr

/-- A serial port (R226-R237). -/
structure TdmSt where
  /-- Consecutive good frames, frames of wrong length, windows out of rate and windows with BCLK too fast. -/
  good : Nat
  bad : Nat
  badRate : Nat
  badBclk : Nat
  /-- The fade of R226: in or out, and its start. -/
  fade : Option (Bool × Nat)
  /-- Frames since entry to RUN (the frame index is its low 32 bits), and the stamp of the frame in progress. -/
  fidx : Nat
  last : Nat
  phase : Nat
  /-- The window of the synchronism test in progress (R233): its start, the reference phase, the extremes of its deviation,
  whether it has failed, and the windows passed one after the other before it. -/
  since : Option Nat
  ref : Nat
  devMin : Int
  devMax : Int
  winBad : Bool
  passes : Nat
  /-- The phase latched at confirmation, and the sample to which the frame in progress is assigned (R234). -/
  lphase : Nat
  asg : Nat
  /-- The crossfade to or from the bypass, and its start (R235). -/
  byp : Option (Bool × Nat)
  /-- Frames within 256 units of the latched phase since the return from FAULT; none otherwise. -/
  regain : Option Nat
  faultAt : Nat
  /-- First frame of the current block (sample, phase, index) and frames started in it; the published record (R232). -/
  first : Option (Nat × Nat × Nat)
  frames : Nat
  pub : Nat × Nat × Nat × Nat
  /-- A confirmation that waits for the block boundary: the sample of the write or detection. -/
  confirm : Option Nat
  /-- Complete frames since entry to RUN, the newest first: the count, and the words by slot (R224, R249). -/
  hist : List (Nat × Tbl Int)
  /-- The mode in which the frame in progress began (R22). -/
  fmode : Nat
  /-- What SDO carries in the frame in progress: none for high impedance; the words of the driven slots. -/
  sdo : Option (Tbl Nat)
  deriving DecidableEq, Repr

/-- A stream that is delivered by grid index (R240-R242): its member slot and identity, whether its first word in time
has come, whether it is leaving, zeros of the current incident, whether an overrun incident is open, the samples for which
a word has arrived, and its fade (in or out, start; none: full). -/
structure BoomMem where
  slot : Nat
  kind : Nat
  id : Nat
  seen : Bool
  leaving : Bool
  zeros : Nat
  passed : Bool
  got : List Nat
  fade : Option (Bool × Nat)
  deriving DecidableEq, Repr

/-- A boom: its members as heard, the settings as heard, and the start of the fade-out before a move. -/
structure BoomSt where
  mems : List BoomMem
  en : Bool
  delay : Nat
  moveAt : Option Nat
  deriving DecidableEq, Repr

/-- A stream of a rate group against the group's line (R251, R252): kind and ID, whether it publishes, its own index plus
`off` being the line's; the index and the time of its last record, the period between its last two, the error of the last, and
the blocks in a row with an error above 0.5 input sample. Times are in units of 2^-40 sample. -/
structure GrpMem where
  kind : Nat
  id : Nat
  live : Bool
  off : Int
  idx : Int
  time : Int
  per : Option Nat
  err : Int
  stray : Nat
  deriving DecidableEq, Repr

/-- A rate group (R250-R252): sample of entry to HOLD, its fade (in or out, start; none: silent), a mode change that waits
for the fade-out (its start), and the streams that are lost or stray, with the sample of detection (R251, R252). -/
structure GrpSt where
  holdAt : Nat
  fade : Option (Bool × Nat)
  switch : Option Nat
  /-- The mode heard. -/
  mode : Nat
  lost : List (Nat × Nat × Nat)
  /-- The fitted line (R250): an index, its time and the period 1/rho, in units of 2^-40 sample; period 0 before a first record. -/
  idx : Int
  time : Int
  per : Nat
  /-- The sample from which the line starts afresh with the pilot's next record; none while it is fitted. -/
  start : Option Nat
  /-- Blocks in a row with an error below 0.01 and above 0.5 input sample; the sample of entry to LOCK; the periods of the last
  second, by sample. -/
  good : Nat
  far : Nat
  lockAt : Nat
  pers : List (Nat × Nat)
  mems : List GrpMem
  deriving DecidableEq, Repr

/-- A conversion channel: its fade (none: silent), and the entry as heard. -/
structure ChSt where
  fade : Option (Bool × Nat)
  heard : Word
  deriving DecidableEq, Repr

/-- Ports, booms and the pool. -/
structure StrSt where
  tdm : Tbl TdmSt
  boom : Tbl BoomSt
  grp : Tbl GrpSt
  ch : Tbl ChSt
  /-- Words that are to be the source words of a sample, by sample and address. -/
  inbox : Tbl (Tbl Int)
  deriving DecidableEq, Repr

/-- A fade that has long ended at full gain, or at silence. -/
def Fade.open_ : Fade := ⟨true, 0, 0, 0, 0⟩
def Fade.shut : Fade := ⟨false, 0, 0, 0, 0⟩

/-- The DACs (R418-R426): VDDA_DAC valid, channels in a gain's range hold, the sample at which every channel's reference
hold began, the fall of DACCLR_N and its release that waits for the block boundary, the global clear in force, and
channels whose retry test has passed. -/
structure DacSt where
  vdda : Bool
  hold : List Nat
  refHold : Option Nat
  clrLow : Option Nat
  clrRet : Bool
  clr : Bool
  retryOk : List Nat
  /-- Words of the DAC sinks for the samples before the current one, newest first (R417). -/
  words : List (Tbl Int)
  deriving DecidableEq, Repr

/-- The supervisor (R443-R450): the core rail is measured on-die because of an open sense ball; consecutive readings at
115 degrees or above; the sample since which XCLK is faulted, and the fault's duration in ms once XCLK is restored and the
PLLs wait for the block boundary. -/
structure SupSt where
  onDie : Bool
  hot : Nat
  clkAt : Option Nat
  clkRet : Option Nat
  /-- The rail whose reset action has reset the device, reported again when the device restarts (R446). -/
  resetBy : Option (Nat × Nat)
  deriving DecidableEq, Repr

/-- DACs and supervisor after PORST_N. -/
def DacSt.reset : DacSt := ⟨false, [], none, none, false, false, [], []⟩
def SupSt.reset : SupSt := ⟨false, 0, none, none, none⟩

/-- Limiter, path, port and the rest after reset. -/
def LimSt.reset : LimSt := ⟨0, [], 0⟩
def PathSt.reset : PathSt := ⟨0x80, { KSt.reset with fmt := 1 }, false, false, 0, 0⟩
def OutSt.reset : OutSt :=
  { lims := [], limCmds := [], paths := [], mode := Fade.shut, brace := Fade.open_, clk := Fade.open_,
    cold := Fade.open_, safe := Fade.open_, hot := Fade.open_, words := [], hist := [], sent := [] }
def TdmSt.reset : TdmSt :=
  { good := 0, bad := 0, badRate := 0, badBclk := 0, fade := none, fidx := 0, last := 0, phase := 0, since := none,
    ref := 0, devMin := 0, devMax := 0, winBad := false, passes := 0, lphase := 0, asg := 0, byp := none, regain := none, faultAt := 0, first := none, frames := 0,
    pub := (0, 0, 0, 0), confirm := none, hist := [], fmode := 0, sdo := none }
def BoomSt.reset : BoomSt := ⟨[], false, 48, none⟩
def GrpSt.reset : GrpSt :=
  { holdAt := 0, fade := none, switch := none, mode := 0, lost := [], idx := 0, time := 0, per := 0, start := none, good := 0, far := 0,
    lockAt := 0, pers := [], mems := [] }
def ChSt.reset : ChSt := ⟨none, 0⟩
def StrSt.reset : StrSt := ⟨[], [], [], [], []⟩

end Sys2Proof.Machine
end

