-- ==== Sys2Proof/Machine/StateNet.lean ====
section
/-! DEFINITION. State of the network flows that no register holds (R286-R307). -/

namespace Sys2Proof.Machine

/-- A receive flow (R290-R293, R297, R300). -/
structure RxSt where
  /-- Delivery outside a boom (R293). -/
  mem : BoomMem
  /-- The entry as heard: it stays while a disabled flow fades out. -/
  heard : List Word
  /-- The last sequence number, once a packet has been used. -/
  seq : Option Nat
  /-- Sample at which the last packet was used, or of the enable; sample of the loss. -/
  used : Nat
  lostAt : Nat
  /-- Fade of R300 (none: full), the start of the fade-out before a LOFF change, and the link offset heard. -/
  fade : Option (Bool × Nat)
  moveAt : Option Nat
  loff : Nat
  /-- Jitter buffer: base, length, and whether it lies in SDRAM (R295). -/
  buf : Option (Nat × Nat × Bool)
  /-- Incidents of the last 10 s: an overrun, and the sample; whether NET_MCLK_DRIFT has been raised. -/
  incs : List (Bool × Nat)
  drift : Bool
  /-- Blocks since the last timing record, and what that holds: the media count of a packet's first sample, and its time in
  units of 2^-40 sample (R291, R292). -/
  blind : Nat
  record : Option (Int × Int)
  /-- Samples of a converting flow, the newest first: the media count, and the words by channel (R249, R292). -/
  hist : List (Int × List Int)
  /-- The flow is enabled again while it still fades out: it starts when its buffer is free. -/
  again : Bool
  /-- Crossfade of a claim pair's half: in or out, and start, silent once it has faded out; none: full (R297). -/
  half : Option (Bool × Nat)
  /-- A FLOW_RX_SET that waits for its boundary; a FLOW_CLEAR that waits for the fade. -/
  cmd : Option Nat
  clr : Option Nat
  deriving DecidableEq, Repr

/-- A transmit flow (R298-R300): whether it sends, whether it stops after the packet in progress, the next sequence number,
the timestamp, the claim and the samples of the packet in progress, the entry as sent, a FLOW_TX_SET and a FLOW_CLEAR that wait,
whether it is enabled again before it has stopped, and the sample since which its unicast destination is unresolved (R304). -/
structure TxSt where
  on : Bool
  stop : Bool
  seq : Nat
  first : Nat
  claim : Nat
  rows : List (List Int)
  heard : List Word
  cmd : Option Nat
  clr : Option Nat
  again : Bool
  unres : Option Nat
  deriving DecidableEq, Repr

/-- An audio packet on the wire (R296, R298): MAC, flow, sequence number, timestamp, the header extension with its profile and
length (none: no bytes), and payload words by sample and channel in units of 2^-31. -/
structure Pkt where
  mac : Nat
  flow : Nat
  seq : Nat
  ts : Nat
  ext : List Byte
  words : List (List Int)
  deriving DecidableEq, Repr

/-- What the session description of a transmit flow says (R304): origin and destination address and port; for rtpmap the format,
rate code and channels; for ptime the samples per packet; for ts-refclk the grandmaster, if there is one, and the domain; for
mediaclk:direct the offset. -/
structure Sdp where
  origin : Word
  daddr : Word
  dport : Nat
  l16 : Bool
  rate : Nat
  chans : Nat
  spp : Nat
  refclk : Option Nat
  domain : Nat
  mediaclk : Nat
  deriving DecidableEq, Repr

/-- The ordinary clock as its PTP messages show it (R333): profile, domain, whether it may become master, and the announced
priorities and clockClass. -/
structure PtpClock where
  profile : Nat
  domain : Nat
  slaveOnly : Bool
  prio1 : Nat
  prio2 : Nat
  clockClass : Nat
  deriving DecidableEq, Repr

/-- A frame of the control engine (R303, R304): ARP request and answer; an IGMPv3 report for a group, with the sources included, or
none for EXCLUDE mode without sources (no source included: a leave); an echo reply; an announcement; another frame of the
firmware, with the clock that a PTP event message speaks for. -/
inductive CtlFrame where
  | arpRequest (ip : Word)
  | arpAnswer (ip : Word) (hw : BitVec 48)
  | igmpReport (group : Word) (sources : Option (List Word))
  | echoReply (ip : Word) (id : BitVec 16) (seq : BitVec 16) (data : List Byte)
  | sap (flow : Nat) (sdp : Sdp)
  | firmware (ptp : Option PtpClock)
  deriving DecidableEq, Repr

/-- An entry of a MAC's ARP cache (R304): address, hardware address, and when it was refreshed. -/
structure ArpEnt where
  mac : Nat
  ip : Word
  hw : BitVec 48
  at_ : Nat
  deriving DecidableEq, Repr

/-- An announcement heard (R304, R390): the six words of its record with the age left out, its MAC, and when it was heard. -/
structure SapEnt where
  ws : List Word
  mac : Nat
  at_ : Nat
  deriving DecidableEq, Repr

/-- The flow engine and the MACs. -/
structure NetSt where
  rx : Tbl RxSt
  tx : Tbl TxSt
  /-- Packets that left at the latest sample tick, in order. -/
  wire : List Pkt
  /-- Frames in each control receive queue (MAC * 8 + queue), each with its length, the oldest first, and the queues whose
  overflow has been raised (R303). -/
  cq : Tbl (List (NetFrame × Nat))
  cqOvf : List Nat
  /-- The control transmit queue of each MAC, and the control frames that have left since the last sample tick, each with its MAC and
  VLAN ID (R303). -/
  ctx : Tbl (List CtlFrame)
  ctl : List (Nat × Option Nat × CtlFrame)
  /-- The ARP caches; the requests last sent, by MAC and address, with the sample; transmit flows for which NET_ARP_FAIL has been
  raised (R304). -/
  arp : List ArpEnt
  asks : List (Nat × Word × Nat)
  noArp : List Nat
  /-- The last announcement round (R304). -/
  sapAt : Option Nat
  /-- Announcements heard, newest first (R304). -/
  sap : List SapEnt
  deriving DecidableEq, Repr

/-- Flows after reset. -/
def BoomMem.fresh (slot kind id : Nat) : BoomMem := ⟨slot, kind, id, false, false, 0, false, [], none⟩
def RxSt.reset : RxSt :=
  { mem := BoomMem.fresh 0 0 0, heard := [], seq := none, used := 0, lostAt := 0, fade := none, moveAt := none, loff := 0,
    buf := none, incs := [], drift := false, blind := 0, record := none, hist := [], again := false, half := none, cmd := none, clr := none }
def TxSt.reset : TxSt := ⟨false, false, 0, 0, 0, [], [], none, none, false, none⟩
def NetSt.reset : NetSt :=
  { rx := [], tx := [], wire := [], cq := [], cqOvf := [], ctx := [], ctl := [], arp := [], asks := [], noArp := [], sapAt := none,
    sap := [] }

end Sys2Proof.Machine
end

