-- ==== Sys2Proof/Machine/StatePair.lean ====
section
/-! DEFINITION. State of the pair logic that no register holds (R338-R359). -/

namespace Sys2Proof.Machine

/-- A claim in progress (R344, R349): none, waiting t_w, waiting for the read-back at once, confirmed, or forced. -/
inductive ClaimSt where
  | none
  | waiting
  | atOnce
  | confirmed
  | forced
  deriving DecidableEq, Repr

/-- The pair logic. -/
structure PairSt where
  /-- The strobe circuit holds ILK low (R343). -/
  driving : Bool
  claim : ClaimSt
  claimAt : Nat
  /-- The partner's configuration has been checked, and it does not fit (R339). -/
  checked : Bool
  cfgBad : Bool
  /-- Samples of the last STATE received and sent; what the last STATE sent showed. -/
  stateAt : Nat
  sentAt : Nat
  sentView : Nat
  /-- The sample of the pulse that the partner has announced (R345). -/
  expect : Option Nat
  /-- The last test pulse, whether this chip saw it, pulses missed in a row, and a fault already raised (R345). -/
  pulseAt : Nat
  pulseSeen : Bool
  missed : Nat
  faultRaised : Bool
  /-- Good and bad heartbeat periods in a row (R346). -/
  hbGood : Nat
  hbBad : Nat
  /-- The pair watchdog has lapsed (R343, R346). -/
  lapsed : Bool
  /-- Running CRCs of the digest groups; none before the first sample of a block (R352). -/
  crc : List Nat
  /-- Block, block digest and group CRCs of the last 16 blocks (R353). -/
  own : List (Nat × Nat × List (Nat × Nat))
  /-- Blocks whose partner digest has arrived or counts as missing, and blocks that differ. -/
  got : List Nat
  differ : List Nat
  /-- A mismatch or missing digest since the last block boundary (R354). -/
  lost : Bool
  /-- Sample of entry to CHECKING; sample of the partner's last answer to a copy; the phase is done or aborted. -/
  checkAt : Nat
  copyAt : Nat
  copyReq : Bool
  copyDone : Bool
  copyAbort : Bool
  /-- A copy phase that this chip answers: phase and generation. -/
  serve : Option (Nat × Nat)
  /-- Copy words sent so far (R356). -/
  seq : Nat
  /-- Health messages that wait for room in the token queue. -/
  hq : List Nat
  /-- Items whose low score has been raised: own and partner's (R357). -/
  low : List Nat
  plow : List Nat
  /-- Faults of the last 60 s behind the scores: item, kind (0 corrected or parity, 1 uncorrected, retry or lapse), sample. -/
  log : List (Nat × Nat × Nat)
  deriving DecidableEq, Repr

/-- The pair logic after reset. -/
def PairSt.reset : PairSt :=
  { driving := false, claim := .none, claimAt := 0, checked := false, cfgBad := false, stateAt := 0, sentAt := 0,
    sentView := 0, expect := none, pulseAt := 0, pulseSeen := false, missed := 0, faultRaised := false, hbGood := 0, hbBad := 0,
    lapsed := false, crc := [], own := [], got := [], differ := [], lost := false, checkAt := 0, copyAt := 0, copyReq := false, hq := [],
    copyDone := false, copyAbort := false, serve := none, seq := 0, low := [], plow := [], log := [] }

end Sys2Proof.Machine
end

