-- ==== Sys2Proof/Machine/StateRaft.lean ====
section
/-! DEFINITION. State of the raft port that no register holds (R257-R285). Ring 0 is the east-going ring, ring 1 the
west-going ring. -/

namespace Sys2Proof.Machine

/-- A token (R280): type, origin, sequence number, payload. -/
structure RTok where
  typ : Nat
  orig : Nat
  seq : Nat
  pay : Nat
  deriving DecidableEq, Repr

/-- A token that has to return to this chip: its ring, when it was last sent, how often it was sent again, its command. -/
structure RSent where
  tok : RTok
  ring : Nat
  sentAt : Nat
  tries : Nat
  handle : Option Nat
  deriving DecidableEq, Repr

/-- A frame as sent (R261, R262): control word, the slot words that are not zero, and their CRC-32. -/
structure RFrame where
  cw : Nat
  words : Tbl Int
  fcs : Nat
  deriving DecidableEq, Repr

/-- One ring at this chip. -/
structure RingSt where
  /-- Slot words received for the next tick, and those used at the last tick. -/
  win : Tbl Int
  last : Tbl Int
  /-- Consecutive frames with a bad control word, a bad slot CRC, a wrong index, and t above D_hop. -/
  badCw : Nat
  badFcs : Nat
  badIdx : Nat
  badT : Nat
  /-- A token to be forwarded, and the own tokens that wait. -/
  fwd : List RTok
  tq : List RTok
  /-- Audit field received: slot, lap, occupied, owner; slot last audited (master). -/
  aud : Option (Nat × Bool × Bool × Nat)
  audLast : Nat
  /-- Echo fields for the next frame to that neighbour. -/
  echo : Nat
  lag : Nat
  /-- The SIDX of the last good frame less the own time of its arrival, in units of 2^-16 sample (R265). -/
  ahead : Option Int
  /-- The frame begun at the last tick. -/
  tx : Option RFrame
  deriving DecidableEq, Repr

/-- The retiming fade of a drop channel or relay total (R273, R277): start of the fade-out over 64 samples, and start of
the fade-in; none for a channel that is removed. -/
structure ROut where
  outAt : Nat
  inAt : Option Nat
  deriving DecidableEq, Repr

/-- A wrapped port (R276): the role (west or east), the tick s_d, the index X and the lost hops of its break. -/
structure RWrap where
  west : Bool
  from_ : Nat
  x : Nat
  hops : List Nat
  deriving DecidableEq, Repr

/-- The raft port. -/
structure RaftSt where
  east : RingSt
  west : RingSt
  oriented : Bool
  /-- Master position and its quality as received (R262). -/
  mpos : Nat
  qual : Nat
  /-- Neighbour positions by role port. -/
  nbrE : Nat
  nbrW : Nat
  seq : Nat
  /-- Tokens acted on: origin, type, sequence number, and when, in samples since reset, newest first. -/
  seen : List (Nat × Nat × Nat × Nat)
  sent : List RSent
  /-- Barrier: collect tokens held, own arrivals (ID, command), releases (ID, index, abort), own collect sent at. -/
  held : List RTok
  arrived : List (Nat × Nat)
  releases : List (Nat × Nat × Bool)
  collects : List (Nat × Nat)
  /-- Applies that wait for X, with the command and whether the fades have started. -/
  applies : List (Nat × Option Nat × Bool)
  /-- A break seen at this chip and not yet wrapped: role, sample, lost hops. -/
  brk : List (Bool × Nat × List Nat)
  wraps : List RWrap
  /-- Hops lost; hops whose detour is in force; indices at which the rest comes into force. -/
  lost : List Nat
  detour : List Nat
  wrapAt : List Nat
  /-- Unwrap index, command, and the hops repaired; sample since which a repaired link is UP. -/
  unwrap : Option (Nat × Option Nat × List Nat)
  upSince : Option Nat
  /-- Raft reset and snapshots that wait for their index, with the command. -/
  resetAt : Option (Nat × Option Nat)
  snaps : List (Nat × Option Nat)
  /-- Hop reports by position: D_hop and t. -/
  reports : Tbl (Nat × Nat)
  /-- Ranging of the east hop: sum of t in units of 2^-17 sample, frames, and whether the margin has been reported. -/
  tSum : Nat
  tCnt : Nat
  margin : Bool
  /-- Retiming by output: drop channel c at c, relay total b at 0x2000 + b. -/
  outs : Tbl ROut
  /-- Words of the relay contribution sinks, and words in of the halves of split totals, newest sample first. -/
  hist : List (Tbl Int)
  inHist : List (Tbl Int)
  /-- Allocations by RAFT_PATH and RAFT_RELAY: ring, slot, hops. -/
  alloc : List (Nat × Nat × List Nat)
  deriving DecidableEq, Repr

/-- The raft port after reset. -/
def RingSt.reset : RingSt :=
  { win := [], last := [], badCw := 0, badFcs := 0, badIdx := 0, badT := 0, fwd := [], tq := [], aud := none, audLast := 0,
    echo := 0, lag := 0, ahead := none, tx := none }
def RaftSt.reset : RaftSt :=
  { east := RingSt.reset, west := RingSt.reset, oriented := false, mpos := 0, qual := 0, nbrE := 0, nbrW := 0, seq := 0,
    seen := [], sent := [], held := [], arrived := [], releases := [], collects := [], applies := [], brk := [], wraps := [],
    lost := [], detour := [], wrapAt := [], unwrap := none, upSince := none, resetAt := none, snaps := [], reports := [],
    tSum := 0, tCnt := 0, margin := false, outs := [], hist := [], inHist := [], alloc := [] }

end Sys2Proof.Machine
end

