-- ==== Sys2Proof/Machine/StateRef.lean ====
section
/-! DEFINITION. State of the reference selection and of network time that no register holds (R308-R337). -/

namespace Sys2Proof.Machine

/-- A candidate (R311, R313): consecutive good and bad windows, disqualified since EN = 1, the quality acted on where it
does not come from QUAL, and a loss of signal in the window in progress. -/
structure CandSt where
  good : Nat
  bad : Nat
  ever : Bool
  qual : Nat
  cut : Bool
  deriving DecidableEq, Repr

/-- Reference selection. -/
structure RefSt where
  cands : Tbl CandSt
  /-- When the switch in progress began or the last one ended, when SETTLE began, and HOLDOVER was entered, in samples since reset. -/
  switchAt : Nat
  settleAt : Nat
  holdAt : Nat
  /-- POLICY STEER is in effect. -/
  steer : Bool
  /-- Current DCO offset in ppt, holdover frequency, and the last offset measured of each candidate. -/
  dco : Int
  havg : Int
  meas : Tbl Int
  /-- DCO offsets of the seconds spent LOCKED, newest first. -/
  hist : List Int
  /-- Quality of the candidate followed when HOLDOVER was entered (R320). -/
  holdQ : Nat
  /-- The build-out offset in ps (R317). -/
  build : Int
  /-- ACQUIRING was entered from FREE_RUN (R316). -/
  fast : Bool
  /-- WCLK_OUT setting in force (R321). -/
  wco : Nat
  deriving DecidableEq, Repr

/-- A step of the time counter that is pending (R328, R330): by an offset in ns, or onto the sample grid; its command. -/
structure StepPend where
  offset : Int
  grid : Bool
  handle : Option Nat
  asked : Nat
  deriving DecidableEq, Repr

/-- Network time. -/
structure TimSt where
  /-- Increment in force, in units of 2^-40 ns per TCLK edge (R325). -/
  inc : Nat
  /-- Grandmaster in use: identity and clockClass. -/
  gm : Option (Nat × Nat)
  /-- The backup MAC is the PTP port (R333). -/
  backup : Bool
  /-- Last measured offset in ns; consecutive measurements within THRESH while DIVERGED. -/
  offset : Option Int
  within : Nat
  step : Option StepPend
  /-- A TIME_JOIN that waits: command, sample of acceptance. -/
  join : Option (Nat × Nat)
  /-- The pair latched at the last block tick (R331): S, T and the epoch. -/
  mapS : Nat
  mapT : Time
  mapE : Nat
  /-- Receive captures by MAC: tag, time, epoch; transmit captures, oldest first. -/
  irq : Tbl (Option (Nat × Time × Nat))
  txq : Tbl (List (Nat × Time × Nat))
  /-- Time of the last PPS_IN edge with its epoch. -/
  ppsIn : Option (Time × Nat)
  /-- A second boundary lies in the current sample; the last rising edge of PPS_OUT; whether PPS_OUT is high. -/
  secEdge : Bool
  ppsAt : Option Nat
  ppsHigh : Bool
  deriving DecidableEq, Repr

/-- After reset: the quality of the raft and network candidates is 0, and nothing has been measured. -/
def CandSt.reset : CandSt := ⟨0, 0, false, 0, false⟩
def RefSt.reset : RefSt :=
  { cands := [], switchAt := 0, settleAt := 0, holdAt := 0, steer := false, dco := 0, havg := 0, meas := [], hist := [],
    holdQ := 0, build := 0, fast := false, wco := 0 }
def TimSt.reset : TimSt :=
  { inc := 4 * 2 ^ 40, gm := none, backup := false, offset := none, within := 0, step := none, join := none, mapS := 0,
    mapT := ⟨0, 0, 0⟩, mapE := 0, irq := [], txq := [], ppsIn := none, secEdge := false, ppsAt := none, ppsHigh := false }

end Sys2Proof.Machine
end

