-- ==== Sys2Proof/Machine/StateSch.lean ====
section
/-! DEFINITION. State of the scene unit that no register holds: scheduled commands, the armed scene, its commit and the
applied scenes whose kerfs still run (R184-R202). -/

namespace Sys2Proof.Machine

/-- A requested time of R193: a system time with its epoch and scope, kept for R202. -/
structure ReqTime where
  sec : Nat
  ns : Nat
  deriving DecidableEq, Repr

/-- A pending scheduled command (R199): its own arguments, the index at which it applies, the index requested, its
lateness, scope, policy and order of acceptance. -/
structure SchedItem where
  handle : Nat
  opcode : Nat
  args : List Word
  idx : Nat
  req : Nat
  late : Nat
  /-- The samples by which a program swap's index was rounded up (R176, R193). -/
  rounding : Nat
  time : Option ReqTime
  sys : Bool
  policy : Nat
  order : Nat
  deriving DecidableEq, Repr

/-- A scene action (R186). -/
structure SceneAct where
  w0 : Word
  w1 : Word
  w2 : Word
  w3 : Word
  deriving DecidableEq, Repr

/-- A commit whose scene waits for its index (R193). -/
structure SceneCommit where
  handle : Nat
  idx : Nat
  req : Nat
  late : Nat
  rounding : Nat
  time : Option ReqTime
  sys : Bool
  policy : Nat
  order : Nat
  deriving DecidableEq, Repr

/-- A SCENE_COMMIT with AUTOARM that waits for its buffer to be armed (R192): the command as it was taken. -/
structure AutoArm where
  src : Nat
  cring : Nat
  handle : Nat
  tag : Word
  args : List Word
  deriving DecidableEq, Repr

/-- An applied scene (R198): its commit, index, status so far, kerfs that still run, largest queueing delay, refused
actions, first of them, rounding and lateness. -/
structure SceneRun where
  handle : Nat
  s : Nat
  status : Nat
  left : Nat
  qmax : Nat
  refused : Nat
  first : Nat
  rounding : Nat
  deriving DecidableEq, Repr

/-- The scene unit. -/
structure SceneSt where
  sched : List SchedItem
  /-- The actions placed by arming (R188). -/
  acts : List SceneAct
  armCmd : Option Nat
  auto : Option AutoArm
  commit : Option SceneCommit
  runs : List SceneRun
  /-- Commands and commits accepted so far, for the order of R165 and R201. -/
  order : Nat
  /-- The index at which the last scene applied (R208). -/
  lastIdx : Nat
  deriving DecidableEq, Repr

/-- The scene unit after reset. -/
def SceneSt.reset : SceneSt :=
  { sched := [], acts := [], armCmd := none, auto := none, commit := none, runs := [], order := 0, lastIdx := 0 }

end Sys2Proof.Machine
end

