-- ==== Sys2Proof/Machine/State.lean ====
section
/-! DEFINITION. The state of the device, its faults and refusals, and the state after reset. -/

namespace Sys2Proof.Machine

/-- Why a command ends the run: no command of this device does. -/
inductive Fault where
  deriving DecidableEq, Repr

/-- Why a command has no meaning. -/
inductive Refusal where
  /-- Raised by an arm of `exec` for a command that is not modelled yet. Safe: the model stops. -/
  | notModelled (mnemonic : String)
  deriving DecidableEq, Repr

/-- The device: plain data. -/
structure State where
  /-- Register values in force, by BAR0 offset; an unlisted register reads as its reset value. -/
  regs : Tbl Word
  /-- Shadowed writes (RW-S, R7) that wait for their boundary, by BAR0 offset. -/
  stg : Tbl Word
  /-- Values that a Basic register drives into shadowed Expert registers and that wait for their boundary (R26). -/
  stgB : Tbl Word
  /-- The sample during which each waiting write arrived. -/
  stgAt : Tbl Nat
  /-- The 64-bit sample counter (R39). -/
  sidx : Nat
  /-- The time counter (R325, R326). -/
  time : Time
  glb : GlbSt
  host : HostSt
  tly : TlySt
  /-- The engines E0-E15 and, at 16, the control engine. -/
  eng : Tbl Engine
  scn : SceneSt
  lnd : LndSt
  far : FarSt
  out : OutSt
  str : StrSt
  net : NetSt
  raft : RaftSt
  ref : RefSt
  tim : TimSt
  pair : PairSt
  dac : DacSt
  sup : SupSt
  fuse : FuseSt
  boot : BootSt
  /-- The model's own: how many free values have been drawn. -/
  freeCtr : Nat
  /-- The commands that wait, first in, first out. -/
  pending : List Instr
  deriving DecidableEq, Repr

/-- The device right after reset (R39, R325; every register at its reset value). -/
def State.reset : State :=
  { regs := [], stg := [], stgB := [], stgAt := [], sidx := 0, time := ⟨0, 0, 0⟩, glb := GlbSt.reset, host := HostSt.reset, tly := TlySt.reset,
    eng := [], scn := SceneSt.reset, lnd := LndSt.reset, far := FarSt.reset,
    out := OutSt.reset, str := StrSt.reset, net := NetSt.reset, raft := RaftSt.reset, ref := RefSt.reset, tim := TimSt.reset, pair := PairSt.reset, dac := DacSt.reset, sup := SupSt.reset,
    fuse := FuseSt.reset, boot := BootSt.reset, freeCtr := 0, pending := [] }

end Sys2Proof.Machine
end

