-- ==== Sys2Proof/Machine/Ops.lean ====
section
/-! DEFINITION. The named operations over registers, counters, events, rings and completions. -/

namespace Sys2Proof.Machine

/-! Registers -/

/-- The value in force of the register at `off`. -/
def State.reg (s : State) (off : Nat) : Word := Tbl.get regReset s.regs off

/-- Sets the value in force of a register. -/
def State.setReg (s : State) (off : Nat) (v : Word) : State := { s with regs := Tbl.put regReset s.regs off v }

/-- The value in force of a field. -/
def State.fld (s : State) (f : Fld) : Nat := bitsOf (s.reg f.off) f.hi f.lo

/-- Sets a field of a register in force. -/
def State.setFld (s : State) (f : Fld) (v : Nat) : State := s.setReg f.off (setBits (s.reg f.off) f.hi f.lo v)

/-- A field that is not 0. -/
def State.flag (s : State) (f : Fld) : Bool := s.fld f != 0

/-- The last value written to a shadowed register: the staged one while a write waits (R7). -/
def State.written (s : State) (off : Nat) : Word := (Tbl.find s.stg off).getD (s.reg off)

/-- Stages a shadowed write (R7). -/
def State.stage (s : State) (off : Nat) (v : Word) : State :=
  { s with stg := Tbl.insert s.stg off v, stgB := Tbl.erase s.stgB off, stgAt := Tbl.insert s.stgAt off s.sidx }

/-- Stages a value that a Basic register drives into an Expert register: a read of it shows the value in force (R26). -/
def State.stageBasic (s : State) (off : Nat) (v : Word) : State :=
  { s with stg := Tbl.erase s.stg off, stgB := Tbl.insert s.stgB off v, stgAt := Tbl.insert s.stgAt off s.sidx }

/-- The value that waits for a shadowed register. -/
def State.waiting (s : State) (off : Nat) : Option Word :=
  match Tbl.find s.stg off with
  | some v => some v
  | none => Tbl.find s.stgB off

/-- The value that waits for a shadowed register, if it arrived before the current sample. -/
def State.due (s : State) (off : Nat) : Option Word :=
  match Tbl.find s.stgAt off with
  | some n => if n < s.sidx then s.waiting off else none
  | none => none

/-- Forgets a staged write. -/
def State.unstage (s : State) (off : Nat) : State :=
  { s with stg := Tbl.erase s.stg off, stgB := Tbl.erase s.stgB off, stgAt := Tbl.erase s.stgAt off }

/-- A staged write takes effect. -/
def State.commitStg (s : State) (off : Nat) : State :=
  match s.waiting off with
  | some v => (s.setReg off v).unstage off
  | none => s

/-- Every register from `lo` to below `hi` back at its reset value, with no write waiting. -/
def State.resetRegs (s : State) (lo hi : Nat) : State :=
  let out (k : Nat) : Bool := decide (k < lo ∨ hi ≤ k)
  { s with regs := s.regs.filter (fun p => out p.1), stg := s.stg.filter (fun p => out p.1),
           stgB := s.stgB.filter (fun p => out p.1), stgAt := s.stgAt.filter (fun p => out p.1) }

/-! Rates, blocks, time -/

/-- Block size in samples (R33, GLB_RATE.NB). -/
def State.nb (s : State) : Nat := 8 * 2 ^ s.fld GLB_RATE.NB

/-- The internal rate in Hz (GLB_RATE.RATE). -/
def rateHz (r : Nat) : Nat := [44100, 48000, 88200, 96000, 176400, 192000].getD r 96000

/-- The internal rate in force. -/
def State.fs (s : State) : Nat := rateHz (s.fld GLB_RATE.RATE)

/-- A block boundary (R40): a sample index that is a multiple of NB. -/
def State.atBoundary (s : State) : Bool := s.sidx % s.nb == 0

/-- The first block boundary after sample `n`. -/
def State.nextBoundary (s : State) (n : Nat) : Nat := (n / s.nb + 1) * s.nb

/-- The epoch in force (R327). -/
def State.epoch (s : State) : Nat := s.fld TIM_STAT.EPOCH

/-- The current mode (GLB_MODE.CUR): 0 BOOT, 1 SETUP, 2 LIVE, 3 SHADOW, 4 SERVICE, 5 SAFE. -/
def State.mode (s : State) : Nat := s.fld GLB_MODE.CUR

/-- Draws a free value: a value of which nothing is known. -/
def State.draw (s : State) : State × BitVec 64 := ({ s with freeCtr := s.freeCtr + 1 }, Config.free64 s.freeCtr)

/-! Counters (R50, R51) -/

/-- A run of RO-P counters at `base + stride * i`, and the word and bit of counter `i`'s PEG bit. -/
structure CtrRule where
  base : Nat
  stride : Nat
  n : Nat
  pegOff : Nat → Nat
  pegBit : Nat → Nat

/-- Counters at consecutive words whose PEG bits are the low bits of one word. -/
def ctrRun (base n peg first : Nat) : CtrRule := ⟨base, 4, n, fun _ => peg, fun i => first + i⟩

/-- An array of counters whose PEG bits fill words from `peg` on, 32 to a word. -/
def ctrArr (base n peg : Nat) : CtrRule := ⟨base, 4, n, fun i => peg + 4 * (i / 32), fun i => i % 32⟩

/-- One counter of each of `n` windows `stride` apart, its PEG bit in the window's own word. -/
def ctrWin (base stride n peg bit : Nat) : CtrRule := ⟨base, stride, n, fun i => peg + stride * i, fun _ => bit⟩

/-- The RO-P counters with BAR0 offsets below 0x50_0000. -/
def ctrRulesLow : List CtrRule := [
  ctrRun (SUP_DIP_CNT.adr 0) 14 SUP_PEG.adr 0, ctrRun THM_WARN_CNT.adr 1 THM_PEG.adr 0,
  ctrRun HOST_ACCERR_CNT.adr 2 HOST_PEG.adr 0, ctrArr (HOST_EVLOST_CNT.adr 0) 128 (HOST_EVPEG.adr 0),
  ctrRun LND_REFUSE_CNT.adr 2 LND_PEG.adr 0, ctrRun KRF_QUEUED_CNT.adr 3 KRF_PEG.adr 0,
  ctrRun SCN_LATE_CNT.adr 3 SCN_PEG.adr 0, ctrRun OUT_REFUSE_CNT.adr 1 OUT_PEG.adr 0,
  ctrRun (ST_SAT.adr 0) 16 ST_PEG.adr 0, ctrArr (OUT_SATCNT.adr 0) 9224 (OUT_SATPEG.adr 0),
  ctrWin (TDM_FAULT_CNT.adr 0) 0x1000 32 (TDM_PEG.adr 0) 0, ctrWin (TDM_SLIP_CNT.adr 0) 0x1000 32 (TDM_PEG.adr 0) 1,
  ctrWin (TDM_SYNCLOSS_CNT.adr 0) 0x1000 32 (TDM_PEG.adr 0) 2,
  ⟨BOOM_UNDER_CNT.adr 0 0, 4, 256, fun i => BOOM_UPEG.adr (i / 16), fun i => i % 16⟩,
  ⟨BOOM_OVER_CNT.adr 0 0, 4, 256, fun i => BOOM_OPEG.adr (i / 16), fun i => i % 16⟩,
  ⟨BOOM_DROP_CNT.adr 0 0, 4, 256, fun i => BOOM_DPEG.adr (i / 16), fun i => i % 16⟩]

/-- The RO-P counters with BAR0 offsets from 0x50_0000 to 0xFF_FFFF. -/
def ctrRulesMid : List CtrRule := [
  ctrArr (ASRC_STEP_CNT.adr 0) 64 (ASRC_SPEG.adr 0), ctrArr (ASRC_LOSS_CNT.adr 0) 64 (ASRC_LPEG.adr 0),
  ctrArr (ASRC_STRAY_CNT.adr 0) 64 (ASRC_YPEG.adr 0), ctrRun RAFT_FCS_CNT.adr 7 RAFT_PEG.adr 0,
  ctrWin (NET_RXFRM.adr 0) 0x40 4 (NET_MPEG.adr 0) 0, ctrWin (NET_TXFRM.adr 0) 0x40 4 (NET_MPEG.adr 0) 1,
  ctrWin (NET_RXFCS.adr 0) 0x40 4 (NET_MPEG.adr 0) 2, ctrWin (NET_RXDROP.adr 0) 0x40 4 (NET_MPEG.adr 0) 3,
  ctrWin (NET_CQDROP.adr 0) 0x40 4 (NET_MPEG.adr 0) 4, ctrArr (NET_RXUND_CNT.adr 0) 4096 (NET_UPEG.adr 0),
  ctrArr (NET_RXDROP_CNT.adr 0) 4096 (NET_DPEG.adr 0), ctrArr (NET_RXSEQ_CNT.adr 0) 4096 (NET_SPEG.adr 0),
  ctrRun (REF_DISQ_CNT.adr 0) 11 REF_PEG.adr 0, ctrRun REF_SWITCH_CNT.adr 2 REF_PEG.adr 16,
  ctrRun TIM_RXOVW_CNT.adr 3 TIM_PEG.adr 0, ctrRun PAIR_MISMATCH_CNT.adr 5 PAIR_PEG.adr 0,
  ctrRun MTX_DECERR_CNT.adr 3 MTX_PEG.adr 0, ctrRun YARD_CORR_CNT.adr 6 YARD_PEG.adr 0,
  ctrRun (YARD_CONF_CNT.adr 0) 23 YARD_CPEG.adr 0, ctrRun (SDR_CORR_CNT.adr 0) 4 SDR_PEG.adr 0,
  ctrRun (DAC_FAULT_CNT.adr 0) 8 DAC_PEG.adr 0, ctrRun TLY_LOST_CNT.adr 3 TLY_PEG.adr 0,
  ctrArr (TLY_DROP_CNT.adr 0) 256 (TLY_DPEG.adr 0)]

/-- The RO-P counters of the engine windows (R69). -/
def ctrRulesEng : List CtrRule := [
  ctrWin (ENG_OVR_CNT.adr 0) 0xF0000 17 (ENG_PEG.adr 0) 0, ctrWin (ENG_SKIP_CNT.adr 0) 0xF0000 17 (ENG_PEG.adr 0) 1,
  ctrWin (ENG_BSTALL_CNT.adr 0) 0xF0000 17 (ENG_PEG.adr 0) 2, ctrWin (ENG_HSTALL_CNT.adr 0) 0xF0000 17 (ENG_PEG.adr 0) 3,
  ctrWin (ENG_STRETRY_CNT.adr 0) 0xF0000 17 (ENG_PEG.adr 0) 4]

/-- All RO-P counters, in ascending order of their first offset. -/
def ctrRules : List CtrRule := ctrRulesLow ++ ctrRulesMid ++ ctrRulesEng

/-- The index of `off` in a rule. -/
def CtrRule.index? (r : CtrRule) (off : Nat) : Option Nat :=
  if off < r.base then none
  else if (off - r.base) % r.stride = 0 ∧ (off - r.base) / r.stride < r.n then some ((off - r.base) / r.stride) else none

/-- Word and bit of the PEG bit of the counter at `off` (R50). -/
def pegOf (off : Nat) : Option (Nat × Nat) :=
  (if off < 0x500000 then ctrRulesLow else if off < 0x1000000 then ctrRulesMid else ctrRulesEng).findSome?
    (fun r => (r.index? off).map (fun i => (r.pegOff i, r.pegBit i)))

/-- The counters whose PEG bit lies in the word at `peg`, with their bits (R51). -/
def pegCounters (peg : Nat) : List (Nat × Nat) :=
  (if peg < 0x500000 then ctrRulesLow else if peg < 0x1000000 then ctrRulesMid else ctrRulesEng).flatMap (fun r =>
    (List.range r.n).filterMap (fun i => if r.pegOff i = peg then some (r.base + r.stride * i, r.pegBit i) else none))

/-- The largest value of an RO-P counter. -/
def ctrMax : Nat := 0xFFFFFFFF

/-- Adds `k` to an RO-P counter without raising: the state, and whether the counter has just reached its end (R50). -/
def State.incCtr (s : State) (off k : Nat) : State × Bool :=
  let v := (s.reg off).toNat
  if v = ctrMax ∨ k = 0 then (s, false)
  else if v + k < ctrMax then (s.setReg off (BitVec.ofNat 32 (v + k)), false)
  else
    let s := s.setReg off (BitVec.ofNat 32 ctrMax)
    match pegOf off with
    | some (w, b) => (s.setReg w (setBits (s.reg w) b b 1), true)
    | none => (s, true)

/-! MSI-X and rings (R372-R377) -/

/-- The words of an MSI-X table entry; its vector control word is masked until it is written. -/
def msixDefault (off : Nat) : Word := if off % 16 = 12 then 1 else 0

/-- Sends MSI-X vector `v`, or marks it pending while it is masked (R377). -/
def State.sendMsix (s : State) (v : Nat) : State :=
  if bitOf (Tbl.get msixDefault s.host.msix (16 * v + 12)) 0 then
    { s with host := { s.host with pba := if v ∈ s.host.pba then s.host.pba else s.host.pba ++ [v] } }
  else
    { s with host := { s.host with
      msixSent := Tbl.put (fun _ => 0) s.host.msixSent v (Tbl.get (fun _ => 0) s.host.msixSent v + 1) } }

/-- Entries of ring `r`. -/
def State.ringSize (s : State) (r : Nat) : Nat := 2 ^ s.fld (HOST_RING.LOG2SZ r)

/-- Ring `r` is enabled, in RUN, with role `role` (R372, R373). -/
def State.ringRuns (s : State) (r role : Nat) : Bool :=
  s.flag (HOST_RING.EN r) && s.fld (HOST_RING.STATE r) == 1 && s.fld (HOST_RING.ROLE r) == role

/-- Entries between the device's and the host's index of a completion or event ring, or waiting in a submission ring. -/
def State.ringUsed (s : State) (r : Nat) : Nat := (s.fld (HOST_RING.DIDX r) + 2 ^ 32 - s.fld (HOST_RING.HIDX r)) % 2 ^ 32
def State.ringWaiting (s : State) (r : Nat) : Nat := (s.fld (HOST_RING.HIDX r) + 2 ^ 32 - s.fld (HOST_RING.DIDX r)) % 2 ^ 32

/-- A completion or event ring with no room (R374). -/
def State.ringFull (s : State) (r : Nat) : Bool := decide (s.ringSize r ≤ s.ringUsed r)

/-- Writes words into host memory. -/
def writeHostWords : Tbl Word → Nat → List Word → Tbl Word
  | m, _, [] => m
  | m, a, w :: ws => writeHostWords (Tbl.put (fun _ => 0) m a w) (a + 4) ws

/-- Writes one 32-byte entry to ring `r` (HOST has 128 rings): PHASE in bit 31 of word 0 (R372), then the vector if the ring is armed (R377). -/
def State.ringWrite (s : State) (r : Nat) (words : List Word) : State :=
  let r := r % 128
  let d := s.fld (HOST_RING.DIDX r)
  let size := s.ringSize r
  let a := s.fld (HOST_RING.BASE_LO r) + 2 ^ 32 * s.fld (HOST_RING.BASE_HI r) + 32 * (d % size)
  let phase := if d / size % 2 = 0 then 1 else 0
  let ws := match words with
    | [] => []
    | w :: t => setBits w 31 31 phase :: t
  let s := { s with host := { s.host with hostMem := writeHostWords s.host.hostMem a ws } }
  let s := s.setFld (HOST_RING.DIDX r) (d + 1)
  if s.flag (HOST_RING.IEN r) && decide (r ∈ s.host.armed) then
    ({ s with host := { s.host with armed := s.host.armed.erase r } }).sendMsix (s.fld (HOST_RING.VEC r))
  else s

/-- The eight words of an event entry (R376), PHASE 0. -/
def Event.words (e : Event) (lost : Nat) : List Word :=
  [BitVec.ofNat 32 (e.code * 2 ^ 16 + e.epoch), BitVec.ofNat 32 (min lost 65535 * 2 ^ 16 + e.source), e.arg0, e.arg1,
   lo32 e.sidx, hi32 e.sidx, lo32 e.sec, BitVec.ofNat 32 e.ns]

/-- The eight words of a completion entry (R367), PHASE 0. -/
def Cpl.words (c : Cpl) : List Word :=
  [BitVec.ofNat 32 (b2n c.done * 2 ^ 30 + b2n c.acc * 2 ^ 29 + c.epoch), BitVec.ofNat 32 (c.opcode * 2 ^ 16 + c.status),
   BitVec.ofNat 32 c.handle, c.tag, lo32 c.sidx, hi32 c.sidx, c.d0, c.d1]

/-! Events (R376, R434) -/

/-- Delivers an event to the direct event FIFO of 64 entries, when its HOST_XEVR entry selects it (R371, R376). -/
def State.evToFifo (s : State) (e : Event) : State :=
  if !s.flag (HOST_XEVR.FIFO e.code) then s
  else if 64 ≤ s.host.devq.length then { s with host := { s.host with devLost := s.host.devLost + 1 } }
  else
    let first := s.host.devq.isEmpty
    let s := { s with host := { s.host with devq := s.host.devq ++ [(e, s.host.devLost)], devLost := 0 } }
    if first && s.flag HOST_IRQ.MSIEV then s.sendMsix 1 else s

/-- Delivers an event to its event ring (R374, R376): the state, and the counters that have just pegged. -/
def State.evToRing (s : State) (e : Event) : State × List Nat :=
  if !s.flag (HOST_XEVR.RING e.code) then (s, [])
  else
    let r := s.fld (HOST_XEVR.ERING e.code)
    if !s.ringRuns r 2 then
      let (s, p) := s.incCtr HOST_NOROUTE_CNT.adr 1
      (s, if p then [HOST_NOROUTE_CNT.adr] else [])
    else if s.ringFull r then
      let (s, p) := s.incCtr (HOST_EVLOST_CNT.adr r) 1
      ({ s with host := { s.host with
          evLost := Tbl.put (fun _ => 0) s.host.evLost r (Tbl.get (fun _ => 0) s.host.evLost r + 1) } },
        if p then [HOST_EVLOST_CNT.adr r] else [])
    else
      let lost := Tbl.get (fun _ => 0) s.host.evLost r
      let s := { s with host := { s.host with evLost := Tbl.put (fun _ => 0) s.host.evLost r 0 } }
      (s.ringWrite r (e.words lost), [])

/-- Codes that always enter tally (R431). -/
def tallyAlways (code : Nat) : Bool := code == 0x02 || (0x08 ≤ code && code ≤ 0x0F) || code == 0x1A

/-- An event enters the tally queue of 64 entries, joins its newest entry, or is lost (R431, R434): the state, the
counters just pegged, and whether TLY_LOST is to be raised. -/
def State.evToTally (s : State) (e : Event) : State × List Nat × Bool :=
  if !(tallyAlways e.code || s.flag (TLY_XTRIG.EN e.code)) then (s, [], false)
  else
    let q := s.tly.queue
    match q.getLast? with
    | some n =>
      if n.ev.code = e.code ∧ n.ev.epoch = e.epoch then
        ({ s with tly := { s.tly with queue := q.dropLast ++ [{ n with count := n.count + 1, last := e.sidx }] } }, [], false)
      else if 64 ≤ q.length then
        let (s, p) := s.incCtr TLY_LOST_CNT.adr 1
        let first := !s.tly.lostRaised
        ({ s with tly := { s.tly with hidden := min 63 (s.tly.hidden + 1), lostRaised := true } },
          if p then [TLY_LOST_CNT.adr] else [], first)
      else ({ s with tly := { s.tly with queue := q ++ [⟨e, 1, e.sidx⟩] } }, [], false)
    | none => ({ s with tly := { s.tly with queue := [⟨e, 1, e.sidx⟩] } }, [], false)

/-- An event raised now, with the stamps of R376. -/
def State.mkEvent (s : State) (code source : Nat) (a0 a1 : Word) : Event :=
  { code := code, epoch := s.epoch, source := source % 65536, arg0 := a0, arg1 := a1, sidx := s.sidx,
    sec := s.time.sec, ns := s.time.ns }

/-- Raises an event on every path that selects it; a counter that pegs on the way raises COUNTER_PEGGED (R50), and the
first loss after a record raises TLY_LOST (R434). The fuel bounds that chain: each of these counters pegs once. -/
def State.raiseN : Nat → State → Nat → Nat → Word → Word → State
  | 0, s, _, _, _, _ => s
  | n + 1, s, code, source, a0, a1 =>
    let e := s.mkEvent code source a0 a1
    let s := s.evToFifo e
    let (s, p1) := s.evToRing e
    let (s, p2, lost) := s.evToTally e
    let s := (p1 ++ p2).foldl (fun s off => State.raiseN n s 0x07 0 (BitVec.ofNat 32 off) 0) s
    if lost then State.raiseN n s 0xF8 0 (BitVec.ofNat 32 s.tly.hidden) 0 else s

/-- Raises an event (R376). -/
def State.raise (s : State) (code source : Nat) (a0 a1 : Word) : State := State.raiseN 8 s code source a0 a1

/-- Raises an event with numbers for arguments. -/
def State.raiseN2 (s : State) (code source a0 a1 : Nat) : State :=
  s.raise code source (BitVec.ofNat 32 a0) (BitVec.ofNat 32 a1)

/-- Raises an event that goes to tally only (R379). -/
def State.raiseTally (s : State) (code source : Nat) : State :=
  let (s, p, lost) := s.evToTally (s.mkEvent code source 0 0)
  let s := p.foldl (fun s off => s.raise 0x07 0 (BitVec.ofNat 32 off) 0) s
  if lost then s.raise 0xF8 0 (BitVec.ofNat 32 s.tly.hidden) 0 else s

/-- Adds to an RO-P counter; on reaching its end the counter stops, sets PEG and raises COUNTER_PEGGED once (R50). That the
event carries SOURCE 0 and the offset in ARG0 is a DESIGN CHOICE (log entry 10). -/
def State.bumpBy (s : State) (off k : Nat) : State :=
  let (s, p) := s.incCtr off k
  if p then s.raise 0x07 0 (BitVec.ofNat 32 off) 0 else s

/-- Adds 1 to an RO-P counter (R50). -/
def State.bump (s : State) (off : Nat) : State := s.bumpBy off 1

/-- A fault that counts against the health score of an item (R357): kept for 60 s. -/
def State.noteErr (s : State) (item kind : Nat) : State :=
  { s with pair := { s.pair with
    log := s.pair.log.filter (fun p => decide (s.sidx < p.2.2 + 60 * s.fs)) ++ [(item, kind, s.sidx)] } }

/-- Master `m` is isolated (R402): MTX_STAT shows it, and its MTX_XMRST bit reads 1 until the drain ends. -/
def State.isolate (s : State) (m : Nat) : State :=
  let s := s.setFld MTX_STAT.ISO (Nat.lor (s.fld MTX_STAT.ISO) (2 ^ m))
  s.setFld MTX_XMRST.RST (Nat.lor (s.fld MTX_XMRST.RST) (2 ^ m))

/-- Master `m` is isolated now. -/
def State.isolated (s : State) (m : Nat) : Bool := bitOf (s.reg MTX_STAT.adr) m

/-! Completions (R366, R367, R371, R374) -/

/-- Status codes of R392. -/
def stOk : Nat := 0x0000
def stLate : Nat := 0x0001
def stRejectedLate : Nat := 0x0002
def stBadOpcode : Nat := 0x0010
def stBadArg : Nat := 0x0011
def stWrongMode : Nat := 0x0012
def stBusy : Nat := 0x0013
def stNoResource : Nat := 0x0020
def stHwFault : Nat := 0x0030
def stAborted : Nat := 0x0040
def stSupply : Nat := 0x0041
def stFuseExhausted : Nat := 0x0050

/-- A completion enters the direct FIFO of 64 entries, with vector 0 on an entry into an empty FIFO (R371). -/
def State.cplToFifo (s : State) (c : Cpl) : State :=
  let first := s.host.dcpl.isEmpty
  let s := { s with host := { s.host with dcpl := s.host.dcpl ++ [c] } }
  if first && s.flag HOST_IRQ.MSICPL then s.sendMsix 0 else s

/-- A completion goes to completion ring `r`, or waits in the device while the ring is full or others wait (R374). -/
def State.cplToRing (s : State) (r : Nat) (c : Cpl) : State :=
  if s.ringRuns r 1 && !s.ringFull r && !(s.host.held.any (fun h => h.1 == r)) then s.ringWrite r c.words
  else
    let s := { s with host := { s.host with held := s.host.held ++ [(r, c)] } }
    if r ∈ s.host.heldRaised then s
    else ({ s with host := { s.host with heldRaised := s.host.heldRaised ++ [r] } }).raise 0x1D r 0 0

/-- Writes out the completions that wait, in order, as far as their rings have room (R374). -/
def State.drainHeld (s : State) : State :=
  let s' := s.host.held.foldl (fun (t : State × List (Nat × Cpl)) h =>
      let (s, keep) := t
      if s.ringRuns h.1 1 && !s.ringFull h.1 && !(keep.any (fun k => k.1 == h.1)) then (s.ringWrite h.1 h.2.words, keep)
      else (s, keep ++ [h])) (s, [])
  let s := { s'.1 with host := { s'.1.host with held := s'.2 } }
  { s with host := { s.host with heldRaised := s.host.heldRaised.filter (fun r => s.host.held.any (fun h => h.1 == r)) } }

/-- The source number of the direct port (R366). -/
def directPort : Nat := 127

/-- Posts a completion of a command of source `src` whose completion ring is `cring`. Handles from 2^32 on are the model's
own: they stand for operations that no command of this chip started, which post nothing. -/
def State.postCpl (s : State) (src cring : Nat) (c : Cpl) : State :=
  if 2 ^ 32 ≤ c.handle then s
  else if src = directPort then s.cplToFifo c else s.cplToRing cring c

/-- A command as taken from its source. -/
structure Ctx where
  src : Nat
  cring : Nat
  handle : Nat
  opcode : Nat
  tag : Word
  args : List Word

/-- Argument word `n`; words beyond NARG are not read by any command. -/
def Ctx.arg (c : Ctx) (n : Nat) : Word := c.args.getD n 0

/-- Bits of argument word `n`. -/
def Ctx.abits (c : Ctx) (n hi lo : Nat) : Nat := bitsOf (c.arg n) hi lo

/-- Completes a command in the single form (R367, R368). -/
def State.single (s : State) (c : Ctx) (status : Nat) (d0 d1 : Nat) : State :=
  s.postCpl c.src c.cring
    { done := true, acc := true, epoch := s.epoch, opcode := c.opcode, status := status, handle := c.handle, tag := c.tag,
      sidx := s.sidx, d0 := BitVec.ofNat 32 d0, d1 := BitVec.ofNat 32 d1 }

/-- Accepts a command whose work goes on: its ACC entry with effective index `eff`, and its record (R367, R374). -/
def State.accept (s : State) (c : Ctx) (eff d1 : Nat) (sched : Bool) (late : Nat) : State :=
  let s := s.postCpl c.src c.cring
    { done := false, acc := true, epoch := s.epoch, opcode := c.opcode, status := stOk, handle := c.handle, tag := c.tag,
      sidx := eff, d0 := 0, d1 := BitVec.ofNat 32 d1 }
  { s with host := { s.host with cmds := s.host.cmds ++
    [{ src := c.src, cring := c.cring, handle := c.handle, opcode := c.opcode, tag := c.tag, sidx := eff, discard := false,
       sched := sched, late := late, d0 := 0 }] } }

/-- The record of the pending command with handle `h`. -/
def State.cmdOf (s : State) (h : Nat) : Option Cmd := s.host.cmds.find? (fun c => c.handle == h)

/-- A Basic reset of HOST (R380): once no command from any ring is pending, all rings take EN = 0. -/
def State.hostDrained (s : State) : State :=
  if s.host.draining && s.host.held.isEmpty && s.host.cmds.all (fun c => c.src == directPort || c.discard) then
    let s := (List.range 128).foldl (fun (s : State) r =>
      if s.flag (HOST_RING.EN r) then (s.setFld (HOST_RING.EN r) 0).setFld (HOST_RING.STATE r) 0 else s) s
    { s with host := { s.host with draining := false, noFetch := false, armed := [] } }
  else s

/-- Completes the pending command with handle `h` at effective index `eff`; a scheduled command's DONE carries its
lateness in DETAIL0 [31:16] (R387), and a late one that finishes well carries LATE (R195). -/
def State.finishAt (s : State) (h eff status d0 d1 : Nat) : State :=
  match s.cmdOf h with
  | none => s
  | some c =>
    let s := { s with host := { s.host with cmds := s.host.cmds.filter (fun c => c.handle != h) } }
    if c.discard then s.hostDrained
    else
      let status := if status = stOk ∧ c.late ≠ 0 then stLate else status
      let d0 := if c.sched then min c.late 65535 * 65536 + d0 % 65536 else d0
      (s.postCpl c.src c.cring
        { done := true, acc := false, epoch := s.epoch, opcode := c.opcode, status := status, handle := h, tag := c.tag,
          sidx := eff, d0 := BitVec.ofNat 32 d0, d1 := BitVec.ofNat 32 d1 }).hostDrained

/-- Completes a pending command, SIDX being the index of its record. -/
def State.finish (s : State) (h status d0 d1 : Nat) : State :=
  match s.cmdOf h with
  | none => s
  | some c => s.finishAt h c.sidx status d0 d1

/-- Completes for an operation that may have no command behind it. -/
def State.finishOpt (s : State) (h : Option Nat) (status d0 d1 : Nat) : State :=
  match h with
  | none => s
  | some h => s.finish h status d0 d1

/-- The detail kept with a pending command. -/
def State.cmdD0 (s : State) (h : Nat) : Nat := ((s.cmdOf h).map (fun c => c.d0)).getD 0

/-- Changes the record of a pending command. -/
def State.updCmd (s : State) (h : Nat) (f : Cmd → Cmd) : State :=
  { s with host := { s.host with cmds := s.host.cmds.map (fun c => if c.handle = h then f c else c) } }

/-- An applied scene completes its commit (R198, R389). -/
def State.sceneDone (s : State) (r : SceneRun) : State :=
  let s := { s with scn := { s.scn with runs := s.scn.runs.filter (fun x => x.handle != r.handle) } }
  s.finishAt r.handle r.s r.status (min r.qmax 65535) (r.first * 2 ^ 16 + r.rounding * 2 ^ 10 + min r.refused 1023)

/-- Something that command or scene `h` started has ended: a scene counts it off, a command completes (R149, R168, R198).
`q` is the queueing delay. -/
def State.opDone (s : State) (h : Option Nat) (eff status d0 d1 q : Nat) : State :=
  match h with
  | none => s
  | some h =>
    match s.scn.runs.find? (fun r => r.handle == h) with
    | none => s.finishAt h eff status d0 d1
    | some r =>
      let r := { r with left := r.left - 1, qmax := max r.qmax q }
      if r.left = 0 then s.sceneDone r
      else { s with scn := { s.scn with runs := s.scn.runs.map (fun x => if x.handle = h then r else x) } }

/-! Which function owns an offset; host writes (R27-R32, R362, R363) -/

/-- The function that owns an offset of a block window: its level register, its bit, and whether the offset lies on the
Expert page (R28). -/
structure Owner where
  lvl : Nat
  bit : Nat
  expert : Bool
  deriving DecidableEq, Repr

/-- The owner of a BAR0 offset; none outside every block window (R28, R362). -/
def owner (off : Nat) : Option Owner :=
  let sub (base bit : Nat) : Option Owner := some ⟨base + 0xFC, bit, decide (0x100 ≤ off - base)⟩
  if off < 0x100000 then
    sub 0 (if (0x40 ≤ off ∧ off ≤ 0x5F) ∨ (0x200 ≤ off ∧ off ≤ 0x2FF) then 1
      else if (0x60 ≤ off ∧ off ≤ 0x8F) ∨ (0x300 ≤ off ∧ off ≤ 0x3FF) then 2
      else if 0x90 ≤ off ∧ off ≤ 0xBF then 3 else 0)
  else if off < 0x200000 then sub 0x100000 0
  else if off < 0x300000 then sub 0x200000 0
  else if off < 0x380000 then
    let w := off - 0x300000
    sub 0x300000 (if (0x80 ≤ w ∧ w ≤ 0xFB) ∨ (0x200 ≤ w ∧ w ≤ 0x2FF) ∨ (0x1000 ≤ w ∧ w ≤ 0x1FFF) then 1 else 0)
  else if off < 0x400000 then
    let w := off - 0x380000
    sub 0x380000 (if (0x80 ≤ w ∧ w ≤ 0xFB) ∨ (0x400 ≤ w ∧ w ≤ 0x4FF) then 1 else 0)
  else if off < 0x420000 then sub (off / 0x1000 * 0x1000) 0
  else if 0x440000 ≤ off ∧ off < 0x450000 then sub 0x440000 0
  else if 0x500000 ≤ off ∧ off < 0x1000000 then sub (off / 0x100000 * 0x100000) 0
  else none

/-- The direct command port registers (R30). -/
def isCmdPort (off : Nat) : Bool := 0x100000 ≤ off && off ≤ 0x10003C

/-- The ring doorbells (R32). -/
def isDoorbell (off : Nat) : Bool := 0x102000 ≤ off && off < 0x102200

/-- XMODE and BASIC_RESET bits of a function (R27). -/
def State.xmode (s : State) (o : Owner) : Bool := bitOf (s.reg o.lvl) o.bit
def State.inReset (s : State) (o : Owner) : Bool := bitOf (s.reg o.lvl) (8 + o.bit)

/-- Sets a function's XMODE bit (R29). -/
def State.setXmode (s : State) (o : Owner) : State := s.setReg o.lvl (setBits (s.reg o.lvl) o.bit o.bit 1)

/-- Raises BASIC_LOCKED (0x03) or LEVEL_BUSY (0x04) with the contents of R30. "The function's bit" is read as the one-hot
value of SOURCE [3:0], not as the bit's number: DESIGN CHOICE (log entry 12). -/
def State.raiseLevel (s : State) (code : Nat) (o : Owner) (cmd : Bool) (a1 : Nat) : State :=
  s.raiseN2 code (b2n cmd * 2 ^ 15 + 2 ^ o.bit) o.lvl a1

/-- A host write to a register, with the checks of R29, R30 and R32 before its effect `eff`; in factory test the PCIe
endpoint does not answer (R479). A Basic-page write while XMODE and BASIC_RESET both read 1 raises both events: DESIGN CHOICE
(log entry 12). -/
def State.hostWrite (s : State) (off : Nat) (eff : State → State) : State :=
  if s.glb.testEn then s
  else match owner off with
  | none => eff s
  | some o =>
    if off = o.lvl ∨ isCmdPort off then eff s
    else if isDoorbell off ∧ s.inReset o then eff s
    else if o.expert then
      if s.inReset o then s.raiseLevel 0x04 o false off else eff (s.setXmode o)
    else if s.xmode o ∨ s.inReset o then
      let s' := if s.xmode o then s.raiseLevel 0x03 o false off else s
      if s.inReset o then s'.raiseLevel 0x04 o false off else s'
    else eff s

/-- The plain write of a listed register: RW bits take the value, W1C bits clear; an RO register or an unlisted offset
keeps its value (R6, R7, R363). -/
def State.plainWrite (s : State) (off : Nat) (v : Word) : State :=
  match findRow off with
  | none => s
  | some (r, _) =>
    let old := (s.reg off).toNat
    let kept := Nat.land old (ctrMax - r.rw)
    let new := Nat.lor kept (Nat.land v.toNat r.rw)
    s.setReg off (BitVec.ofNat 32 (Nat.land new (ctrMax - Nat.land v.toNat r.w1c)))

/-- The node ID in force (R258): RAFT_NODE holds the fused one. -/
def State.nodeId (s : State) : Nat := if s.flag RAFT_XNODE.OVR then s.fld RAFT_XNODE.NODE else s.fld RAFT_NODE.NODE

end Sys2Proof.Machine
end

