-- ==== Sys2Proof/Machine/Operands.lean ====
section
/-! DEFINITION. Operand forms of the engine instructions: register and lane reads, lane formats, pointers and rings, local
memory and the kerf parameter store (R59-R66, R74, R75, R104-R107, R112-R120). -/

namespace Sys2Proof.Machine

/-! Engines in the state -/

/-- Engine `e`. -/
def State.engOf (s : State) (e : Nat) : Engine := Tbl.get (fun _ => Engine.reset) s.eng e

/-- The state with engine `e` changed. -/
def State.setEng (s : State) (e : Nat) (x : Engine) : State := { s with eng := Tbl.put (fun _ => Engine.reset) s.eng e x }

/-- The control engine. -/
def isCE (e : Nat) : Bool := e == 16

/-! Registers -/

/-- A scalar register. -/
def Engine.gget (x : Engine) (r : Nat) : Word := Tbl.get (fun _ => 0) x.r.g r
def Engine.pget (x : Engine) (r : Nat) : Word := Tbl.get (fun _ => 0) x.r.p r
def Engine.mget (x : Engine) (r : Nat) : Word := Tbl.get (fun _ => 0) x.r.m r

/-- A predicate register: Q0 always reads 0xFFFF (R59). -/
def Engine.qget (x : Engine) (r : Nat) : BitVec 16 := if r = 0 then 0xFFFF else Tbl.get (fun _ => 0) x.r.q r

/-- The lanes that exist: on the control engine lane 0 alone (R86). -/
def lanesOf (ce : Bool) : List Nat := if ce then [0] else List.range 16

/-- The lanes that predicate `q` enables. -/
def Engine.enabled (x : Engine) (ce : Bool) (q : Nat) : List Nat :=
  (lanesOf ce).filter (fun k => (x.qget q).getLsbD k)

/-- Qr as a branch tests it: on the control engine only bit 0 has effect (R86). -/
def Engine.qtest (x : Engine) (ce : Bool) (r : Nat) : BitVec 16 := if ce then x.qget r &&& 1 else x.qget r

/-- Lane `k` of Vr; lanes 1-15 of the control engine read 0 (R86). -/
def Engine.vget (x : Engine) (ce : Bool) (r k : Nat) : BitVec 64 :=
  if ce ∧ k ≠ 0 then 0 else Tbl.get (fun _ => 0) x.r.v (16 * r + k)

/-- Half `h` of lane `k` of An, for a MAC-class instruction and for any other read (R71). -/
def Engine.amget (x : Engine) (r h k : Nat) : Int := (Tbl.get (fun _ => 0) x.r.am (32 * r + 16 * h + k)).toInt
def Engine.aget (x : Engine) (r h k : Nat) : Int := (Tbl.get (fun _ => 0) x.r.a (32 * r + 16 * h + k)).toInt

/-- The flags. -/
def Engine.flags (x : Engine) : Nat := bitsOf x.r.est 3 0

/-- EST as a read shows it: live IP, TWIN and BANK over the sticky bits and flags. -/
def Engine.estRead (x : Engine) : Word :=
  setBits (setBits (setBits x.r.est 31 24 x.ip.toNat) 17 17 (b2n x.twin)) 16 16 x.bank

/-- The second operand of a scalar instruction (R102). -/
def Engine.sop (x : Engine) : SOp → Word
  | .reg b => x.gget b.val
  | .imm i => i.signExtend 32

/-- Lane formats (R104, R107): bits [39:0] as B40, and the two signed halves. -/
def sig40 (w : BitVec 64) : Int := toSigned 40 w.toNat
def reOf (w : BitVec 64) : Int := toSigned 32 w.toNat
def imOf (w : BitVec 64) : Int := toSigned 32 (w.toNat / 2 ^ 32)

/-- A lane from a B40 value, sign-extended, and from two halves. -/
def lane40 (v : Int) : Nat := ofSigned 64 v
def laneC (re im : Int) : Nat := ofSigned 32 re + 2 ^ 32 * ofSigned 32 im

/-- Fraction bits of a coefficient format (R107). -/
def cfBits : Cf → Nat
  | .q31 => 31
  | .q30 => 30
  | .q28 => 28

/-- A product aligned to 62 fraction bits (R44, R107). -/
def prodOf (s c : Int) (cf : Cf) : Int := s * c * ((2 ^ (31 - cfBits cf) : Nat) : Int)

/-! Pointers and rings (R60, R61, R74, R75, R118) -/

/-- How an access through a pointer is addressed, after R60 and R61. -/
inductive PMode where
  | lin | circ | rev
  deriving DecidableEq, Repr

/-- Ring descriptor fields in force: the 24-bit BASE, and LEN. -/
def Engine.rbase (x : Engine) (n : Nat) : Nat := (Tbl.get (fun _ => 0) x.r.b n).toNat % 2 ^ 24
def Engine.rlen (x : Engine) (n : Nat) : Nat := (Tbl.get (fun _ => 0) x.r.b (8 + n)).toNat

/-- A ring that is enabled: LEN from 8 to 0x10_0000, a multiple of 8 (R61). -/
def ringOk (len : Nat) : Bool := len != 0 && len ≤ 0x100000 && len % 8 == 0

/-- Addressing of pointer word `p`, and whether it was degraded (EST.ACCERR): R60, R61. -/
def Engine.pmode (x : Engine) (p : Word) : PMode × Bool :=
  let n := bitsOf p 29 27
  match bitsOf p 31 30 with
  | 0 => (.lin, false)
  | 3 => (.lin, true)
  | a =>
    let len := x.rlen n
    if !ringOk len then (.lin, true)
    else if a = 1 then (.circ, false)
    else if 2 ^ len.log2 = len ∧ x.rbase n % len = 0 then (.rev, false) else (.circ, true)

/-- An address reduced into a ring (R75). -/
def reduceTo (base len : Nat) (a : Nat) : Nat := base + (((a : Int) - base) % (len : Int)).toNat

/-- The address of a pointer, reduced into its ring, with whether it lay outside (R75). -/
def Engine.paddr (x : Engine) (p : Word) : Nat × Bool :=
  let a := bitsOf p 23 0
  match (x.pmode p).1 with
  | .lin => (a, false)
  | _ =>
    let n := bitsOf p 29 27
    let b := x.rbase n
    let l := x.rlen n
    if b ≤ a ∧ a < b + l then (a, false) else (reduceTo b l a, true)

/-- The address `n` bytes from a reduced pointer address (R118). -/
def Engine.eaFrom (x : Engine) (p : Word) (a : Nat) (n : Int) : Nat :=
  match (x.pmode p).1 with
  | .lin => (((a : Int) + n) % (2 ^ 24 : Nat)).toNat
  | _ =>
    let r := bitsOf p 29 27
    x.rbase r + (((a : Int) - x.rbase r + n) % (x.rlen r : Int)).toNat

/-- The low `n` bits of `v` in reverse order. -/
def revBits : Nat → Nat → Nat
  | 0, _ => 0
  | n + 1, v => v % 2 * 2 ^ n + revBits n (v / 2)

/-- Reversed-carry addition of R74: offset `o`, increment `m`, ring length 2^hi, access size 2^lo. -/
def revAdd (o : Nat) (m : Int) (hi lo : Nat) : Nat :=
  let w := hi - lo
  let f := o / 2 ^ lo % 2 ^ w
  let g := ofSigned 32 m / 2 ^ lo % 2 ^ w
  revBits w ((revBits w f + revBits w g) % 2 ^ w) * 2 ^ lo + o % 2 ^ lo

/-- A pointer address post-modified by `m` bytes, for access size 2^lo (R74). -/
def Engine.postAddr (x : Engine) (p : Word) (a : Nat) (m : Int) (lo : Nat) : Nat :=
  match (x.pmode p).1 with
  | .lin => (((a : Int) + m) % (2 ^ 24 : Nat)).toNat
  | .circ =>
    let r := bitsOf p 29 27
    x.rbase r + (((a : Int) - x.rbase r + m) % (x.rlen r : Int)).toNat
  | .rev =>
    let r := bitsOf p 29 27
    x.rbase r + revAdd (a - x.rbase r) m (x.rlen r).log2 lo

/-- An addressed operand: the base address used, the byte offset of word `j` is added by `eaFrom`; the pointer word after
the access, if it changes; whether the access was degraded, and the address before a reduction. -/
structure Addr where
  base : Nat
  off : Int
  after : Option Word
  degraded : Bool
  reshaped : Option Nat
  deriving DecidableEq, Repr

/-- The operand of an address mode, for access size 2^lo (R118, R75). -/
def Engine.addrOf (x : Engine) (pr : Nat) (am : AMode) (lo : Nat) : Addr :=
  let p := x.pget pr
  let (a, out) := x.paddr p
  let with_ (a : Nat) : Word := setBits p 23 0 a
  let red := if out then some (with_ a) else none
  let sz : Int := ((2 ^ lo : Nat) : Int)
  let rs := if out then some (bitsOf p 23 0) else none
  match am with
  | .plain => ⟨a, 0, red, (x.pmode p).2, rs⟩
  | .postM m => ⟨a, 0, some (with_ (x.postAddr p a (x.mget m.val).toInt lo)), (x.pmode p).2, rs⟩
  | .offset n => ⟨a, n.toInt * sz, red, (x.pmode p).2, rs⟩
  | .postN n => ⟨a, 0, some (with_ (x.postAddr p a (n.toInt * sz) lo)), (x.pmode p).2, rs⟩

/-- The address of byte offset `k` of an operand. -/
def Engine.eaOf (x : Engine) (pr : Nat) (d : Addr) (k : Nat) : Nat := x.eaFrom (x.pget pr) d.base (d.off + k)

/-! Kerf parameter store (R66, R112, R113) -/

/-- Entry `i`. -/
def Engine.kpsOf (x : Engine) (i : Nat) : KpsEntry := Tbl.get (fun _ => KpsEntry.reset) x.kps i
def Engine.setKps (x : Engine) (i : Nat) (k : KpsEntry) : Engine := { x with kps := Tbl.put (fun _ => KpsEntry.reset) x.kps i k }

/-- The record of entry `i`, oldest state first; never empty. -/
def Engine.recOf (x : Engine) (i : Nat) : List KSt := Tbl.get (fun _ => [KSt.reset]) x.krec i
def Engine.setRec (x : Engine) (i : Nat) (l : List KSt) : Engine := { x with krec := Tbl.put (fun _ => [KSt.reset]) x.krec i l }

/-- The four words of an entry (R66). -/
def KpsEntry.word (k : KpsEntry) (w : Nat) : Word :=
  match w with
  | 0 => k.start
  | 1 => k.tgt
  | 2 => BitVec.ofNat 32 (b2n k.busy * 2 ^ 31 + b2n k.kend * 2 ^ 30 + k.curve * 2 ^ 28 + k.fmt * 2 ^ 26)
  | _ => BitVec.ofNat 32 (k.spanm1 * 2 ^ 16 + k.elapsed)

/-- Fraction bits of an entry format: S32, Q4.28 and integer (R66). -/
def fmtFrac (fmt : Nat) : Nat := if fmt = 0 then 31 else if fmt = 1 then 28 else 0

/-- The value of a parameter kerf at x = num / den, rounded to the entry's format (R162, R45). -/
def kerfValue (curve fmt : Nat) (start tgt : Word) (num den : Nat) : Word :=
  if den ≤ num then tgt
  else
    let a := start.toInt
    let b := tgt.toInt
    let v : Int :=
      if curve = curveDbl then rneShift (dblValue a.toNat b.toNat (fmtFrac fmt) num den) 96
      else rneShift (a * fx1 + (b - a) * shapeUp curve num den) 96
    BitVec.ofInt 32 (satS 32 v)

/-- The value KGET reads from an entry (R112); an entry with FMT = 3 reads as 0. -/
def KpsEntry.value (k : KpsEntry) : Word :=
  if k.fmt = 3 then 0
  else if !k.busy || decide (0 < k.lead) then k.start
  else kerfValue k.curve k.fmt k.start k.tgt (k.elapsed + 1) (k.spanm1 + 1)

/-- The value a record state has in force at sample `n` (R161, R162). -/
def KSt.valueAt (c : KSt) (n : Nat) : Word :=
  if c.busy then kerfValue c.curve c.fmt c.start c.tgt (n + 1 - c.s0) c.span else c.start

/-- The state in force at sample `n`. -/
def recAt (l : List KSt) (n : Nat) : KSt := ((l.filter (fun c => decide (c.s0 ≤ n))).getLast?).getD (l.headD KSt.reset)

/-- The kerf of a record state has ended by sample `n` (R161). -/
def KSt.endedBy (c : KSt) (n : Nat) : Bool := !c.busy || decide (c.s0 + c.span ≤ n)

/-- Loads a change into an entry: a kerf starts from the value given for the previous sample, a step writes START (R114). -/
def KpsEntry.load (k : KpsEntry) (c : KSt) (prev : Word) : KpsEntry :=
  if c.busy then
    { k with start := prev, tgt := c.tgt, curve := c.curve, fmt := c.fmt, spanm1 := c.span - 1, kend := c.kend,
             busy := true, elapsed := 0, lead := 0, s0 := c.s0 }
  else { k with start := c.start, fmt := c.fmt, busy := false, elapsed := 0, lead := 0, s0 := c.s0 }

/-- An entry advanced by one sample (R113): the entry, and the start of a kerf with KEND that has just settled. -/
def KpsEntry.advance (k : KpsEntry) : KpsEntry × Option Nat :=
  let prev := k.value
  let (k1, fin) : KpsEntry × Option Nat :=
    if !k.busy then (k, none)
    else if 0 < k.lead then ({ k with lead := k.lead - 1 }, none)
    else if k.elapsed + 1 = k.spanm1 + 1 then
      ({ k with start := k.tgt, busy := false, elapsed := 0 }, if k.kend then some k.s0 else none)
    else ({ k with elapsed := k.elapsed + 1 }, none)
  let k2 := { k1 with pos := k1.pos + 1 }
  match k2.ahead with
  | (o, c) :: rest => if o = k2.pos then ({ (k2.load c prev) with ahead := rest }, fin) else (k2, fin)
  | [] => (k2, fin)

/-! Local memory (R62-R64) -/

/-- `a` lies in the 32 KiB block at `base`. -/
def inBlk (a base : Nat) : Bool := base ≤ a && a < base + 0x8000

/-- DMEM, and the KPS. -/
def inDmem (a : Nat) : Bool := 0x100000 ≤ a && a < 0x180000
def inKps (a : Nat) : Bool := 0x200000 ≤ a && a < 0x210000

/-- Addresses an engine may load from and store to (R62, R64, R86). -/
def Engine.readable (x : Engine) (ce : Bool) (a : Nat) : Bool :=
  inDmem a || (!ce && (inKps a || inBlk a x.icur || inBlk a x.ocur))
def Engine.writable (x : Engine) (ce : Bool) (a : Nat) : Bool :=
  inDmem a || (!ce && (inBlk a x.icur || inBlk a x.ocur))

/-- The aligned word of `n` bytes at `a`; the new program of a twin run has its own output blocks (R92). -/
def Engine.rawRead (x : Engine) (a n : Nat) : Nat :=
  if inKps a then
    let k := x.kpsOf ((a - 0x200000) / 16)
    let w := (a - 0x200000) % 16 / 4
    if n = 4 then (k.word w).toNat else (k.word w).toNat + 2 ^ 32 * (k.word (w + 1)).toNat
  else if x.twin && inBlk a x.ocur then leValue (Memory.readBytes x.kbuf a n)
  else leValue (Memory.readBytes x.mem a n)

/-- Stores an aligned word of `n` bytes at `a`. -/
def Engine.rawWrite (x : Engine) (a n v : Nat) : Engine :=
  if x.twin && inBlk a x.ocur then { x with kbuf := Memory.writeBytes x.kbuf a (leBytes n v) }
  else { x with mem := Memory.writeBytes x.mem a (leBytes n v) }

/-- A load of `n` bytes: 0 and ACCERR where it is refused (R62). -/
def Engine.load (x : Engine) (ce : Bool) (a n : Nat) : Nat × Bool :=
  if x.readable ce a then (x.rawRead a n, false) else (0, true)

/-- A store of `n` bytes: nothing and ACCERR where it is refused (R62). -/
def Engine.store (x : Engine) (ce : Bool) (a n v : Nat) : Engine × Bool :=
  if x.writable ce a then (x.rawWrite a n v, false) else (x, true)

/-- Stall cycles of a vector access over its 16 word addresses: one for each break (R98). -/
def vectorBreaks : List Nat → Nat
  | a :: b :: t =>
    (if b ≠ a + 8 ∨ (inDmem a ∧ inDmem b ∧ a / 0x8000 ≠ b / 0x8000) then 1 else 0) + vectorBreaks (b :: t)
  | _ => 0

/-- The DMEM bank of an address. -/
def bankOf (a : Nat) : Nat := (a - 0x100000) / 0x8000

end Sys2Proof.Machine
end

