-- ==== Sys2Proof/Machine/EngineCore.lean ====
section
/-! DEFINITION. How an engine issues bundles: results in flight, the next PC, repeats, delay slots, halting, and the shared
forms of the X-slot and Y-slot instructions (R71-R80, R93-R98, R126-R130, R498). -/

namespace Sys2Proof.Machine

/-! Engine states (R56) -/

def engStopped : Nat := 0
def engRunning : Nat := 1
def engWaiting : Nat := 2
def engTwin : Nat := 3
def engHalted : Nat := 4

/-- ENG_STAT.STATE of engine `e`. -/
def State.engState (s : State) (e : Nat) : Nat := s.fld (ENG_STAT.STATE e)

/-- Engine `e` executes bundles: RUNNING or TWIN, not asleep in CIDLE, not past the boundary of a stop. -/
def State.engRuns (s : State) (e : Nat) : Bool :=
  (s.engState e == engRunning || s.engState e == engTwin) && !(s.engOf e).idle && (s.engOf e).stopping.isNone

/-- An engine at rest: STOPPED or HALTED. -/
def State.engAtRest (s : State) (e : Nat) : Bool := s.engState e == engStopped || s.engState e == engHalted

/-! Results (R71-R73) -/

/-- A result lands (R59, R60): reserved pointer bits and writes to Q0 are dropped, and the lanes 1-15 of the CE. -/
def ERegs.land (r : ERegs) (ce : Bool) (d : Dest) (v : Nat) : ERegs :=
  match d with
  | .v n k => if ce ∧ k ≠ 0 then r else { r with v := Tbl.put (fun _ => 0) r.v (16 * n + k) (BitVec.ofNat 64 v) }
  | .a n h k => if ce ∧ k ≠ 0 then r else { r with a := Tbl.put (fun _ => 0) r.a (32 * n + 16 * h + k) (BitVec.ofNat 80 v) }
  | .am n h k => if ce ∧ k ≠ 0 then r else { r with am := Tbl.put (fun _ => 0) r.am (32 * n + 16 * h + k) (BitVec.ofNat 80 v) }
  | .q n => if n = 0 then r else { r with q := Tbl.put (fun _ => 0) r.q n (BitVec.ofNat 16 v) }
  | .g n => { r with g := Tbl.put (fun _ => 0) r.g n (BitVec.ofNat 32 v) }
  | .p n => { r with p := Tbl.put (fun _ => 0) r.p n (setBits (BitVec.ofNat 32 v) 26 24 0) }
  | .m n => { r with m := Tbl.put (fun _ => 0) r.m n (BitVec.ofNat 32 v) }
  | .flags => { r with est := setBits r.est 3 0 v }
  | .sticky b => { r with est := setBits r.est b b 1 }
  | .ectl => { r with ectl := BitVec.ofNat 32 v }
  | .sys n => if n = 1 then { r with est := BitVec.ofNat 32 v } else if n = 2 then { r with ipc := v % 2 ^ 15 }
      else if n = 3 then { r with iest := BitVec.ofNat 32 v } else { r with ivb := v % 2 ^ 15 }
  | .lcnt n => { r with lcnt := Tbl.put (fun _ => 0) r.lcnt n (v % 2 ^ 24) }
  | .lbeg n => { r with lbeg := Tbl.put (fun _ => 0) r.lbeg n (v % 2 ^ 15) }
  | .lend n => { r with lend := Tbl.put (fun _ => 0) r.lend n (v % 2 ^ 15) }
  | .ldepth => { r with ldepth := v }

/-- The register a destination belongs to, for the collisions of R72; sticky bits and the MAC view never collide. -/
def Dest.regKey : Dest → Option (Nat × Nat)
  | .v r _ => some (0, r)
  | .a r _ _ => some (1, r)
  | .am _ _ _ => none
  | .q r => if r = 0 then none else some (2, r)
  | .g r => some (3, r)
  | .p r => some (4, r)
  | .m r => some (5, r)
  | .flags => some (6, 0)
  | .sys 1 => some (6, 0)
  | .sticky _ => none
  | .ectl => some (7, 0)
  | .sys r => some (8, r)
  | .lcnt n => some (9, n)
  | .lbeg n => some (10, n)
  | .lend n => some (11, n)
  | .ldepth => some (12, 0)

/-- Two results of different instructions reach one register together (R72). -/
def collide (a b : Res) : Bool :=
  a.dst.regKey.isSome && a.dst.regKey == b.dst.regKey && (a.age != b.age || a.isX != b.isX)

/-- Results that reach their registers together, the later-issued and within a bundle the X-slot one last (R72). -/
def Engine.landAll (x : Engine) (ce : Bool) (l : List Res) : Engine :=
  let r := l.foldl (fun r a => r.land ce a.dst a.val) x.r
  if l.any (fun a => l.any (fun b => collide a b)) then { x with r := r.land ce (.sticky 21) 1 } else { x with r := r }

/-- One bundle position passes: every result in flight comes one bundle nearer, and those that are due land (R71). -/
def Engine.stepRes (x : Engine) (ce : Bool) (fresh : List Res) : Engine :=
  let all := (x.infl ++ fresh).map (fun a => { a with left := a.left - 1, age := a.age + 1 })
  { x.landAll ce (all.filter (fun a => a.left == 0)) with infl := all.filter (fun a => a.left != 0) }

/-- Every result in flight reaches its destination, in the order of time (R73). -/
def Engine.drain (x : Engine) (ce : Bool) : Engine :=
  (((x.stepRes ce []).stepRes ce []).stepRes ce []).stepRes ce []

/-- A result that is seen `l` bundles later. -/
def resX (d : Dest) (v l : Nat) : Res := ⟨d, v, l, 0, true⟩
def resY (d : Dest) (v l : Nat) : Res := ⟨d, v, l, 0, false⟩

/-! The next PC (R77, R78, R126, R498) -/

/-- The bundle after `pc`, which never leaves the bank (R498). -/
def seqPc (pc : Nat) : Nat := pc / 16384 * 16384 + (pc + 1) % 16384

/-- A bundle index of the executing bank. -/
def bankPc (pc target : Nat) : Nat := pc / 16384 * 16384 + target % 16384

/-- The PC after a bundle that no branch redirects: the loop-back decision of R78, which stays in the bank (R498). -/
def ERegs.loopNext (r : ERegs) : ERegs :=
  if r.ldepth = 0 then { r with pc := seqPc r.pc }
  else
    let n := r.ldepth - 1
    if r.pc ≠ Tbl.get (fun _ => 0) r.lend n then { r with pc := seqPc r.pc }
    else
      let c := Tbl.get (fun _ => 0) r.lcnt n
      if 1 < c then { r with lcnt := Tbl.put (fun _ => 0) r.lcnt n (c - 1), pc := bankPc r.pc (Tbl.get (fun _ => 0) r.lbeg n) }
      else { r with lcnt := Tbl.put (fun _ => 0) r.lcnt n 0, ldepth := n, pc := seqPc r.pc }

/-- The next PC, after delay slots and set-up slots (R77, R126): a taken branch whose delay slots end here goes before
everything else (R78); a REP's own bundle ends no body (R77). -/
def Engine.advance (x : Engine) : Engine :=
  let r :=
    match (if x.dly = 1 then x.dtgt else none), (if x.setup = 2 then x.skip else none) with
    | some t, _ => { x.r with pc := t }
    | none, some t => { x.r with pc := t }
    | none, none => if x.setup = 3 then { x.r with pc := seqPc x.r.pc } else x.r.loopNext
  { x with r := r, dly := x.dly - 1, dtgt := if x.dly = 1 then none else x.dtgt,
           setup := if x.setup = 2 ∧ x.skip.isSome then 0 else x.setup - 1,
           skip := if x.setup = 2 then none else x.skip, lwin := x.lwin - 1 }

/-- Marks the kerf of entry `i` that began at `s0` as having asserted its kerf-end interrupt (R114). -/
def Engine.markFired (x : Engine) (i s0 : Nat) : Engine :=
  x.setRec i ((x.recOf i).map (fun c => if c.s0 = s0 then { c with fired := true } else c))

/-- Entry `i` advances by one sample; a kerf with KEND that settles asserts the kerf-end interrupt (R113). -/
def Engine.advanceKps (x : Engine) (i : Nat) : Engine :=
  let (k, fin) := (x.kpsOf i).advance
  let x := x.setKps i k
  match fin with
  | some s0 => { x.markFired i s0 with ip := x.ip ||| 32 }
  | none => x

/-- The bundle in issue completes: its results start on their way, the KPS entries of its KGET advance, the PC moves on,
one cycle is counted, and single stepping raises the debug interrupt (R71, R78, R98, R113; ECTL.SSTEP). -/
def Engine.endBundle (x : Engine) (ce : Bool) : Engine :=
  let y := (x.adv.foldl Engine.advanceKps x).advance.stepRes ce (x.curY ++ x.curX)
  { y with curX := [], curY := [], mid := false, stall := false, tluBanks := [], adv := [], xst := 0, cyc := y.cyc + 1,
           ip := if bitOf y.r.ectl 1 && !y.inDbg then y.ip ||| 8 else y.ip }

/-- Stall cycles counted in ENG_BSTALL_CNT (R98). -/
def State.bankStall (s : State) (e n : Nat) : State :=
  if n = 0 then s
  else
    let x := s.engOf e
    (s.setEng e { x with cyc := x.cyc + n }).bumpBy (ENG_BSTALL_CNT.adr e) n

/-- ENG_STAT.PC follows the engine's PC. -/
def State.showPc (s : State) (e : Nat) : State := s.setFld (ENG_STAT.PC e) (s.engOf e).r.pc

/-- The bundle in issue of engine `e` completes. -/
def State.endBundle (s : State) (e : Nat) : State :=
  let s := s.bankStall e (s.engOf e).xst
  (s.setEng e ((s.engOf e).endBundle (isCE e))).showPc e

/-! Halting (R77, R88, R89, R94, R95, R402) -/

/-- Releases a program kerf that ends early, its command completing with ABORTED (R180). -/
def State.abortProg (s : State) (e : Nat) : State :=
  match (s.engOf e).prog with
  | none => s
  | some k =>
    let x := s.engOf e
    let s := s.setEng e { x with prog := none, hidden := none, hiddenWait := none, twin := false }
    let s := if e < 16 then s.setFld KRF_TWIN.ENG (s.fld KRF_TWIN.ENG - s.fld KRF_TWIN.ENG / 2 ^ e % 2 * 2 ^ e) else s
    s.opDone k.handle k.s stAborted 0 0 0

/-- The engine halts (R56): results of earlier bundles reach their destinations, its haul slots are cleared and its
master is isolated (R402), and ENG_FAULT is raised for causes 1, 2 and 4 (R90). -/
def State.haltEng (s : State) (e cause : Nat) : State :=
  let x := (s.engOf e).drain (isCE e)
  let s := s.setEng e { x with curX := [], curY := [], mid := false, stall := false, dly := 0, dtgt := none, setup := 0,
                               skip := none, lwin := 0, waitFor := none, heldX := [], tluBanks := [], adv := [], xst := 0,
                               haul := [], idle := false }
  let s := s.isolate e
  let s := ((s.showPc e).setFld (ENG_STAT.STATE e) engHalted).setFld (ENG_STAT.CAUSE e) cause
  let s := s.abortProg e
  if cause = 1 ∨ cause = 2 ∨ cause = 4 then s.raiseN2 0x20 e cause (s.fld (ENG_STAT.PC e)) else s

/-! X-slot forms -/

/-- A vector register read with lanes in error: parity is reported per lane (R89). -/
def State.laneParity (s : State) (e : Nat) (mask : Nat) : State :=
  let mask := if isCE e then mask % 2 else mask
  if mask = 0 then s
  else
    let x := s.engOf e
    let s := s.setEng e { x with ip := x.ip ||| 1 }
    let s := s.setFld (ENG_LFAULT.PARITY e) (Nat.lor (s.fld (ENG_LFAULT.PARITY e)) mask)
    (s.noteErr e 0).raiseN2 0x22 e mask 0

/-- Engine `e` can issue the X half of a new bundle. -/
def State.canX (s : State) (e : Nat) : Bool := s.engRuns e && !(s.engOf e).mid && !(s.engOf e).stall

/-- Issues an X-slot instruction: `f` gives the engine with what the instruction holds until its bundle completes, and its
results. With no Y half to follow, the bundle completes. -/
def State.xslotWith (s : State) (e : Nat) (pair : Bool) (par : Nat) (f : Engine → Engine × List Res) : State :=
  if !s.canX e then s
  else
    let (x, res) := f (s.engOf e)
    let s := (s.setEng e { x with curX := res, mid := true }).laneParity e par
    if pair then s else s.endBundle e

/-- Issues an X-slot instruction with results `res`. -/
def State.xslot (s : State) (e : Nat) (pair : Bool) (par : Nat) (res : Engine → List Res) : State :=
  s.xslotWith e pair par (fun x => (x, res x))

/-- The enabled lanes of a vector instruction, each with its result or 0 when its lane was read in error (R89, R96). -/
def laneRes (x : Engine) (ce : Bool) (q : Nat) (par : BitVec 16) (f : Nat → Nat × Bool) : List (Nat × Nat × Bool) :=
  (x.enabled ce q).map (fun k => if par.getLsbD k then (k, 0, false) else (k, (f k).1, (f k).2))

/-- Results into the lanes of Vd seen `l` bundles later, with EST.SAT when a lane saturated (R45). -/
def vecRes (vd l : Nat) (ls : List (Nat × Nat × Bool)) : List Res :=
  ls.map (fun t => resX (.v vd t.1) t.2.1 l) ++ (if ls.any (fun t => t.2.2) then [resX (.sticky 23) 1 1] else [])

/-- A vector ALU instruction: per enabled lane, from the two source lanes (R104, R105). -/
def State.vecOp (s : State) (e : Nat) (pair : Bool) (q vd va vb : Nat) (par : BitVec 16)
    (f : BitVec 64 → BitVec 64 → Nat × Bool) : State :=
  let ce := isCE e
  s.xslot e pair par.toNat (fun x => vecRes vd 1 (laneRes x ce q par (fun k => f (x.vget ce va k) (x.vget ce vb k))))

/-- A lane operation in the two lane types, saturating (R105). -/
def lane2 (cplx : Bool) (f : Int → Int → Int) (a b : BitVec 64) : Nat × Bool :=
  if cplx then
    let r := f (reOf a) (reOf b)
    let i := f (imOf a) (imOf b)
    (laneC (satS 32 r) (satS 32 i), r != satS 32 r || i != satS 32 i)
  else
    let r := f (sig40 a) (sig40 b)
    (lane40 (satS 40 r), r != satS 40 r)

/-- A scalar instruction: result and flags from the two operands and the old flags (R102, R103). -/
def State.scalarOp (s : State) (e : Nat) (pair : Bool) (gd : Option Nat) (ga : Nat) (b : SOp)
    (f : Word → Word → Word) (fl : Nat → Word → Word → Nat) : State :=
  s.xslot e pair 0 (fun x =>
    let a := x.gget ga
    let c := x.sop b
    (match gd with
     | some d => [resX (.g d) (f a c).toNat 1]
     | none => []) ++ [resX .flags (fl x.flags a c) 1])

/-- Results of one accumulator half: the MAC view one bundle later, any other read four later (R71, R97). -/
def accRes (an h k : Nat) (v : Int) : List Res :=
  [resX (.am an h k) (ofSigned 80 v) 1, resX (.a an h k) (ofSigned 80 v) 4]

/-- The two aligned products of the multiply forms of R107, before SUB. -/
inductive MacForm where
  | wide | dual | cross | cplx (conj : Bool)
  deriving DecidableEq, Repr

/-- Products of a lane: real and imaginary part (R107). -/
def macProducts (f : MacForm) (cf : Cf) (a b : BitVec 64) : Int × Int :=
  match f with
  | .wide => (prodOf (sig40 a) (reOf b) cf, 0)
  | .dual => (prodOf (reOf a) (reOf b) cf, prodOf (imOf a) (imOf b) cf)
  | .cross => (prodOf (reOf a) (reOf b) cf, prodOf (reOf a) (imOf b) cf)
  | .cplx conj =>
    let bi := if conj then -(imOf b) else imOf b
    (prodOf (reOf a) (reOf b) cf - prodOf (imOf a) bi cf, prodOf (reOf a) bi cf + prodOf (imOf a) (reOf b) cf)

/-- A multiply-accumulate instruction (R107): SUB negates, CLR replaces; the wide form leaves the imaginary half. -/
def State.macOp (s : State) (e : Nat) (pair : Bool) (q an va vb : Nat) (cf : Cf) (form : MacForm) (sub clr : Bool)
    (par : BitVec 16) : State :=
  let ce := isCE e
  s.xslot e pair par.toNat (fun x =>
    (x.enabled ce q).flatMap (fun k =>
      if par.getLsbD k then accRes an 0 k 0 ++ (if form = .wide then [] else accRes an 1 k 0)
      else
        let (pr, pi) := macProducts form cf (x.vget ce va k) (x.vget ce vb k)
        let sg (v : Int) : Int := if sub then -v else v
        let re := (if clr then 0 else x.amget an 0 k) + sg pr
        let im := (if clr then 0 else x.amget an 1 k) + sg pi
        let sat := re != satS 80 re || (form != .wide && im != satS 80 im)
        accRes an 0 k (satS 80 re) ++ (if form = .wide then [] else accRes an 1 k (satS 80 im)) ++
          (if sat then [resX (.sticky 23) 1 1] else [])))

/-- A conversion of `v` with `frac` fraction bits, after scaling by 2^sh, to `n` bits with `out` fraction bits (R45). -/
def convertTo (n out frac : Nat) (sh : Int) (trunc : Bool) (v : Int) : Int × Bool :=
  let k : Int := (frac : Int) - out - sh
  let r := if 0 ≤ k then (if trunc then floorShift v k.toNat else rneShift v k.toNat) else v * ((2 ^ (-k).toNat : Nat) : Int)
  (satS n r, r != satS n r)

/-! Y-slot forms -/

/-- A Y-slot instruction that ends its bundle: its engine must be executing, and `f` gives the engine with its own results
in `curY` and the extra stall cycles counted; then the bundle completes. -/
def State.yslot (s : State) (e : Nat) (f : Engine → Engine) : State :=
  if !s.engRuns e then s else (s.setEng e (f (s.engOf e))).endBundle e

/-- Appends Y-slot results. -/
def Engine.addY (x : Engine) (l : List Res) : Engine := { x with curY := x.curY ++ l }

/-- Sets EST.ACCERR with the bundle. -/
def Engine.accErr (x : Engine) (b : Bool) : Engine := if b then x.addY [resY (.sticky 20) 1 1] else x

/-- A memory operand's side effects: the pointer update, ACCERR for a degraded ring, and RESHAPED with its event once per
block (R61, R75, R120). -/
def State.pointerUse (s : State) (e : Nat) (pr : Nat) (d : Addr) : State :=
  let x := s.engOf e
  let x := x.accErr d.degraded
  let x := match d.after with
    | some w => x.addY [resY (.p pr) w.toNat 1]
    | none => x
  match d.reshaped with
  | none => s.setEng e x
  | some old =>
    let x := x.addY [resY (.sticky 22) 1 1]
    let first := !x.reshaped
    let s := s.setEng e { x with reshaped := true }
    if first then s.raiseN2 0x26 e x.r.pc old else s

/-- The bundle is the set-up slot of a REP, or a delay slot. -/
def Engine.inSetup (x : Engine) : Bool := x.setup == 2
def Engine.inDelay (x : Engine) : Bool := x.dly == 1 || x.dly == 2

/-- Control-flow instructions: not in a set-up slot (CAUSE 2, R95), not in a delay slot (illegal, R94). -/
def State.flowOp (s : State) (e : Nat) (k : State → State) : State :=
  if !s.engRuns e then s
  else if (s.engOf e).inSetup then s.haltEng e 2
  else if (s.engOf e).inDelay then s.haltEng e 1
  else k s

/-- Instructions that only a set-up slot forbids (R95). -/
def State.noSetup (s : State) (e : Nat) (k : State → State) : State :=
  if !s.engRuns e then s else if (s.engOf e).inSetup then s.haltEng e 2 else k s

/-- A branch (R126): two delay slots follow; the decision is made now (R127). -/
def Engine.branchTo (x : Engine) (taken : Bool) (target : Nat) : Engine :=
  { x with dly := 3, dtgt := if taken then some (bankPc x.r.pc target) else none }

/-- REP (R77, R128). -/
def State.repOp (s : State) (e : Nat) (n count last : Nat) : State :=
  s.noSetup e (fun s =>
    let x := s.engOf e
    let beg := seqPc (seqPc x.r.pc)
    let last := bankPc x.r.pc last
    let inner := n = 0 ∨ (Tbl.get (fun _ => 0) x.r.lbeg (n - 1) ≤ beg ∧ last ≤ Tbl.get (fun _ => 0) x.r.lend (n - 1))
    if x.r.ldepth ≠ n ∨ last < beg ∨ ¬ inner then s.haltEng e 2
    else
      s.yslot e (fun x =>
        { x with setup := 3, skip := if count = 0 then some (seqPc last) else none,
                 r := { x.r with lcnt := Tbl.put (fun _ => 0) x.r.lcnt n count, lbeg := Tbl.put (fun _ => 0) x.r.lbeg n beg,
                                 lend := Tbl.put (fun _ => 0) x.r.lend n last,
                                 ldepth := if count = 0 then x.r.ldepth else n + 1 } }))

end Sys2Proof.Machine
end

