-- ==== Sys2Proof/Machine/Scalar.lean ====
section
/-! DEFINITION. The scalar ALU instructions of an engine (R102, R103), NOP and the illegal bundle (R93-R95, R99-R101). -/

namespace Sys2Proof.Machine

/-- ADD (R102). -/
def execAddOp (e : Eng) (pair : Bool) (gd ga : Fin 16) (b : SOp) (s : State) : Host.Outcome State Fault Refusal :=
  .next (s.scalarOp e pair (some gd) ga b (fun a c => a + c) (fun _ a c => addFlags a c))

/-- SUB (R102). -/
def execSubOp (e : Eng) (pair : Bool) (gd ga : Fin 16) (b : SOp) (s : State) : Host.Outcome State Fault Refusal :=
  .next (s.scalarOp e pair (some gd) ga b (fun a c => a - c) (fun _ a c => subFlags a c))

/-- AND (R102). -/
def execAndOp (e : Eng) (pair : Bool) (gd ga : Fin 16) (b : SOp) (s : State) : Host.Outcome State Fault Refusal :=
  .next (s.scalarOp e pair (some gd) ga b (fun a c => a &&& c) (fun o a c => logicFlags o (a &&& c)))

/-- OR (R102). -/
def execOrOp (e : Eng) (pair : Bool) (gd ga : Fin 16) (b : SOp) (s : State) : Host.Outcome State Fault Refusal :=
  .next (s.scalarOp e pair (some gd) ga b (fun a c => a ||| c) (fun o a c => logicFlags o (a ||| c)))

/-- XOR (R102). -/
def execXorOp (e : Eng) (pair : Bool) (gd ga : Fin 16) (b : SOp) (s : State) : Host.Outcome State Fault Refusal :=
  .next (s.scalarOp e pair (some gd) ga b (fun a c => a ^^^ c) (fun o a c => logicFlags o (a ^^^ c)))

/-- The shift count of a scalar shift: b & 31 (R102). -/
def shCount (b : Word) : Nat := b.toNat % 32

/-- SHL (R102). -/
def execShl (e : Eng) (pair : Bool) (gd ga : Fin 16) (b : SOp) (s : State) : Host.Outcome State Fault Refusal :=
  .next (s.scalarOp e pair (some gd) ga b (fun a c => a <<< shCount c)
    (fun o a c => shiftFlags o (a <<< shCount c) (shCount c) (bitOf a (32 - shCount c))))

/-- SHR (R102). -/
def execShr (e : Eng) (pair : Bool) (gd ga : Fin 16) (b : SOp) (s : State) : Host.Outcome State Fault Refusal :=
  .next (s.scalarOp e pair (some gd) ga b (fun a c => a >>> shCount c)
    (fun o a c => shiftFlags o (a >>> shCount c) (shCount c) (bitOf a (shCount c - 1))))

/-- SRA (R102). -/
def execSra (e : Eng) (pair : Bool) (gd ga : Fin 16) (b : SOp) (s : State) : Host.Outcome State Fault Refusal :=
  .next (s.scalarOp e pair (some gd) ga b (fun a c => a.sshiftRight (shCount c))
    (fun o a c => shiftFlags o (a.sshiftRight (shCount c)) (shCount c) (bitOf a (shCount c - 1))))

/-- CMP: the flags only (R102). -/
def execCmp (e : Eng) (pair : Bool) (ga : Fin 16) (b : SOp) (s : State) : Host.Outcome State Fault Refusal :=
  .next (s.scalarOp e pair none ga b (fun a c => a - c) (fun _ a c => subFlags a c))

/-- The signed minimum and maximum of two words. -/
def minW (a b : Word) : Word := if a.toInt ≤ b.toInt then a else b
def maxW (a b : Word) : Word := if a.toInt ≤ b.toInt then b else a

/-- MIN (R102). -/
def execMin (e : Eng) (pair : Bool) (gd ga : Fin 16) (b : SOp) (s : State) : Host.Outcome State Fault Refusal :=
  .next (s.scalarOp e pair (some gd) ga b minW (fun o a c => nzFlags o (minW a c)))

/-- MAX (R102). -/
def execMax (e : Eng) (pair : Bool) (gd ga : Fin 16) (b : SOp) (s : State) : Host.Outcome State Fault Refusal :=
  .next (s.scalarOp e pair (some gd) ga b maxW (fun o a c => nzFlags o (maxW a c)))

/-- MUL: the low 32 bits of the signed product (R102). -/
def execMul (e : Eng) (pair : Bool) (gd ga : Fin 16) (b : SOp) (s : State) : Host.Outcome State Fault Refusal :=
  .next (s.scalarOp e pair (some gd) ga b (fun a c => a * c) (fun o a c => nzFlags o (a * c)))

/-- CLZ (R102). -/
def execClz (e : Eng) (pair : Bool) (gd ga : Fin 16) (s : State) : Host.Outcome State Fault Refusal :=
  .next (s.scalarOp e pair (some gd) ga (.imm 0) (fun a _ => BitVec.ofNat 32 (leadingZeros a))
    (fun o a _ => clzFlags o (BitVec.ofNat 32 (leadingZeros a))))

/-- NOP || NOP (R93). A bundle read with an IMEM parity error halts the engine with CAUSE 4 (R89). -/
def execNop (e : Eng) (imemParity : Bool) (s : State) : Host.Outcome State Fault Refusal :=
  .next (if imemParity then (if s.engRuns e then s.haltEng e 4 else s) else s.yslot e (fun x => x))

/-! Legality of a bundle (R93, R94, R99-R101 and the field rules of each instruction) -/

/-- Bits [hi:lo] of a slot. -/
def fieldOf (w hi lo : Nat) : Nat := w / 2 ^ lo % 2 ^ (hi + 1 - lo)

/-- XS: with I = 0 bits [10:0] are 0; CMP has Gd = 0; CLZ has I = 0 and Gb = 0 (R99, R102). -/
def xsLegal (w : Nat) : Bool :=
  let op := fieldOf w 29 24
  (fieldOf w 15 15 == 1 || fieldOf w 10 0 == 0) && (op != 0x09 || fieldOf w 23 20 == 0) && (op != 0x0D || fieldOf w 15 0 == 0)

/-- XV (R99, R104-R111). -/
def xvLegal (w : Nat) : Bool :=
  let op := fieldOf w 29 24
  let va := fieldOf w 16 12
  let vb := fieldOf w 11 7
  let md := fieldOf w 6 0
  let dAcc := fieldOf w 21 20 == 0
  match op with
  | 0x10 | 0x11 | 0x14 | 0x15 => md % 64 == 0
  | 0x12 | 0x13 => md % 64 == 0 && vb == 0
  | 0x16 | 0x17 | 0x18 => md == 0
  | 0x19 | 0x1A => vb == 0
  | 0x1B => fieldOf w 21 19 == 0 && fieldOf md 5 3 == 0 && decide (fieldOf md 2 0 < 6)
  | 0x1C => md == 0
  | 0x20 | 0x21 | 0x22 => dAcc && decide (fieldOf md 6 5 < 3) && fieldOf md 2 0 == 0
  | 0x23 => dAcc && decide (fieldOf md 6 5 < 3) && fieldOf md 1 0 == 0
  | 0x24 => decide (fieldOf md 6 5 < 3) && fieldOf md 4 3 == 0 && fieldOf md 0 0 == 0
  | 0x25 => dAcc && va == 0 && vb == 0 && md == 0
  | 0x26 => dAcc && vb == 0 && md % 64 == 0
  | 0x27 => decide (va < 8) && vb == 0 && md % 2 == 0
  | 0x28 => decide (va < 8) && vb == 0
  | _ => false

/-- XP: KGET and TLU (R99, R112, R116): Mm is used only with U = 1. -/
def xpLegal (w : Nat) : Bool :=
  let op := fieldOf w 29 24
  (fieldOf w 8 8 == 1 || fieldOf w 12 9 == 0) && (if op = 0x30 then fieldOf w 7 3 == 0 else fieldOf w 2 1 == 0)

/-- XE: element instructions (R99, R117). -/
def xeLegal (w : Nat) : Bool :=
  let op := fieldOf w 29 24
  fieldOf w 8 0 == 0 && (op == 0x3A && fieldOf w 14 11 == 0 || op != 0x3A && fieldOf w 10 9 != 3)

/-- The 30-bit X field of a paired bundle. -/
def xLegal (w : Nat) : Bool :=
  let op := fieldOf w 29 24
  if op = 0 then w == 0
  else if op ≤ 0x0D then xsLegal w
  else if 0x10 ≤ op ∧ op ≤ 0x28 then xvLegal w
  else if op = 0x30 ∨ op = 0x31 then xpLegal w
  else if 0x38 ≤ op ∧ op ≤ 0x3A then xeLegal w
  else false

/-- YM: the address mode's fields, and T and SZ as each memory instruction allows (R100, R101, R121, R122, R129). -/
def ymLegal (w : Nat) : Bool :=
  let op := fieldOf w 31 26
  let t := fieldOf w 25 21
  let am := fieldOf w 16 15
  let sz := fieldOf w 3 0
  let amOk := if am = 0 then fieldOf w 14 4 == 0 else if am = 1 then fieldOf w 10 4 == 0 else true
  let szOk := match op with
    | 0x01 => decide (sz ≤ 0xA) && (decide (sz < 8) || decide (t < 16))
    | 0x02 => decide (sz ≤ 0xA) && !(decide (4 ≤ sz) && decide (sz < 8)) && (decide (sz < 8) || decide (t < 16))
    | 0x05 => sz == 0 && decide (t < 16)
    | 0x06 => sz == 0 && t == 0 && am % 2 == 1
    | _ => sz == 0 && t == 0
  amOk && szOk

/-- A register class and number (R101). -/
def regLegal (c n : Nat) : Bool := c != 3 || decide (n < 4)

/-- YB: branches (R100, R126). -/
def ybLegal (w : Nat) : Bool :=
  let op := fieldOf w 31 26
  let cond := fieldOf w 25 22
  let q := fieldOf w 21 20
  let g := fieldOf w 19 16
  let tgt := fieldOf w 14 0
  fieldOf w 15 15 == 0 && (match op with
    | 0x10 => cond != 15 && q == 0 && g == 0 && decide (tgt < 16384)
    | 0x11 => cond != 15 && q == 0 && tgt == 0
    | 0x12 => cond != 15 && q == 0 && decide (tgt < 16384)
    | 0x13 => decide (cond < 2) && g == 0 && decide (tgt < 16384)
    | _ => cond == 0 && q == 0 && g == 0 && tgt == 0)

/-- YC: control, signals and control-engine instructions (R100, R128-R132). -/
def ycLegal (ce : Bool) (w : Nat) : Bool :=
  let op := fieldOf w 31 26
  let hi := fieldOf w 25 16
  match op with
  | 0x18 => fieldOf w 19 14 == 0
  | 0x1C | 0x1D => fieldOf w 25 0 == 0
  | 0x1E | 0x20 => hi == 0 && fieldOf w 15 8 == 0
  | 0x1F => hi == 0
  | 0x30 | 0x31 => ce && fieldOf w 25 24 == 0 && fieldOf w 15 0 == 0
  | 0x32 => ce && fieldOf w 25 0 == 0
  | 0x33 => ce && fieldOf w 25 24 == 0 && fieldOf w 19 16 == 0 && fieldOf w 15 8 == 0
  | _ => false

/-- The 32-bit Y field of a paired bundle. -/
def yLegal (ce : Bool) (w : Nat) : Bool :=
  let op := fieldOf w 31 26
  if op = 0 then w == 0
  else if op ≤ 6 then ymLegal w
  else if op = 8 then regLegal (fieldOf w 25 24) (fieldOf w 23 20) && regLegal (fieldOf w 19 18) (fieldOf w 17 14) && fieldOf w 13 0 == 0
  else if op = 9 ∨ op = 0xA then regLegal (fieldOf w 25 24) (fieldOf w 23 20) && fieldOf w 19 16 == 0
  else if op = 0xB ∨ op = 0xC then fieldOf w 15 0 == 0
  else if 0x10 ≤ op ∧ op ≤ 0x14 then ybLegal w
  else ycLegal ce w

/-- An instruction that may not stand in a delay slot (R94): B, BR, CALL, BQZ, BQNZ, RETI, WAIT, EOB. -/
def yNoDelay (w : Nat) : Bool :=
  let op := fieldOf w 31 26
  (0x10 ≤ op && op ≤ 0x14) || op == 0x1C || op == 0x1D

/-- A legal bundle of an engine; `delay` when it stands in a delay slot (R93, R94). -/
def bundleLegal (ce delay : Bool) (w : BitVec 64) : Bool :=
  let n := w.toNat
  let op := fieldOf n 61 56
  match fieldOf n 63 62 with
  | 0 => xLegal (fieldOf n 61 32) && yLegal ce (fieldOf n 31 0) && !(delay && yNoDelay (fieldOf n 31 0))
  | 1 => op == 0x01 && fieldOf n 53 53 == 0 && fieldOf n 38 24 == 0
  | 2 => fieldOf n 48 32 == 0 && ((op == 0x01 && fieldOf n 55 55 == 0 && fieldOf n 50 49 == 0) || op == 0x02)
  | _ => false

/-- The engine meets `bundle` at its PC: when it is illegal it has no effect and halts the engine with CAUSE 1 (R94). A
legal bundle is executed by its own commands, so nothing happens here. -/
def execIllegalBundle (e : Eng) (bundle : BitVec 64) (s : State) : Host.Outcome State Fault Refusal :=
  .next (if s.canX e && !bundleLegal (isCE e) (s.engOf e).inDelay bundle then s.haltEng e 1 else s)

end Sys2Proof.Machine
end

