-- ==== Sys2Proof/Machine/Bundle.lean ====
section
/-! DEFINITION. The commands that a bundle of an engine's program stands for (R93, R99-R101 and the encodings of the
instructions), and the bundle that lies at an engine's PC. A processor would fetch and decode; in this block the executed
instructions come as commands, and these definitions say which commands a legal bundle is. -/

namespace Sys2Proof.Machine

/-- A field as a register or lane number. -/
def fieldFin (n w hi lo : Nat) [NeZero n] : Fin n := Fin.ofNat n (fieldOf w hi lo)

/-- The coefficient format in MOD[6:5] (R106). -/
def cfOf (n : Nat) : Cf := if n = 0 then .q31 else if n = 1 then .q30 else .q28

/-- The comparison in MOD[2:0] (R104). -/
def vccOf : Nat → Vcc
  | 0 => .eq
  | 1 => .ne
  | 2 => .lt
  | 3 => .le
  | 4 => .gt
  | _ => .ge

/-- The half selector H (R117), and the pack format (R111). -/
def halfOf (n : Nat) : Half := if n = 0 then .re else if n = 1 then .im else if n = 2 then .b40 else .both
def packOf (n : Nat) : PackFmt := if n = 0 then .s32 else if n = 1 then .c32 else if n = 2 then .g428 else .s24

/-- A scalar instruction (R102). -/
def decodeXs (e : Eng) (pair : Bool) (w : Nat) : Option Instr :=
  let gd := fieldFin 16 w 23 20
  let ga := fieldFin 16 w 19 16
  let b : SOp := if fieldOf w 15 15 = 1 then .imm (BitVec.ofNat 15 (fieldOf w 14 0)) else .reg (fieldFin 16 w 14 11)
  match fieldOf w 29 24 with
  | 0x01 => some (.addOp e pair gd ga b)
  | 0x02 => some (.subOp e pair gd ga b)
  | 0x03 => some (.andOp e pair gd ga b)
  | 0x04 => some (.orOp e pair gd ga b)
  | 0x05 => some (.xorOp e pair gd ga b)
  | 0x06 => some (.shl e pair gd ga b)
  | 0x07 => some (.shr e pair gd ga b)
  | 0x08 => some (.sra e pair gd ga b)
  | 0x09 => some (.cmp e pair ga b)
  | 0x0A => some (.min e pair gd ga b)
  | 0x0B => some (.max e pair gd ga b)
  | 0x0C => some (.mul e pair gd ga b)
  | 0x0D => some (.clz e pair gd ga)
  | _ => none

/-- A multiply-accumulate instruction: the form by opcode, SUB in MOD[4] and CLR in MOD[3] (R106). -/
def decodeMac (e : Eng) (pair : Bool) (par : BitVec 16) (w : Nat) : Option Instr :=
  let q := fieldFin 4 w 23 22
  let an := fieldFin 8 w 19 17
  let va := fieldFin 32 w 16 12
  let vb := fieldFin 32 w 11 7
  let cf := cfOf (fieldOf w 6 5)
  let conj := fieldOf w 2 2 == 1
  match fieldOf w 29 24, fieldOf w 3 3, fieldOf w 4 4 with
  | 0x20, 0, 0 => some (.mac e pair q an va vb cf par)
  | 0x20, 0, _ => some (.msu e pair q an va vb cf par)
  | 0x20, _, 0 => some (.mpy e pair q an va vb cf par)
  | 0x20, _, _ => some (.mpyn e pair q an va vb cf par)
  | 0x21, 0, 0 => some (.macD e pair q an va vb cf par)
  | 0x21, 0, _ => some (.msuD e pair q an va vb cf par)
  | 0x21, _, 0 => some (.mpyD e pair q an va vb cf par)
  | 0x21, _, _ => some (.mpynD e pair q an va vb cf par)
  | 0x22, 0, 0 => some (.macDx e pair q an va vb cf par)
  | 0x22, 0, _ => some (.msuDx e pair q an va vb cf par)
  | 0x22, _, 0 => some (.mpyDx e pair q an va vb cf par)
  | 0x22, _, _ => some (.mpynDx e pair q an va vb cf par)
  | 0x23, 0, 0 => some (.cmac e pair q an va vb cf conj par)
  | 0x23, 0, _ => some (.cmsu e pair q an va vb cf conj par)
  | 0x23, _, 0 => some (.cmpy e pair q an va vb cf conj par)
  | 0x23, _, _ => some (.cmpyn e pair q an va vb cf conj par)
  | _, _, _ => none

/-- A vector instruction (R104, R106-R111). -/
def decodeXv (e : Eng) (pair : Bool) (par : BitVec 16) (w : Nat) : Option Instr :=
  let q := fieldFin 4 w 23 22
  let vd := fieldFin 32 w 21 17
  let va := fieldFin 32 w 16 12
  let vb := fieldFin 32 w 11 7
  let c := fieldOf w 6 6 == 1
  let n := fieldFin 64 w 5 0
  let an := fieldFin 8 w 14 12
  match fieldOf w 29 24 with
  | 0x10 => some (.vadd e pair q vd va vb c par)
  | 0x11 => some (.vsub e pair q vd va vb c par)
  | 0x12 => some (.vabs e pair q vd va c par)
  | 0x13 => some (.vneg e pair q vd va c par)
  | 0x14 => some (.vmin e pair q vd va vb c par)
  | 0x15 => some (.vmax e pair q vd va vb c par)
  | 0x16 => some (.vand e pair q vd va vb par)
  | 0x17 => some (.vor e pair q vd va vb par)
  | 0x18 => some (.vxor e pair q vd va vb par)
  | 0x19 => some (.vshl e pair q vd va c n par)
  | 0x1A => some (.vsra e pair q vd va c n par)
  | 0x1B => some (.vcmp e pair q (fieldFin 4 w 18 17) va vb c (vccOf (fieldOf w 2 0)) par)
  | 0x1C => some (.vsel e pair q vd va vb par)
  | 0x24 => some (.cmul e pair q vd va vb (cfOf (fieldOf w 6 5)) (fieldOf w 2 2 == 1) (fieldOf w 1 1 == 1) par)
  | 0x25 => some (.aclr e pair q (fieldFin 8 w 19 17))
  | 0x26 => some (.ald e pair q (fieldFin 8 w 19 17) va c par)
  | 0x27 => some (.sat e pair q vd an c (BitVec.ofNat 4 (fieldOf w 5 2)) (fieldOf w 1 1 == 1) par)
  | 0x28 => some (.pack e pair q vd an (packOf (fieldOf w 6 5)) (BitVec.ofNat 4 (fieldOf w 4 1)) (fieldOf w 0 0 == 1) par)
  | _ => decodeMac e pair par w

/-- KGET and TLU (R112, R116). -/
def decodeXp (e : Eng) (pair : Bool) (par : BitVec 16) (w : Nat) : Option Instr :=
  let q := fieldFin 4 w 23 22
  let vd := fieldFin 32 w 21 17
  let p := fieldFin 16 w 16 13
  let m := fieldFin 16 w 12 9
  let upd := fieldOf w 8 8 == 1
  if fieldOf w 29 24 = 0x30 then some (.kget e pair q vd p m upd (fieldOf w 2 2 == 1) (fieldOf w 1 1 == 1) (fieldOf w 0 0 == 1))
  else some (.tlu e pair q vd p m upd (fieldFin 32 w 7 3) (fieldOf w 0 0 == 1) par)

/-- Element instructions (R117). -/
def decodeXe (e : Eng) (pair : Bool) (par : BitVec 16) (w : Nat) : Option Instr :=
  let g := fieldFin 16 w 23 20
  let v := fieldFin 32 w 19 15
  let lane := fieldFin 16 w 14 11
  let h := halfOf (fieldOf w 10 9)
  match fieldOf w 29 24 with
  | 0x38 => some (.vext e pair g v lane h par)
  | 0x39 => some (.vins e pair v g lane h)
  | 0x3A => some (.vbrd e pair v g h)
  | _ => none

/-- The instruction of an X field; `pair` when a Y instruction follows, `par` the lanes read with a parity error. -/
def decodeX (e : Eng) (pair : Bool) (par : BitVec 16) (w : Nat) : Option Instr :=
  let op := fieldOf w 29 24
  if op ≤ 0x0D then decodeXs e pair w
  else if op ≤ 0x28 then decodeXv e pair par w
  else if op ≤ 0x31 then decodeXp e pair par w
  else decodeXe e pair par w

/-- The address mode of a memory instruction (R100, R118). -/
def amodeOf (w : Nat) : AMode :=
  match fieldOf w 16 15 with
  | 0 => .plain
  | 1 => .postM (fieldFin 16 w 14 11)
  | 2 => .offset (BitVec.ofNat 11 (fieldOf w 14 4))
  | _ => .postN (BitVec.ofNat 11 (fieldOf w 14 4))

/-- What a load or store moves (R101). -/
def memTOf (w : Nat) : MemT :=
  let sz := fieldOf w 3 0
  let t := fieldFin 16 w 24 21
  if sz < 4 then .vec (fieldFin 32 w 25 21) (Fin.ofNat 4 sz)
  else if sz < 8 then .bcast (fieldFin 32 w 25 21) (Fin.ofNat 4 sz)
  else if sz = 8 then .g t else if sz = 9 then .p t else .m t

/-- A memory instruction (R118-R122, R129). -/
def decodeYm (e : Eng) (par : BitVec 16) (w : Nat) : Option Instr :=
  let p := fieldFin 16 w 20 17
  let am := amodeOf w
  match fieldOf w 31 26 with
  | 0x01 => some (.ld e (memTOf w) p am)
  | 0x02 => some (.st e (memTOf w) p am par)
  | 0x03 => some (.lsave e p am)
  | 0x04 => some (.lrest e p am)
  | 0x05 => some (.haul e (fieldFin 16 w 24 21) p am)
  | 0x06 => some (.pmod e p am)
  | _ => none

/-- A register class, and a branch condition (R101, R126). -/
def classOf (n : Nat) : RegC := if n = 0 then .g else if n = 1 then .p else if n = 2 then .m else .q
def condOf (n : Nat) : Cond :=
  [Cond.always, .eq, .ne, .lt, .ge, .le, .gt, .lo, .hs, .ls, .hi, .mi, .pl, .vs, .vc].getD n .always

/-- A move or a branch (R123-R126). -/
def decodeYb (e : Eng) (w : Nat) : Option Instr :=
  let dc := classOf (fieldOf w 25 24)
  let d := fieldFin 16 w 23 20
  let imm := BitVec.ofNat 16 (fieldOf w 15 0)
  let cc := condOf (fieldOf w 25 22)
  let q := fieldFin 4 w 21 20
  let g := fieldFin 16 w 19 16
  let tgt := fieldFin 16384 w 13 0
  match fieldOf w 31 26 with
  | 0x08 => some (.movOp e dc d (classOf (fieldOf w 19 18)) (fieldFin 16 w 17 14))
  | 0x09 => some (.movi e dc d imm)
  | 0x0A => some (.movhi e dc d imm)
  | 0x0B => some (.movsTo e (fieldFin 64 w 25 20) g)
  | 0x0C => some (.movsFrom e g (fieldFin 64 w 25 20))
  | 0x10 => some (.branch e cc tgt)
  | 0x11 => some (.branchReg e cc g)
  | 0x12 => some (.call e cc g tgt)
  | 0x13 => some (if fieldOf w 25 22 = 0 then .bqz e q tgt else .bqnz e q tgt)
  | 0x14 => some (.reti e)
  | _ => none

/-- Control, signals and control-engine instructions (R128-R132); `resp` is the matrix response of CRD and CWR. -/
def decodeYc (e : Eng) (resp : Fin 5) (w : Nat) : Option Instr :=
  let g := fieldFin 16 w 23 20
  let g2 := fieldFin 16 w 19 16
  match fieldOf w 31 26 with
  | 0x18 => some (.repG e (fieldFin 4 w 25 24) g (fieldFin 16384 w 13 0))
  | 0x1C => some (.waitOp e)
  | 0x1D => some (.eob e)
  | 0x1E => some (.hsync e (BitVec.ofNat 8 (fieldOf w 7 0)))
  | 0x1F => some (.signal e (BitVec.ofNat 16 (fieldOf w 15 0)))
  | 0x20 => some (.brk e (BitVec.ofNat 8 (fieldOf w 7 0)))
  | 0x30 => some (.crd e g g2 resp)
  | 0x31 => some (.cwr e g2 g resp)
  | 0x32 => some (.cidle e)
  | 0x33 => some (.cevt e (BitVec.ofNat 8 (fieldOf w 7 0)) g)
  | _ => none

/-- The instruction of a Y field. -/
def decodeY (e : Eng) (par : BitVec 16) (resp : Fin 5) (w : Nat) : Option Instr :=
  let op := fieldOf w 31 26
  if op ≤ 6 then decodeYm e par w
  else if op ≤ 0x14 then decodeYb e w
  else decodeYc e resp w

/-- A long form: REP with an immediate count, MOVI32 and VBRDI (R117, R128). -/
def decodeLong (e : Eng) (n : Nat) : Option Instr :=
  match fieldOf n 63 62, fieldOf n 61 56 with
  | 1, _ => some (.repImm e (fieldFin 4 n 55 54) (BitVec.ofNat 24 (fieldOf n 23 0)) (fieldFin 16384 n 52 39))
  | _, 0x01 => some (.movi32 e (fieldFin 16 n 54 51) (BitVec.ofNat 32 (fieldOf n 31 0)))
  | _, _ => some (.vbrdi e (fieldFin 32 n 55 51) (BitVec.ofNat 32 (fieldOf n 31 0)) (halfOf (fieldOf n 50 49)))

/-- The commands of a bundle, in their order: the X half before the Y half, NOP for an empty bundle, and ILLEGAL_BUNDLE for one
that R94 refuses. `parX` and `parY` are the lanes that its halves read with a parity error, `resp` the matrix response. -/
def bundleCmds (e : Eng) (delay : Bool) (parX parY : BitVec 16) (resp : Fin 5) (w : BitVec 64) : List Instr :=
  let n := w.toNat
  if !bundleLegal (isCE e) delay w then [.illegalBundle e w]
  else if fieldOf n 63 62 ≠ 0 then (decodeLong e n).toList
  else
    let x := fieldOf n 61 32
    let y := fieldOf n 31 0
    if x = 0 ∧ y = 0 then [.nop e false]
    else (if x = 0 then none else decodeX e (decide (y ≠ 0)) parX x).toList ++ (if y = 0 then none else decodeY e parY resp y).toList

/-- The bundle at the engine's PC in its IMEM (R62): bundle n lies at byte 8n. -/
def Engine.bundleAt (x : Engine) : BitVec 64 := BitVec.ofNat 64 (leValue (Memory.readBytes x.mem (8 * x.r.pc) 8))

/-- The commands that engine `e` executes next from its IMEM, read without errors. -/
def State.nextCmds (s : State) (e : Eng) : List Instr :=
  let x := s.engOf e
  bundleCmds e x.inDelay 0 0 0 x.bundleAt

end Sys2Proof.Machine
end

