-- ==== Sys2Proof/Machine/DacBase.lean ====
section
/-! DEFINITION. What each DAC channel drives (R416, R419). -/

namespace Sys2Proof.Machine

/-- The row of R419 that holds for channel `d`. -/
def State.dacRow (s : State) (d : Nat) : Nat :=
  if !s.dac.vdda ∨ s.glb.testEn ∨ bitOf (s.reg DAC_STAT.adr) (16 + d) then 1
  else if d ∈ s.dac.hold ∨ s.dac.refHold = some s.sidx then 2
  else if s.flag DAC_STAT.CLRPIN ∨ s.dac.clrRet ∨ s.dac.clr then 3
  else if !s.flag (DAC_XCH.EN d) ∨ !(s.mode == 2 || (s.mode == 4 && !s.flag OUT_XMUTE.SVC)) then 4
  else 5

/-- What a channel drives (R416, R419): high impedance, 0 V, or a code at a gain of 1 or 2 times the internal reference of 1.25 V
or the voltage on DAC_REFIN (`ext`). -/
inductive DacOut where
  | hiZ
  | zero
  | code (c : Int) (x2 : Bool) (ext : Bool)
  deriving DecidableEq, Repr

/-- The differential voltage in microvolts, `refin` being that on DAC_REFIN; none at high impedance (R416). -/
def DacOut.microvolts (o : DacOut) (refin : Nat) : Option Int :=
  match o with
  | .hiZ => none
  | .zero => some 0
  | .code c x2 ext => some (rneDiv (c * (((if ext then refin else 1250000) * (if x2 then 2 else 1) : Nat) : Int)) (2 ^ 23))

/-- The group delay of an interpolation filter in samples (R13, R417). -/
def dacDelay (low : Bool) : Nat := if low then 5 else 28

/-- The code of channel `d` in the current sample: the words of the samples around that of a group delay ago, weighted by a filter
that is symmetric about it (the taps are free values; DEDUCED, log entry 80). -/
def State.dacCode (s : State) (d : Nat) : Int :=
  let low := s.flag (DAC_XCH.FILT d)
  let g := dacDelay low
  let sum := (List.range (2 * g - 1)).foldl (fun (a : Int) i =>
    a + Config.freeDacTap low (((i : Nat) + 1 - (g : Nat) : Int)).natAbs * Tbl.get (fun _ => 0) (s.dac.words.getD i []) (0x7000 + d)) 0
  satS 24 (rneDiv sum (2 ^ 31 * 256))

/-- The output of channel `d` in the current sample. -/
def State.dacOut (s : State) (d : Nat) : DacOut :=
  let ext := s.flag DAC_STAT.REFEXT
  match s.dacRow d with
  | 1 => .hiZ
  | 2 => .zero
  | 5 => .code (s.dacCode d) (s.flag (DAC_XCH.GAIN d)) ext
  | _ => .code (toSigned 24 (s.fld (DAC_XCLRCODE.CODE d))) (s.flag (DAC_XCH.GAIN d)) ext

/-- DAC_REFOUT drives the internal reference; if not, it is high-impedance (R418). -/
def State.dacRefOut (s : State) : Bool := s.flag DAC_XGLB.REFOUT

/-- The track-and-hold holds the output for 40 ns when the code goes from `a` to `b` (R424). -/
def State.deglitches (s : State) (a b : Int) : Bool :=
  let thr := s.fld DAC_XGLB.THR
  let top (c : Int) : Nat := (ofSigned 24 c + 2 ^ 23) % 2 ^ 24 / 2 ^ (24 - thr)
  thr != 0 && top a != top b

/-- DAC_STAT.LIVE. -/
def State.dacLive (s : State) : Nat := ((List.range 8).filter (fun d => s.dacRow d == 5)).foldl (fun m d => m + 2 ^ d) 0

end Sys2Proof.Machine
end

