-- ==== Sys2Proof/Machine/EngMem.lean ====
section
/-! DEFINITION. The memory instructions of the Y slot: LD, ST, LSAVE, LREST, PMOD, HAUL (R83-R85, R118-R122, R129). -/

namespace Sys2Proof.Machine

/-- The word addresses of an operand: `n` words of 8 bytes with the low bits cleared (R119, R120, R122), and whether a bit
was cleared. -/
def Engine.wordAddrs (x : Engine) (p : Nat) (d : Addr) (ks : List Nat) : List Nat × Bool :=
  let l := ks.map (fun j => x.eaOf p d (8 * j))
  (l.map (fun a => a / 8 * 8), l.any (fun a => a % 8 != 0))

/-- One stall cycle when the access shares a DMEM bank with the TLU of its bundle (R63, R98). -/
def Engine.tluConflict (x : Engine) (as : List Nat) : Nat :=
  if as.any (fun a => inDmem a && decide (bankOf a ∈ x.tluBanks)) then 1 else 0

/-- A Y-slot memory instruction: `f` gives the engine with its results and stores, and the stall cycles; then the pointer
is updated and the bundle completes. -/
def State.memOp (s : State) (e p : Nat) (am : AMode) (lo : Nat) (f : Engine → Addr → Engine × Nat) : State :=
  if !s.engRuns e then s
  else
    let x := s.engOf e
    let d := x.addrOf p am lo
    let (y, n) := f x d
    (((s.setEng e y).bankStall e n).pointerUse e p d).endBundle e

/-- The lanes, words and stall cycles of a vector or broadcast access: enabled lanes each with the address of its word. -/
def Engine.vecAccess (x : Engine) (ce : Bool) (p : Nat) (d : Addr) (q : Nat) (bcast : Bool) :
    List (Nat × Nat) × Bool × Nat :=
  if bcast then
    let (as, bad) := x.wordAddrs p d [0]
    let a := as.headD 0
    let l := (x.enabled ce q).map (fun k => (k, a))
    (l, bad, x.tluConflict (l.map (fun t => t.2)))
  else
    let (as, bad) := x.wordAddrs p d (List.range 16)
    let l := (x.enabled ce q).map (fun k => (k, as.getD k 0))
    (l, bad, vectorBreaks as + x.tluConflict (l.map (fun t => t.2)))

/-- The load results of a vector or broadcast access (R119, R120). -/
def Engine.loadLanes (x : Engine) (ce : Bool) (v : Nat) (l : List (Nat × Nat)) (bad : Bool) : Engine :=
  let rs := l.map (fun t => (t.1, x.load ce t.2 8))
  (x.addY (rs.map (fun t => resY (.v v t.1) t.2.1 3))).accErr (bad || rs.any (fun t => t.2.2))

/-- Stores the enabled lanes of Vv (R119, R120); a lane read in error stores 0 (R89). -/
def Engine.storeLanes (x : Engine) (ce : Bool) (v : Nat) (par : BitVec 16) (l : List (Nat × Nat)) (bad : Bool) : Engine :=
  let (y, e) := l.foldl (fun (t : Engine × Bool) k =>
    let (y, e) := t.1.store ce k.2 8 (if par.getLsbD k.1 then 0 else (x.vget ce v k.1).toNat)
    (y, t.2 || e)) (x, false)
  y.accErr (bad || e)

/-- The address and ACCERR of a scalar access (R120). -/
def Engine.scalarAddr (x : Engine) (p : Nat) (d : Addr) : Nat × Bool :=
  let a := x.eaOf p d 0
  (a / 4 * 4, a % 4 != 0)

/-- A scalar load into `dst`. -/
def State.loadScalar (s : State) (e p : Nat) (am : AMode) (dst : Dest) : State :=
  s.memOp e p am 2 (fun x d =>
    let (a, bad) := x.scalarAddr p d
    let (v, err) := x.load (isCE e) a 4
    ((x.addY [resY dst v 3]).accErr (bad || err), x.tluConflict [a]))

/-- A scalar store. -/
def State.storeScalar (s : State) (e p : Nat) (am : AMode) (v : Engine → Word) : State :=
  s.memOp e p am 2 (fun x d =>
    let (a, bad) := x.scalarAddr p d
    let (y, err) := x.store (isCE e) a 4 (v x).toNat
    (y.accErr (bad || err), x.tluConflict [a]))

/-- LD (R118-R120). -/
def execLd (e : Eng) (t : MemT) (p : Fin 16) (am : AMode) (s : State) : Host.Outcome State Fault Refusal :=
  let ce := isCE e
  .next (match t with
    | .vec v q => s.memOp e p am 7 (fun x d =>
        let (l, bad, n) := x.vecAccess ce p d q false
        (x.loadLanes ce v l bad, n))
    | .bcast v q => s.memOp e p am 3 (fun x d =>
        let (l, bad, n) := x.vecAccess ce p d q true
        (x.loadLanes ce v l bad, n))
    | .g r => s.loadScalar e p am (.g r)
    | .p r => s.loadScalar e p am (.p r)
    | .m r => s.loadScalar e p am (.m r))

/-- ST (R118-R120): a broadcast store is illegal (R101). -/
def execSt (e : Eng) (t : MemT) (p : Fin 16) (am : AMode) (par : BitVec 16) (s : State) :
    Host.Outcome State Fault Refusal :=
  let ce := isCE e
  .next (match t with
    | .vec v q =>
        let s := if s.engRuns e then s.laneParity e par.toNat else s
        s.memOp e p am 7 (fun x d =>
          let (l, bad, n) := x.vecAccess ce p d q false
          (x.storeLanes ce v par l bad, n))
    | .bcast _ _ => if s.engRuns e then s.haltEng e 1 else s
    | .g r => s.storeScalar e p am (fun x => x.gget r)
    | .p r => s.storeScalar e p am (fun x => x.pget r)
    | .m r => s.storeScalar e p am (fun x => x.mget r))

/-- The image of the loop registers as eight 8-byte words (R122). -/
def ERegs.loopImage (r : ERegs) : List Nat :=
  let w (t : Tbl Nat) (n : Nat) : Nat := Tbl.get (fun _ => 0) t n
  let two (t : Tbl Nat) (n : Nat) : Nat := w t n + 2 ^ 32 * w t (n + 1)
  [two r.lcnt 0, two r.lcnt 2, two r.lbeg 0, two r.lbeg 2, two r.lend 0, two r.lend 2, r.ldepth, 0]

/-- LSAVE (R82, R122). -/
def execLsave (e : Eng) (p : Fin 16) (am : AMode) (s : State) : Host.Outcome State Fault Refusal :=
  .next (s.noSetup e (fun s => s.memOp e p am 6 (fun x d =>
    let (as, bad) := x.wordAddrs p d (List.range 8)
    let (y, err) := (as.zip x.r.loopImage).foldl (fun (t : Engine × Bool) k =>
      let (y, e') := t.1.store (isCE e) k.1 8 k.2
      (y, t.2 || e')) (x, false)
    ({ (y.addY [resY .ldepth 0 2]).accErr (bad || err) with lwin := 3 }, x.tluConflict as))))

/-- The loop registers of an image, as results seen two bundles later (R97, R122). -/
def lrestRes (w : List Nat) : List Res :=
  let h (i : Nat) : Nat := w.getD (i / 2) 0 / 2 ^ (32 * (i % 2)) % 2 ^ 32
  (List.range 4).map (fun n => resY (.lcnt n) (h n) 2) ++ (List.range 4).map (fun n => resY (.lbeg n) (h (4 + n)) 2) ++
    (List.range 4).map (fun n => resY (.lend n) (h (8 + n)) 2) ++ [resY .ldepth (h 12 % 8) 2]

/-- LREST (R82, R122): an image with LDEPTH above 4 halts the engine. -/
def execLrest (e : Eng) (p : Fin 16) (am : AMode) (s : State) : Host.Outcome State Fault Refusal :=
  .next (s.noSetup e (fun s =>
    let x := s.engOf e
    let (as, bad) := x.wordAddrs p (x.addrOf p am 6) (List.range 8)
    let ws := as.map (fun a => x.load (isCE e) a 8)
    if 4 < (ws.getD 6 (0, false)).1 % 8 then s.haltEng e 2
    else s.memOp e p am 6 (fun x _ =>
      ({ (x.addY (lrestRes (ws.map (fun t => t.1)))).accErr (bad || ws.any (fun t => t.2)) with lwin := 3 },
       x.tluConflict as))))

/-- PMOD (R121): the forms that modify nothing are illegal. -/
def execPmod (e : Eng) (p : Fin 16) (am : AMode) (s : State) : Host.Outcome State Fault Refusal :=
  .next (match am with
    | .plain => if s.engRuns e then s.haltEng e 1 else s
    | .offset _ => if s.engRuns e then s.haltEng e 1 else s
    | _ => s.memOp e p am 3 (fun x _ => (x, 0)))

/-! Haul (R83-R85, R129) -/

/-- A haul slot. -/
def Engine.haulOf (x : Engine) (k : Nat) : Option Haul := Tbl.get (fun _ => none) x.haul k
def Engine.setHaul (x : Engine) (k : Nat) (h : Option Haul) : Engine := { x with haul := Tbl.put (fun _ => none) x.haul k h }

/-- The busy slots as a mask (HSTAT). -/
def Engine.haulBusy (x : Engine) : Nat := (List.range 8).foldl (fun m k => if (x.haulOf k).isSome then m + 2 ^ k else m) 0

/-- The slot that a HAUL takes: R83 names a free slot and not which one; the model takes the lowest (DESIGN CHOICE, log
entry 21). -/
def Engine.haulFree (x : Engine) : Option Nat := (List.range 8).find? (fun k => (x.haulOf k).isNone)

/-- A haul ring in force: far base and length in bytes, a length of 0 meaning 4 GiB (R84, R124). -/
def Engine.haulRing (x : Engine) (n : Nat) : Nat × Nat :=
  let w (k : Nat) : Nat := (Tbl.get (fun _ => 0) x.r.hr k).toNat
  (w n + 2 ^ 32 * (w (8 + n) % 256), if w (16 + n) = 0 then 2 ^ 32 else w (16 + n))

/-- A descriptor from its words (R83). -/
def Engine.haulOfWords (x : Engine) (w : List Nat) : Haul :=
  let h (i : Nat) : Word := BitVec.ofNat 32 (w.getD (i / 2) 0 / 2 ^ (32 * (i % 2)))
  let ringed := bitOf (h 0) 29
  let (b, l) := x.haulRing (bitsOf (h 0) 28 26)
  { toFar := bitOf (h 0) 31, irq := bitOf (h 0) 30, ringed := ringed, laddr := bitsOf (h 0) 23 0, foff := (h 1).toNat,
    fbase := if ringed then b else (h 1).toNat + 2 ^ 32 * bitsOf (h 2) 31 24, flen := if ringed then l else 0,
    xbytes := bitsOf (h 2) 23 0, yrows := bitsOf (h 3) 31 16, lstride := (h 4).toInt, fstride := (h 5).toInt }

/-- A descriptor that ends at once with an error (R85). -/
def Haul.bad (h : Haul) : Bool :=
  !inDmem h.laddr || decide (h.xbytes < 8) || decide (65536 < h.xbytes) || h.xbytes % 8 != 0 || h.yrows == 0

/-- A transfer of slot `k` has ended with an error: slot bit, interrupt and ENG_HAUL_ERR (R85, R90). -/
def State.haulError (s : State) (e k resp foff : Nat) : State :=
  let x := s.engOf e
  let s := s.setEng e { x with herr := x.herr ||| BitVec.ofNat 8 (2 ^ k), ip := x.ip ||| 2 }
  s.raiseN2 0x24 e (k * 256 + resp % 8) foff

/-- HAUL (R83, R85, R129): with no free slot the engine stalls, and the instruction is met again. The response code of a
descriptor that ends at once is free: R85 names none. -/
def execHaul (e : Eng) (gd : Fin 16) (p : Fin 16) (am : AMode) (s : State) : Host.Outcome State Fault Refusal :=
  .next (
    if !s.engRuns e then s
    else
      let x := s.engOf e
      match x.haulFree with
      | none => (s.setEng e { x with mid := true, cyc := x.cyc + 1 }).bump (ENG_HSTALL_CNT.adr e)
      | some k =>
        let ea := x.eaOf p (x.addrOf p am 5) 0
        let as := (List.range 4).map (fun j => ea / 8 * 8 + 8 * j)
        let ws := as.map (fun a => if inDmem a then (leValue (Memory.readBytes x.mem a 8), false) else (0, true))
        let h := x.haulOfWords (ws.map (fun t => t.1))
        let resh := h.ringed && decide (h.flen ≤ h.foff) && !h.bad
        let s := s.memOp e p am 5 (fun x _ =>
          let y := (x.addY (resY (.g gd) k 1 :: (if resh then [resY (.sticky 22) 1 1] else []))).accErr
            (ea % 8 != 0 || ws.any (fun t => t.2))
          (if h.bad then y else y.setHaul k (some h), x.tluConflict as))
        if h.bad then
          let (s, v) := s.draw
          s.haulError e k (v.toNat % 8) h.foff
        else s)

end Sys2Proof.Machine
end

