-- ==== Sys2Proof/Machine/KpsOps.lean ====
section
/-! DEFINITION. The device's rewriting of the kerf parameter store from its record (R66, R113, R114). -/

namespace Sys2Proof.Machine

/-- Keys of a table. -/
def keysOf {α : Type} (t : Tbl α) : List Nat := t.map (fun p => p.1)

/-- An entry showing the state `c` at sample `c0`: a running kerf with its elapsed samples, or the settled value (R66). -/
def KSt.entryAt (c : KSt) (c0 : Nat) : KpsEntry :=
  let base : KpsEntry :=
    { start := c.start, tgt := c.tgt, busy := false, kend := c.kend, curve := c.curve, fmt := c.fmt,
      spanm1 := c.span - 1, elapsed := 0, lead := 0, pos := 0, s0 := c.s0, ahead := [] }
  if !c.busy then base
  else if c.s0 + c.span ≤ c0 then { base with start := c.tgt }
  else { base with busy := true, elapsed := c0 - c.s0 }

/-- An idle entry showing a change that comes later in the block: a kerf with its lead, a step as a kerf of one sample
(R66, R113). -/
def KpsEntry.withLead (k : KpsEntry) (c : KSt) (lead : Nat) : KpsEntry :=
  if c.busy then
    { k with tgt := c.tgt, curve := c.curve, fmt := c.fmt, spanm1 := c.span - 1, kend := c.kend, busy := true,
             elapsed := 0, lead := lead, s0 := c.s0 }
  else { k with tgt := c.start, curve := 0, fmt := c.fmt, spanm1 := 0, kend := false, busy := true, elapsed := 0,
                lead := lead, s0 := c.s0 }

/-- The entry at the first sample of the block at `c0` (R114). -/
def kpsFromRec (l : List KSt) (c0 nb : Nat) : KpsEntry :=
  let k := (recAt l c0).entryAt c0
  let later := (l.filter (fun c => decide (c0 < c.s0 ∧ c.s0 < c0 + nb))).map (fun c => (c.s0 - c0, c))
  match k.busy, later with
  | false, (o, c) :: rest => { k.withLead c o with ahead := rest }
  | _, _ => { k with ahead := later }

/-- Kerfs with KEND of a record that have run to their end by `c0`, marked, and whether one was not marked before (R114);
a kerf that a later change cut short has not ended. -/
def recFire (c0 : Nat) : List KSt → List KSt × Bool
  | [] => ([], false)
  | c :: t =>
    let (t', f) := recFire c0 t
    let cut := match t with
      | d :: _ => decide (d.s0 < c.s0 + c.span)
      | [] => false
    if c.busy && c.kend && !c.fired && !cut && decide (c.s0 + c.span ≤ c0) then ({ c with fired := true } :: t', true)
    else (c :: t', f)

/-- The record without states that are over by `c0` and have no command behind them. -/
def recPrune (c0 : Nat) (l : List KSt) : List KSt :=
  match l with
  | [] => []
  | c :: t =>
    match t with
    | [] => [c]
    | d :: _ => if d.s0 ≤ c0 ∧ c.handle = none then recPrune c0 t else c :: t

/-- One entry rewritten for the block that ICUR names (R114). -/
def Engine.rewriteEntry (nb : Nat) (x : Engine) (i : Nat) : Engine :=
  let (l, f) := recFire x.bidx (x.recOf i)
  let l := recPrune x.bidx l
  let x := (x.setRec i l).setKps i (kpsFromRec l x.bidx nb)
  if f then { x with ip := x.ip ||| 32 } else x

/-- Every entry rewritten (R114). -/
def Engine.rewriteKps (x : Engine) (nb : Nat) : Engine := (keysOf x.krec).foldl (Engine.rewriteEntry nb) x

end Sys2Proof.Machine
end

