-- ==== Sys2Proof/Machine/EngFlow.lean ====
section
/-! DEFINITION. Branches, repeats, block markers, signals and interrupts of the engines (R77-R82, R92, R126-R132). -/

namespace Sys2Proof.Machine

/-- A branch to a bundle index (R126). -/
def State.branchOp (s : State) (e : Nat) (f : Engine → Bool × Nat) : State :=
  s.flowOp e (fun s => s.yslot e (fun x => let (t, a) := f x; x.branchTo t a))

/-- B (R126, R127). -/
def execBranch (e : Eng) (cc : Cond) (target : Fin 16384) (s : State) : Host.Outcome State Fault Refusal :=
  .next (s.branchOp e (fun x => (condHolds cc x.flags, target)))

/-- BR: bits [13:0] of Gs (R126). -/
def execBranchReg (e : Eng) (cc : Cond) (gs : Fin 16) (s : State) : Host.Outcome State Fault Refusal :=
  .next (s.branchOp e (fun x => (condHolds cc x.flags, (x.gget gs).toNat)))

/-- BQZ (R126). -/
def execBqz (e : Eng) (q : Fin 4) (target : Fin 16384) (s : State) : Host.Outcome State Fault Refusal :=
  .next (s.branchOp e (fun x => (x.qtest (isCE e) q == 0, target)))

/-- BQNZ (R126). -/
def execBqnz (e : Eng) (q : Fin 4) (target : Fin 16384) (s : State) : Host.Outcome State Fault Refusal :=
  .next (s.branchOp e (fun x => (x.qtest (isCE e) q != 0, target)))

/-- CALL: the return PC is that of the bundle after the second delay slot (R126, R498). -/
def execCall (e : Eng) (cc : Cond) (gd : Fin 16) (target : Fin 16384) (s : State) : Host.Outcome State Fault Refusal :=
  .next (s.flowOp e (fun s => s.yslot e (fun x =>
    let t := condHolds cc x.flags
    let x := if t then x.addY [resY (.g gd) (seqPc (seqPc (seqPc x.r.pc))) 1] else x
    x.branchTo t target)))

/-- RETI (R80): GIE set, the flags of IEST back, and IPC after two delay slots, in the executing bank (R498). -/
def execReti (e : Eng) (s : State) : Host.Outcome State Fault Refusal :=
  .next (s.flowOp e (fun s => s.yslot e (fun x =>
    let x := x.addY [resY .ectl (setBits x.r.ectl 7 7 1).toNat 1, resY .flags (bitsOf x.r.iest 3 0) 1]
    { x.branchTo true x.r.ipc with inDbg := false })))

/-- REP Ln, #count, last (R77, R128). -/
def execRepImm (e : Eng) (l : Fin 4) (count : BitVec 24) (last : Fin 16384) (s : State) :
    Host.Outcome State Fault Refusal :=
  .next (if (s.engOf e).mid then s else s.repOp e l count.toNat last)

/-- REP Ln, Gs, last: a count above 16,777,215 is clipped with ACCERR (R128). -/
def execRepG (e : Eng) (l : Fin 4) (gs : Fin 16) (last : Fin 16384) (s : State) : Host.Outcome State Fault Refusal :=
  let c := ((s.engOf e).gget gs).toNat
  let s := if s.engRuns e && decide (2 ^ 24 ≤ c) then s.setEng e ((s.engOf e).accErr true) else s
  .next (s.repOp e l (Nat.min c (2 ^ 24 - 1)) last)

/-! End-of-block markers (R52, R53, R81, R92, R130) -/

/-- The block is marked ended: ENG_CYC.LAST, with the stalls of the marker's own bundle, and MAX (R98); a late marker discards its output and moves on to the newest input
block, counting those never processed (R53); a second marker in a block has no effect (R81). -/
def State.markEnd (s : State) (e : Nat) : State :=
  let x := s.engOf e
  if x.ended then s
  else
    let last := Nat.min (x.cyc + 1 + x.xst) (2 ^ 21 - 1)
    let s := s.setFld (ENG_CYC.LAST e) last
    let s := if s.fld (ENG_CYCMAX.MAX e) < last then s.setFld (ENG_CYCMAX.MAX e) last else s
    if x.late then
      (s.setEng e { x with late := false, work := x.bidx }).bumpBy (ENG_SKIP_CNT.adr e) ((x.bidx - x.work) / s.nb - 1)
    else s.setEng e { x with ended := true }

/-- The tick that a WAIT executed now sleeps for. -/
def Engine.nextTick (x : Engine) (nb : Nat) : Nat := x.bidx + 2 * nb

/-- The engine goes to sleep in WAIT until the block tick at sample `t` (R130). -/
def State.sleepWait (s : State) (e t : Nat) : State :=
  let x := s.engOf e
  (s.setEng e { x with mid := true, stall := true, waitFor := some t }).setFld (ENG_STAT.STATE e) engWaiting

/-- The engine exchanges its registers with the hidden context (R92): results in flight land first; 256 cycles. -/
def State.swapCtx (s : State) (e : Nat) (toNew : Bool) : State :=
  let x := (s.engOf e).drain (isCE e)
  let x := { x with r := x.hidden.getD x.r, hidden := some x.r, twin := toNew, bank := 1 - x.bank, cyc := x.cyc + 256,
                    mid := false, stall := false, dly := 0, dtgt := none, setup := 0, skip := none, lwin := 0, curX := [],
                    curY := [], tluBanks := [], adv := [], xst := 0, waitFor := x.hiddenWait, hiddenWait := x.waitFor }
  ((s.setEng e (if toNew then x.rewriteKps s.nb else x)).setFld (ENG_STAT.STATE e)
    (if toNew then engTwin else engRunning)).showPc e

/-- The old program's marker of a twin run: the new program takes over (R92). The X half of a WAIT's bundle is kept for
when the WAIT ends; that of an EOB completes. -/
def State.twinStart (s : State) (e : Nat) (wait : Bool) : State :=
  if wait then
    let s := s.bankStall e (s.engOf e).xst
    let x := s.engOf e
    let y := { x.adv.foldl Engine.advanceKps x with adv := [], cyc := x.cyc + 1 }
    let t := (s.setEng e y).swapCtx e true
    t.setEng e { t.engOf e with heldX := x.curX, oldWait := true }
  else
    let t := (s.endBundle e).swapCtx e true
    t.setEng e { t.engOf e with heldX := [], oldWait := false }

/-- The new program's marker: the block ends and the old program comes back, asleep if its own marker was a WAIT (R92). -/
def State.twinEnd (s : State) (e : Nat) : State :=
  let wasLate := (s.engOf e).late
  let s := ((s.markEnd e).endBundle e).swapCtx e false
  let x := s.engOf e
  let s := s.setEng e { x with heldX := [], oldWait := false, curX := if x.oldWait then x.heldX else [] }
  if !x.oldWait then s else if wasLate then s.endBundle e else s.sleepWait e (x.nextTick s.nb)

/-- The engine is at the old program's marker of a block of a twin run. -/
def Engine.twinDue (x : Engine) : Bool := x.hidden.isSome && !x.twin && !x.ended

/-- WAIT (R81, R130): executed again after an interrupt it completes at once when its block tick has passed. -/
def execWaitOp (e : Eng) (s : State) : Host.Outcome State Fault Refusal :=
  .next (s.flowOp e (fun s =>
    let x := s.engOf e
    match x.waitFor with
    | some t =>
      if t ≤ x.bidx + s.nb then (s.setEng e { x with waitFor := none }).endBundle e else s.sleepWait e t
    | none =>
      if x.twin then s.twinEnd e
      else if x.twinDue then s.twinStart e true
      else if x.late && !x.ended then (s.markEnd e).endBundle e
      else (s.markEnd e).sleepWait e (x.nextTick s.nb)))

/-- A WAIT that follows this EOB is the WAIT of the same block: it sleeps until that block's tick, and completes at once
when the tick has passed (R136; DEDUCED, log entry 22). -/
def Engine.afterEob (x : Engine) (nb : Nat) : Engine :=
  if x.ended then x else { x with waitFor := some (if x.late then x.bidx + nb else x.nextTick nb) }

/-- EOB (R130). -/
def execEob (e : Eng) (s : State) : Host.Outcome State Fault Refusal :=
  .next (s.flowOp e (fun s =>
    let x := s.engOf e
    let s := s.setEng e (x.afterEob s.nb)
    if x.twin then s.twinEnd e else if x.twinDue then s.twinStart e false else (s.markEnd e).endBundle e))

/-- HSYNC (R129): stalls while a named slot is busy; met again when the slots have changed. -/
def execHsync (e : Eng) (mask : BitVec 8) (s : State) : Host.Outcome State Fault Refusal :=
  .next (if !s.engRuns e then s
    else
      let x := s.engOf e
      if Nat.land x.haulBusy mask.toNat = 0 then s.endBundle e
      else s.setEng e { x with mid := true, stall := true, cyc := x.cyc + 1 })

/-- SIGNAL (R131). -/
def execSignal (e : Eng) (imm : BitVec 16) (s : State) : Host.Outcome State Fault Refusal :=
  .next (if !s.engRuns e then s else (s.raiseN2 0x28 e imm.toNat 0).endBundle e)

/-- BRK (R131). -/
def execBrk (e : Eng) (imm : BitVec 8) (s : State) : Host.Outcome State Fault Refusal :=
  .next (s.yslot e (fun x => { x with ip := x.ip ||| 8, brk := imm }))

/-- CIDLE: the control engine sleeps after this bundle; illegal on a processing engine (R94, R132). -/
def execCidle (e : Eng) (s : State) : Host.Outcome State Fault Refusal :=
  .next (if !s.engRuns e then s
    else if !isCE e then s.haltEng e 1
    else
      let s := s.endBundle e
      s.setEng e { s.engOf e with idle := true })

/-- CEVT: raises an event with Gs as its argument; illegal on a processing engine (R94, R132). -/
def execCevt (e : Eng) (code : BitVec 8) (gs : Fin 16) (s : State) : Host.Outcome State Fault Refusal :=
  .next (if !s.engRuns e then s
    else if !isCE e then s.haltEng e 1
    else (s.raise code.toNat e ((s.engOf e).gget gs) 0).endBundle e)

/-! Interrupt entry (R79-R81) -/

/-- The lowest pending source that ECTL.IE enables. -/
def Engine.pendingIrq (x : Engine) : Option Nat :=
  let m := Nat.land x.ip.toNat (bitsOf x.r.ectl 15 8)
  (List.range 8).find? (fun k => m / 2 ^ k % 2 == 1)

/-- A bundle boundary at which an interrupt may be taken (R80, R98). -/
def Engine.irqBoundary (x : Engine) : Bool :=
  (!x.mid || x.stall) && x.dly == 0 && x.setup == 0 && x.lwin == 0 && bitOf x.r.ectl 7

/-- The engine enters the handler of source `k`: results in flight land, IPC and IEST are written, GIE and the IP bit clear
(R73, R80), which takes four cycles (DEDUCED from the worked example of *Processing engines: programming model*, log entry 22).
The X half of a bundle that stalls in WAIT or HSYNC is executed again with it. -/
def Engine.takeIrq (x : Engine) (ce : Bool) (k : Nat) : Engine :=
  let x := x.drain ce
  { x with cyc := x.cyc + 4,
           r := { x.r with ipc := x.r.pc, iest := x.estRead, ectl := setBits x.r.ectl 7 7 0,
                           pc := 16384 * x.bank + (x.r.ivb + 4 * k) % 16384 },
           ip := x.ip &&& ~~~(BitVec.ofNat 8 (2 ^ k)), curX := [], curY := [], adv := [], xst := 0, tluBanks := [],
           mid := false, stall := false, idle := false, inDbg := k == 3 || x.inDbg }

/-- INTERRUPT_ENTRY: nothing happens at a boundary where none may be taken (R80). -/
def execInterruptEntry (e : Eng) (s : State) : Host.Outcome State Fault Refusal :=
  let x := s.engOf e
  let st := s.engState e
  let live := (st == engRunning || st == engTwin || st == engWaiting) && x.stopping.isNone
  .next (match x.pendingIrq with
    | some k =>
      if live && x.irqBoundary then
        let s := (s.setEng e (x.takeIrq (isCE e) k)).showPc e
        if st = engWaiting then s.setFld (ENG_STAT.STATE e) (if x.twin then engTwin else engRunning) else s
      else s
    | none => s)

end Sys2Proof.Machine
end

