-- ==== Sys2Proof/Machine/Accept.lean ====
section
/-! DEFINITION. Acceptance of host commands: the command table and the checks of R366-R368, R383-R387. -/

namespace Sys2Proof.Machine

/-- A row of the command table (R384): opcode, allowed NARG, modes, the function of a level-B command, whether it may
carry a schedule block, the writable bits of each argument word (R388-R391), and the index of its kerf word. -/
structure CmdRow where
  op : Nat
  nargs : List Nat
  modes : List Nat
  level : Option Owner
  sched : Bool
  masks : List Nat
  kerf : Option Nat

/-- The functions that level-B commands act on (R384). -/
def lvlLnd : Owner := ⟨0x2000FC, 0, false⟩
def lvlOut : Owner := ⟨0x3800FC, 0, false⟩
def lvlRaft : Owner := ⟨0x6000FC, 0, false⟩
def lvlNet : Owner := ⟨0x7000FC, 0, false⟩

/-- Modes S L H V F, and S L H V (R384). -/
def modesAll : List Nat := [1, 2, 3, 4, 5]
def modesRun : List Nat := [1, 2, 3, 4]

/-- All bits of an argument word. -/
def allBits : Nat := 0xFFFFFFFF

/-- The command table of R384, first half. -/
def cmdRowsA : List CmdRow := [
  ⟨0x0101, [1], modesAll, none, false, [7], none⟩,
  ⟨0x0102, [4], modesAll, none, false, [0x83FFFFFF, 0xFFFFFFF8, 0xFF, allBits], none⟩,
  ⟨0x0103, [3, 7], modesAll, none, true, [0x03FFFFFC, allBits, allBits], none⟩,
  ⟨0x0104, [3], [0], none, false, [allBits, 0xFF, allBits], none⟩,
  ⟨0x0105, [1, 2, 3, 4, 5, 6, 7, 8, 9, 10], [1, 4], none, false, [7], none⟩,
  ⟨0x0106, [2], [1, 4], none, false, [7, 0xFFFF], none⟩,
  ⟨0x0201, [2], modesRun, none, false, [0xFFFF, allBits], none⟩,
  ⟨0x0202, [1], modesRun, none, false, [0xFFFF], none⟩,
  ⟨0x0203, [3, 7], modesAll, none, true, [0xF0000FFF, allBits, allBits], some 2⟩,
  ⟨0x0204, [2, 6], modesRun, none, true, [0xF, allBits], some 1⟩,
  ⟨0x0301, [2, 6], modesAll, some lvlLnd, true, [0x7FFF7FFF, allBits], some 1⟩,
  ⟨0x0302, [2, 6], modesAll, some lvlLnd, true, [0x7FFF0000, allBits], some 1⟩,
  ⟨0x0303, [2], modesAll, some lvlLnd, false, [0xFFF, 0xFFF07FFF], none⟩,
  ⟨0x0401, [1], [1, 2, 3], none, false, [0x3F], none⟩,
  ⟨0x0402, [0], modesAll, none, false, [], none⟩,
  ⟨0x0403, [5], [1, 2, 3], none, false, [0x8000003F, allBits, allBits, allBits, allBits], none⟩,
  ⟨0x0404, [1], modesAll, none, false, [allBits], none⟩,
  ⟨0x0501, [2], modesAll, some lvlOut, false, [0x7FFF00FF, 0xFFFF0000], none⟩,
  ⟨0x0502, [1], modesAll, some lvlOut, false, [0x7FFF0000], none⟩]

/-- The command table of R384, second half. -/
def cmdRowsB : List CmdRow := [
  ⟨0x0601, [3], modesAll, none, false, [0x80000000, allBits, allBits], none⟩,
  ⟨0x0602, [2, 3, 4, 5, 6, 7, 8, 9, 10, 11, 12, 13], modesAll, some lvlRaft, false, List.replicate 13 0x003F1FFF, none⟩,
  ⟨0x0603, [3], modesAll, some lvlRaft, false, [0x003F03FF, allBits, allBits], none⟩,
  ⟨0x0604, [1], modesAll, none, false, [0xFF], none⟩,
  ⟨0x0605, [0], modesAll, none, false, [], none⟩,
  ⟨0x0606, [2], modesAll, none, false, [allBits, allBits], none⟩,
  ⟨0x0607, [2], modesAll, none, false, [allBits, allBits], none⟩,
  ⟨0x0701, [5], modesAll, some lvlNet, false, [0xFFFFDFFF, allBits, 0xFFFF0000, allBits, allBits], none⟩,
  ⟨0x0702, [4], modesAll, some lvlNet, false, [0xFFFFDFFF, allBits, allBits, allBits], none⟩,
  ⟨0x0703, [1], modesAll, some lvlNet, false, [0x80000FFF], none⟩,
  ⟨0x0704, [3], modesAll, none, false, [0xFFFFFFE0, allBits, allBits], none⟩,
  ⟨0x0801, [3], modesAll, none, false, [0x80000000, allBits, allBits], none⟩,
  ⟨0x0802, [0], [1], none, false, [], none⟩,
  ⟨0x0901, [1], [1, 4], none, false, [3], none⟩,
  ⟨0x0902, [0], modesAll, none, false, [], none⟩]

/-- The row of an opcode; every other opcode is reserved (R384). -/
def cmdRow (op : Nat) : Option CmdRow := (cmdRowsA ++ cmdRowsB).find? (fun r => r.op == op)

/-- A kerf word (R385). -/
structure KerfWord where
  dflt : Bool
  curve : Nat
  kend : Bool
  fmt : Nat
  span : Nat
  deriving DecidableEq, Repr

/-- The fields of a kerf word. -/
def kerfWord (w : Word) : KerfWord := ⟨bitOf w 31, bitsOf w 27 26, bitOf w 25, bitsOf w 24 23, bitsOf w 16 0⟩

/-- A kerf word that R385 refuses; `param` for PARAM_SET. -/
def kerfWordBad (w : Word) (param : Bool) : Bool :=
  bitsOf w 30 28 != 0 || bitsOf w 22 17 != 0 || decide (65536 < bitsOf w 16 0) ||
  (bitOf w 31 && (bitsOf w 27 26 != 0 || bitsOf w 16 0 != 0)) || (!param && bitsOf w 25 23 != 0)

/-- A schedule block (R386): WHEN 0 now, 1 a sample index, 2 a system time in an epoch. -/
structure Sched where
  when_ : Nat
  sys : Bool
  policy : Nat
  epoch : Nat
  index : Nat
  sec : Nat
  ns : Nat
  deriving DecidableEq, Repr

/-- The schedule block in four words. -/
def schedOf (w0 w1 w2 w3 : Word) : Sched :=
  ⟨bitsOf w0 31 30, bitOf w0 29, bitsOf w0 28 27, bitsOf w0 15 0, w1.toNat + 2 ^ 32 * w2.toNat,
   w1.toNat + 2 ^ 32 * w2.toNat, bitsOf w3 29 0⟩

/-- A schedule block that R386 refuses. -/
def schedBad (w0 w1 w2 w3 : Word) : Bool :=
  let wh := bitsOf w0 31 30
  wh == 3 || bitsOf w0 28 27 == 3 || bitsOf w0 26 16 != 0 || (wh != 2 && bitsOf w0 15 0 != 0) ||
  (wh == 0 && (w1 != 0 || w2 != 0 || w3 != 0)) || (wh == 1 && w3 != 0) || (wh == 2 && bitsOf w3 31 30 != 0)

/-- The schedule block of a command: SCENE_COMMIT's, or the one after the own arguments of a command marked Sched. -/
def CmdRow.block (r : CmdRow) (args : List Word) : Option (List Word) :=
  if r.op = 0x0403 then some (args.drop 1)
  else if r.sched ∧ args.length = r.masks.length + 4 then some (args.drop r.masks.length) else none

/-- Argument words that R383 refuses: reserved bits, a bad kerf word or a bad schedule block. -/
def argsBad (r : CmdRow) (args : List Word) : Bool :=
  ((args.zip r.masks).any (fun p => Nat.land p.1.toNat (allBits - p.2) != 0)) ||
  (match r.kerf with
   | some k => kerfWordBad (args.getD k 0) (r.op == 0x0203)
   | none => false) ||
  (match r.block args with
   | some [a, b, c, d] => schedBad a b c d
   | _ => false)

/-- The schedule block that makes a command scheduled: present with WHEN other than 0 (R386, R387). -/
def schedBlock (op : Nat) (args : List Word) : Option Sched :=
  match cmdRow op with
  | none => none
  | some r => match r.block args with
    | some [a, b, c, d] => if (schedOf a b c d).when_ = 0 ∧ op ≠ 0x0403 then none else some (schedOf a b c d)
    | _ => none

/-- The next sequence of a source, and the one after it (R366). -/
def State.nextSeqOf (s : State) (src : Nat) : Nat := Tbl.get (fun _ => 1) s.host.seq src
def State.takeSeq (s : State) (src : Nat) : State :=
  let q := s.nextSeqOf src
  { s with host := { s.host with seq := Tbl.put (fun _ => 1) s.host.seq src (if q = 2 ^ 25 - 1 then 1 else q + 1) } }

/-- Commands of one source that are ACCEPTED and not DONE (R366). -/
def State.pendingOf (s : State) (src : Nat) : Nat := (s.host.cmds.filter (fun c => c.src == src)).length

/-- Takes one command from its source. The direct port refuses a submission beyond 32 outstanding commands (R370); a
ring gives its next entry when it runs as a submission ring, has an entry waiting, and no completion waits for its
completion ring (R373, R374). -/
def State.takeCmd (s : State) (src : Nat) : State × Option (Nat × Nat) :=
  let h := src * 2 ^ 25 + s.nextSeqOf src
  if s.glb.testEn ∨ 2 ^ 24 ≤ s.pendingOf src then (s, none)
  else if src = directPort then
    if 32 ≤ s.fld HOST_CMD_STAT.PENDING then
      ((s.setFld HOST_CMD_STAT.REFUSED 1).setReg HOST_CMD_HANDLE.adr 0, none)
    else
      let s := ((s.takeSeq src).setFld HOST_CMD_STAT.REFUSED 0).setFld HOST_CMD_STAT.PENDING (s.fld HOST_CMD_STAT.PENDING + 1)
      (s.setReg HOST_CMD_HANDLE.adr (BitVec.ofNat 32 h), some (h, directPort))
  else
    let cr := s.fld (HOST_RING.CRING src)
    if s.ringRuns src 0 && decide (s.ringWaiting src ≠ 0) && !s.host.noFetch && !(s.host.held.any (fun x => x.1 == cr)) then
      ((s.takeSeq src).setFld (HOST_RING.DIDX src) (s.fld (HOST_RING.DIDX src) + 1), some (h, cr))
    else (s, none)

/-- The checks of acceptance in the order of R383: opcode, arguments, mode, XMODE, Basic reset. The answer is a refusal
status with its state, or none when the command passes. -/
def State.checkCmd (s : State) (c : Ctx) (hdrBad : Bool) : Option (State × Nat) :=
  match cmdRow c.opcode with
  | none => some (s, stBadOpcode)
  | some r =>
    if hdrBad ∨ c.args.length ∉ r.nargs ∨ argsBad r c.args then some (s, stBadArg)
    else if s.mode ∉ r.modes then some (s, stWrongMode)
    else
      let busyOf (o : Owner) : Option (State × Nat) :=
        if s.xmode o then some (s.raiseLevel 0x03 o true c.handle, stWrongMode)
        else if s.inReset o then some (s.raiseLevel 0x04 o true c.handle, stBusy) else none
      match r.level with
      | some o => busyOf o
      | none => none

/-- A command that carries a schedule block is accepted only in SETUP, LIVE and SHADOW (R387). -/
def State.schedModeOk (s : State) (c : Ctx) : Bool :=
  c.opcode == 0x0403 || (schedBlock c.opcode c.args).isNone || s.mode == 1 || s.mode == 2 || s.mode == 3

/-- Runs a command from its source: acceptance, then `body`, which completes or records it. -/
def State.runCmd (s : State) (src opcode : Nat) (hdrBad : Bool) (tag : Word) (args : List Word)
    (body : State → Ctx → State) : State :=
  match s.takeCmd src with
  | (s, none) => s
  | (s, some (h, cr)) =>
    let c : Ctx := ⟨src, cr, h, opcode, tag, args⟩
    match s.checkCmd c hdrBad with
    | some (s, st) => s.single c st 0 0
    | none => if s.schedModeOk c then body s c else s.single c stWrongMode 0 0

end Sys2Proof.Machine
end

