-- ==== Sys2Proof/Machine/Far.lean ====
section
/-! DEFINITION. Far memory: targets, capacity, responses and the bytes of yard and SDRAM (R393-R405, R411, R412). -/

namespace Sys2Proof.Machine

/-- Response codes (R397). -/
def respOk : Nat := 0
def respDecode : Nat := 1
def respTarget : Nat := 2
def respLock : Nat := 3
def respParity : Nat := 4

/-- Targets (MTX_ERR0.TARGET). -/
def tgtCfg : Nat := 10
def tgtDefault : Nat := 11

/-- Masters (R394). -/
def mCE : Nat := 16
def mHostDma : Nat := 17
def mRaftDma : Nat := 18
def mNetDma : Nat := 19
def mPortDma : Nat := 20
def mCruise : Nat := 21
def mTallyW : Nat := 22

/-- State and density of SDRAM channel `c`. -/
def State.sdrState (s : State) (c : Nat) : Nat := if c = 0 then s.fld SDR_STAT.ST0 else s.fld SDR_STAT.ST1
def State.sdrGiB (s : State) (c : Nat) : Nat := if c = 0 then s.fld SDR_STAT.SIZE0 else s.fld SDR_STAT.SIZE1

/-- Channel states (R412). -/
def sdrAbsent : Nat := 0
def sdrUntrained : Nat := 1
def sdrTraining : Nat := 2
def sdrReady : Nat := 3
def sdrFailed : Nat := 4

/-- The size a channel offers: 7/8 of its density with ECC (R411). -/
def State.sdrOffer (s : State) (c : Nat) : Nat :=
  s.sdrGiB c * 2 ^ 30 / 8 * (if s.flag SDR_STAT.ECC then 7 else 8)

/-- A channel that has an address range: READY, or READY before a training or failure that makes its accesses return
ERR_TARGET (R412, R414). -/
def State.sdrMapped (s : State) (c : Nat) : Bool := 2 ≤ s.sdrState c

/-- The size of a channel's address range. -/
def State.sdrRange (s : State) (c : Nat) : Nat := if s.sdrMapped c then s.sdrOffer c else 0

/-- The far capacity of the READY channels (R411). -/
def State.sdrCap (s : State) : Nat :=
  (if s.sdrState 0 = sdrReady then s.sdrOffer 0 else 0) + (if s.sdrState 1 = sdrReady then s.sdrOffer 1 else 0)

/-- First far address of the SDRAM. -/
def sdrBase : Nat := 0x400000000

/-- The channels are interleaved (R411). -/
def State.sdrSplit (s : State) : Bool :=
  s.flag SDR_STAT.INTLV && s.sdrMapped 0 && s.sdrMapped 1 && s.sdrGiB 0 == s.sdrGiB 1

/-- The SDRAM channel of an SDRAM offset (R411). -/
def State.sdrChan (s : State) (o : Nat) : Nat :=
  if s.sdrSplit then o / 512 % 2
  else if o < s.sdrRange 0 then 0 else 1

/-- A master that CFG admits (R393). -/
def cfgAdmits (m : Nat) : Bool := m == mCE || m == mHostDma || m == mTallyW

/-- The target of a far address for master `m` (R393). -/
def State.farTarget (s : State) (m a : Nat) : Nat :=
  if a < 0x2000000 then a / 0x400000
  else if 0x100000000 ≤ a ∧ a < 0x102000000 ∧ cfgAdmits m then tgtCfg
  else if sdrBase ≤ a ∧ a < sdrBase + s.sdrRange 0 + s.sdrRange 1 then 8 + s.sdrChan (a - sdrBase)
  else tgtDefault

/-- Power state of yard bank `b` (R405): 0 ON, 1 RET, 2 OFF. -/
def State.bankPwr (s : State) (b : Nat) : Nat := bitsOf (s.reg (YARD_XPWR.adr (b / 16))) (2 * (b % 16) + 1) (2 * (b % 16))

/-- The response of an access to far address `a` by master `m`, errors in data apart. -/
def State.farResp (s : State) (m a : Nat) : Nat :=
  let t := s.farTarget m a
  if t = tgtDefault then respDecode
  else if t < 8 then (if s.bankPwr (a / 0x80000) = 0 then respOk else respTarget)
  else if t < 10 then (if s.sdrState (t - 8) = sdrReady then respOk else respTarget)
  else respOk

/-- Records an error in MTX_ERR0 and MTX_ERR1 (R401). -/
def State.mtxRecord (s : State) (resp m t a : Nat) (write : Bool) : State :=
  let s := s.setReg MTX_ERR0.adr
    (BitVec.ofNat 32 (resp * 2 ^ 29 + m % 32 * 2 ^ 24 + t * 2 ^ 20 + b2n write * 2 ^ 19 + a / 2 ^ 32 % 256))
  { s with far := { s.far with err1 := lo32 a } }

/-- What an error response does: MTX_DECODE_ERR for DEFAULT, YARD_ASLEEP for a sleeping bank (R401, R405). -/
def State.farError (s : State) (resp m a : Nat) (write : Bool) : State :=
  let t := s.farTarget m a
  let s := s.mtxRecord resp m t a write
  if resp = respDecode then (s.bump MTX_DECERR_CNT.adr).raise 0xE0 m (lo32 a) (hi32 a)
  else if resp = respTarget ∧ t < 8 then (s.bump YARD_ASLEEP_CNT.adr).raise 0xE4 m (lo32 a) (hi32 a)
  else s

/-- One byte of far memory; CFG bytes come from `cfg`. -/
def State.farByte (s : State) (cfg : Nat → Word) (a : Nat) : Byte :=
  if a < 0x2000000 then Memory.read s.far.yard a
  else if sdrBase ≤ a then Memory.read s.far.sdr (a - sdrBase)
  else BitVec.ofNat 8 ((cfg ((a - 0x100000000) / 4 * 4)).toNat / 2 ^ (8 * (a % 4)))

/-- One byte written to yard or SDRAM. -/
def State.farPut (s : State) (a : Nat) (b : Byte) : State :=
  if a < 0x2000000 then { s with far := { s.far with yard := Memory.write s.far.yard a b } }
  else if sdrBase ≤ a then { s with far := { s.far with sdr := Memory.write s.far.sdr (a - sdrBase) b } }
  else s

/-- Reads `n` bytes from far address `a` on, beat by beat; from the first failing beat on the bytes are 0 (R397). -/
def State.farRead (s : State) (cfg : Nat → Word) (m a n : Nat) : State × Nat × List Byte :=
  let rs := (List.range n).map (fun i => (a + i, s.farResp m (a + i)))
  match rs.find? (fun t => t.2 != respOk) with
  | none => (s, respOk, rs.map (fun t => s.farByte cfg t.1))
  | some (b, r) =>
    let first := b / 32 * 32
    (s.farError r m b false, r, rs.map (fun t => if t.1 < first then s.farByte cfg t.1 else 0))

/-- Writes bytes from far address `a` on; from the first failing beat on nothing is written (R397). Writes to CFG are
given to `cfgW`, word by word. -/
def State.farWrite (s : State) (cfgW : State → Nat → Word → State) (m a : Nat) (bs : List Byte) : State × Nat :=
  let l := (List.range bs.length).zip bs
  match l.find? (fun t => s.farResp m (a + t.1) != respOk) with
  | none =>
    if s.farTarget m a = tgtCfg then
      ((List.range (bs.length / 4)).foldl (fun t i =>
        cfgW t (a - 0x100000000 + 4 * i) (BitVec.ofNat 32 (leValue ((bs.drop (4 * i)).take 4)))) s, respOk)
    else (l.foldl (fun t x => t.farPut (a + x.1) x.2) s, respOk)
  | some (i, _) =>
    let r := s.farResp m (a + i)
    let first := (a + i) / 32 * 32
    ((l.foldl (fun t x => if a + x.1 < first then t.farPut (a + x.1) x.2 else t) s).farError r m (a + i) true, r)

/-- No CFG write. -/
def noCfg (s : State) (_ : Nat) (_ : Word) : State := s

/-- A 32-bit little-endian word of a byte list (R4). -/
def wordAt (bs : List Byte) (i : Nat) : Word := BitVec.ofNat 32 (leValue ((bs.drop (4 * i)).take 4))

end Sys2Proof.Machine
end

