-- ==== Sys2Proof/Machine/ReadReg.lean ====
section
/-! DEFINITION. What a read of BAR0 shows (R6, R7, R51, R363): stored registers, the views that follow live state, and the
engine windows (R67, R68). Side effects of a read are commands of their own. -/

namespace Sys2Proof.Machine

/-- Engine window of an offset: engine and window offset (R67). -/
def engWindow (off : Nat) : Option (Nat × Nat) :=
  if 0x1000000 ≤ off ∧ off < 0x1FF0000 then some ((off - 0x1000000) / 0xF0000, (off - 0x1000000) % 0xF0000) else none

/-- The local byte address that a window offset shows, for memories: IMEM, DMEM, KPS, I/O view (R67); the control engine
has no KPS and no I/O blocks (R68, R86). -/
def State.windowLocal (s : State) (e w : Nat) : Option Nat :=
  if w < 0x40000 then some w
  else if w < 0xC0000 then some (0x100000 + (w - 0x40000))
  else if isCE e then none
  else if w < 0xD0000 then some (0x200000 + (w - 0xC0000))
  else if w < 0xE0000 then
    some ((if s.flag (ENG_CTL.IOVIEW e) then 0x310000 else 0x300000) + (w - 0xD0000))
  else none

/-- A word of an engine window's memories; CE IMEM reads 0 outside SERVICE (R68). -/
def State.windowRead (s : State) (e w : Nat) : Word :=
  match s.windowLocal e (w / 4 * 4) with
  | none => 0
  | some a =>
    if isCE e ∧ w < 0x40000 ∧ s.mode ≠ 4 then 0
    else if inKps a then ((s.engOf e).kpsOf ((a - 0x200000) / 16)).word ((a - 0x200000) % 16 / 4)
    else BitVec.ofNat 32 (leValue (Memory.readBytes (s.engOf e).mem a 4))

/-- Route entries in use: EN, KERF or QUEUED (LND_STAT.ROUTES). -/
def State.routesInUse (s : State) : List Nat :=
  (distinctSorted ((s.regs.filterMap (fun p =>
    if 0x210000 ≤ p.1 ∧ p.1 < 0x250000 ∧ ((p.1 % 16 = 0 ∧ bitOf p.2 31) ∨ (p.1 % 16 = 4 ∧ bitsOf p.2 31 30 ≠ 0)) then some ((p.1 - 0x210000) / 16) else none))))
where
  /-- Neighbouring equal numbers kept once. -/
  distinctSorted : List Nat → List Nat
    | a :: b :: t => if a = b then distinctSorted (b :: t) else a :: distinctSorted (b :: t)
    | l => l

/-- Enabled meters (LND_STAT.METERS). -/
def State.metersOn (s : State) : Nat :=
  (s.regs.filter (fun p => decide (0x250000 ≤ p.1 ∧ p.1 < 0x254000) && bitOf p.2 31)).length

/-- The interrupt pin's condition (R378): not in BOOT. -/
def State.irqPin (s : State) : Bool :=
  s.mode != 0 && ((s.flag HOST_IRQ.CPL && !s.host.dcpl.isEmpty) || (s.flag HOST_IRQ.EV && !s.host.devq.isEmpty))

/-- The claim number: role class above the fused base (R341). -/
def State.claimNow (s : State) : Nat := s.fld PAIR_STAT.CLASS * 2 ^ 14 + s.fld FUSE_NODE.NODE

/-- Word `k` of the oldest entry of a direct FIFO: word 0 live, words 1-7 as latched by the last pop (R371). -/
def fifoWord (head : Option (List Word)) (latch : List Word) (k : Nat) : Word :=
  if k = 0 then ((head.getD []).getD 0 0) else latch.getD (k - 1) 0

/-- The sixteen words of a tally record (R429). -/
def TlyRec.words (r : TlyRec) : List Word :=
  let head := BitVec.ofNat 32 (r.ver % 16 * 2 ^ 28 + r.seq % 2 ^ 28)
  [head, BitVec.ofNat 32 (r.ev.code * 2 ^ 24 + r.flags % 256 * 2 ^ 16 + r.ev.source),
   BitVec.ofNat 32 (r.repeatCnt % 65536 * 2 ^ 16 + r.ev.epoch), lo32 r.ev.sidx, hi32 r.ev.sidx, lo32 r.ev.sec,
   BitVec.ofNat 32 (r.ev.ns % 2 ^ 30), lo32 r.last, hi32 r.last, r.snaps.getD 0 0, r.snaps.getD 1 0, r.snaps.getD 2 0,
   r.snaps.getD 3 0, r.snaps.getD 4 0, r.snaps.getD 5 0, head]

/-- The words of a slot of the tally store; an empty slot reads 0. -/
def State.tlySlot (s : State) (k : Nat) : List Word :=
  match Tbl.get (fun _ => none) s.tly.store k with
  | some r => r.words
  | none => List.replicate 16 0

/-- Non-empty slots (TLY_STAT.VALID). -/
def State.tlyValid (s : State) : Nat := (s.tly.store.filter (fun p => p.2.isSome)).length

/-- A shadowed register as a read shows it: its writable bits as last written, every other bit live (R6, R7). -/
def State.shown (s : State) (off : Nat) : Word :=
  match findRow off with
  | some (r, _) => BitVec.ofNat 32 (Nat.lor (Nat.land (s.written off).toNat r.rw) (Nat.land (s.reg off).toNat (ctrMax - r.rw)))
  | none => s.written off

/-- What a 32-bit read of BAR0 offset `off` shows. -/
def State.readReg (s : State) (off : Nat) : Word :=
  match engWindow off with
  | some (e, w) => if isCE e ∧ s.flag FUSE_STAT.DBGLOCK then 0 else if w < 0xE0000 then s.windowRead e w else s.shown off
  | none =>
    if 0x1FF1000 ≤ off ∧ off < 0x1FF1400 then Tbl.get msixDefault s.host.msix (off - 0x1FF1000)
    else if 0x1FF2000 ≤ off ∧ off < 0x1FF2008 then
      BitVec.ofNat 32 ((s.host.pba.filter (fun v => v / 32 == (off - 0x1FF2000) / 4)).foldl (fun a v => a + 2 ^ (v % 32)) 0)
    else if off = GLB_SCNT_LO.adr then lo32 s.sidx
    else if off = LND_STAT.adr then BitVec.ofNat 32 (s.metersOn * 2 ^ 16 + s.routesInUse.length)
    else if off = KRF_STAT.adr then BitVec.ofNat 32 (s.lnd.queue.length * 2 ^ 16 + s.lnd.kerfs.length)
    else if off = SCN_STAT.adr then setBits (s.reg off) 10 0 s.scn.sched.length
    else if off = HOST_DSTAT.adr then BitVec.ofNat 32 (s.host.dcpl.length * 2 ^ 16 + s.host.devq.length)
    else if off = HOST_IRQ.adr then setBits (s.reg off) 31 31 (b2n s.irqPin)
    else if HOST_DCPL.adr 0 ≤ off ∧ off ≤ HOST_DCPL.adr 7 then
      fifoWord (s.host.dcpl.head?.map Cpl.words) s.host.dcplLatch ((off - HOST_DCPL.adr 0) / 4)
    else if HOST_DEVQ.adr 0 ≤ off ∧ off ≤ HOST_DEVQ.adr 7 then
      fifoWord (s.host.devq.head?.map (fun t => t.1.words t.2)) s.host.devqLatch ((off - HOST_DEVQ.adr 0) / 4)
    else if 0x400000 ≤ off ∧ off < 0x420000 ∧ off % 0x1000 = 0xC then BitVec.ofNat 32 (b2n (s.fld (TDM_STAT.SYNC ((off - 0x400000) / 0x1000)) == 2))
    else if off = TLY_STAT.adr then setBits (setBits (s.reg off) 22 16 s.tly.queue.length) 12 0 s.tlyValid
    else if off = TLY_WIN.adr 0 then (s.tlySlot (s.fld TLY_CURSOR.SLOT)).getD 0 0
    else if TLY_WIN.adr 1 ≤ off ∧ off ≤ TLY_WIN.adr 15 then s.tly.win.getD ((off - TLY_WIN.adr 0) / 4) 0
    else if off = GLB_GPIO_IN.adr then BitVec.ofNat 32 (Nat.land (s.fld GLB_GPIO.OE) (s.fld GLB_GPIO.OUT))
    else if off = DAC_STAT.adr then setBits (s.reg off) 7 0 s.dacLive
    else if off = TIM_NOW.adr 0 then lo32 s.time.sec
    else if off = PAIR_CLAIM.adr then BitVec.ofNat 32 s.claimNow
    else if off = RAFT_NODE.adr then setBits (s.reg off) 13 0 (s.fld (if s.flag RAFT_XNODE.OVR then RAFT_XNODE.NODE else RAFT_NODE.NODE))
    else if off = GLB_RATE.adr then
      match s.glb.ratePend with
      | some (rate, nb, _) => setBits (setBits (s.reg off) 2 0 rate) 9 8 nb
      | none => s.reg off
    else s.shown off

end Sys2Proof.Machine
end

