-- ==== Sys2Proof/Machine/Sched.lean ====
section
/-! DEFINITION. The index and lateness of commits and scheduled commands, their pending places (R192-R202, R387). -/

namespace Sys2Proof.Machine

/-- The next order of acceptance. -/
def State.nextOrder (s : State) : State × Nat :=
  ({ s with scn := { s.scn with order := s.scn.order + 1 } }, s.scn.order + 1)

/-- A time in units of 2^-40 ns. -/
def timeUnits (sec ns frac : Nat) : Nat := (sec * 1000000000 + ns) * 2 ^ 40 + frac

/-- A time in those units, and back. -/
def Time.units (t : Time) : Nat := timeUnits t.sec t.ns t.frac
def Time.ofUnits (u : Nat) : Time :=
  let ns := u / 2 ^ 40
  ⟨ns / 1000000000 % 2 ^ 64, ns % 1000000000, u % 2 ^ 40⟩

/-- The (sample index, time) pair latched at the last block tick (R326, R331). -/
def State.mapPair (s : State) : Nat × Nat := (s.tim.mapS, s.tim.mapT.units)

/-- The sample whose start lies nearest a system time, ties to the later sample (R193, R331). -/
def State.sampleOfTime (s : State) (sec ns : Nat) : Nat :=
  let (n0, t0) := s.mapPair
  let num : Int := ((timeUnits sec ns 0 : Int) - t0) * s.fs
  let den : Int := ((1000000000 * 2 ^ 40 : Nat) : Int)
  ((n0 : Int) + (2 * num + den) / (2 * den)).toNat

/-- The index that a schedule block asks for, or the status that refuses it (R193, R194). -/
def State.requested (s : State) (b : Sched) : Nat × Nat :=
  if b.when_ = 0 then (stOk, s.sidx + 1)
  else if b.when_ = 1 then (stOk, b.index)
  else if b.epoch ≠ s.epoch then (stBadArg, 0)
  else if b.sys ∧ s.flag TIM_STAT.DIV then (stWrongMode, 0)
  else (stOk, s.sampleOfTime b.sec b.ns)

/-- Rounding up to a multiple. -/
def roundUp (n k : Nat) : Nat := (n + k - 1) / k * k

/-- The rounding of an index that holds a program swap: to NB, or to 64 in SYSTEM scope (R193). -/
def State.roundProg (s : State) (sys prog : Bool) (n : Nat) : Nat :=
  if prog then roundUp n (if sys then 64 else s.nb) else n

/-- A late item of this scope and policy is rejected (R192, R195). -/
def State.rejectsLate (s : State) (sys : Bool) (policy : Nat) : Bool :=
  if policy = 0 then (if sys then s.flag SCN_XDEF.SYS else s.flag SCN_XDEF.LOCAL) else policy == 2

/-- A system time kept for R202. -/
def Sched.time (b : Sched) : Option ReqTime := if b.when_ = 2 then some ⟨b.sec, b.ns⟩ else none

/-- SCN_LATE and its counter (R195, R207, R208). -/
def State.scnLate (s : State) (buf h late : Nat) : State := (s.raiseN2 0x45 buf h late).bump SCN_LATE_CNT.adr

/-- SCN_REJECTED_LATE and its counter (R195, R207, R208). -/
def State.scnRejected (s : State) (buf h late : Nat) : State := (s.raiseN2 0x46 buf h late).bump SCN_REJ_CNT.adr

/-- The first sample of the block that holds the current one: the index of an immediate parameter change (R164). -/
def State.blockStart (s : State) : Nat := s.sidx / s.nb * s.nb

/-- The first index that is on time for a command reaching its unit now: the next sample (R195), and for a PARAM_SET the first
sample of the current block (R164). -/
def State.onTime (s : State) (opcode : Nat) : Nat := if opcode = 0x0203 then s.blockStart else s.sidx + 1

/-- A command with a schedule block becomes a scheduled command, or is refused (R199, R193-R195). -/
def State.schedule (s : State) (c : Ctx) (b : Sched) : State :=
  if 1024 ≤ s.scn.sched.length then s.single c stNoResource 0 0
  else
    let prog := c.opcode == 0x0204
    let (st, req) := s.requested b
    if st ≠ stOk then s.single c st 0 0
    else
      let idx := s.roundProg b.sys prog req
      let now := s.sidx + 1
      let miss := decide (idx < s.onTime c.opcode)
      if miss ∧ s.rejectsLate b.sys b.policy then
        (s.scnRejected 0 c.handle (now - req)).single c stRejectedLate 0 0
      else
        let eff := if miss then s.roundProg b.sys prog now else idx
        let late := if miss then eff - req else 0
        let s := if miss then s.scnLate 0 c.handle late else s
        let s := s.accept c eff 0 true late
        let (s, order) := s.nextOrder
        let it : SchedItem :=
          { handle := c.handle, opcode := c.opcode, args := c.args, idx := eff, req := req, late := late, rounding := if miss then eff - now else eff - req, time := b.time,
            sys := b.sys, policy := b.policy, order := order }
        { s with scn := { s.scn with sched := s.scn.sched ++ [it] } }

/-- The schedule block of a command that is scheduled. -/
def Ctx.sched (c : Ctx) : Option Sched := schedBlock c.opcode c.args

end Sys2Proof.Machine
end

