-- ==== Sys2Proof/Machine/Param.lean ====
section
/-! DEFINITION. Parameter changes: the record of each KPS entry, PARAM_SET, host writes to entries, and their ends
(R163-R169, R388). -/

namespace Sys2Proof.Machine

/-- A value, FMT and curve that R163 refuses when a change is accepted or armed. -/
def paramBad (fmt curve : Nat) (v : Word) : Bool :=
  fmt == 3 || (curve == curveDbl && (fmt == 2 || bitOf v 31))

/-- A kerf of a record state is in force at sample `n` (R161). -/
def KSt.inForce (c : KSt) (n : Nat) : Bool := c.busy && decide (n < c.s0 + c.span)

/-- DETAIL1 of a retarget at `n` (R388). -/
def retargeted (n : Nat) : Nat := 2 ^ 31 + n % 2 ^ 31

/-- The value given for the sample before `n`. -/
def KSt.before (c : KSt) (n : Nat) : Word := c.valueAt (n - 1)

/-- A change refused at its index (R163, R165): its FMT differs from the entry's while a kerf `prev` is in force there, or it is
a kerf under DBL whose START would be negative. -/
def KSt.refusedAfter (prev c : KSt) : Bool :=
  (c.fmt != prev.fmt && prev.inForce c.s0) ||
  (c.fmt == prev.fmt && c.askSpan != 0 && c.curve == curveDbl && bitOf (prev.before c.s0) 31)

/-- A change as it follows the state `prev`: a step when its span is 0 or its FMT differs, else a kerf from the value that `prev`
gives for the sample before it (R163-R166). -/
def KSt.after (prev c : KSt) : KSt :=
  if c.askSpan = 0 ∨ c.fmt ≠ prev.fmt then { c with busy := false, start := c.tgt, span := 1, kend := false }
  else { c with busy := true, start := prev.before c.s0, span := c.askSpan, kend := c.askKend }

/-- The states of a record that come after `prev`, worked out again from it, and the changes now refused (R163-R166); a state
that no change made stays. -/
def restart (prev : KSt) : List KSt → List KSt × List KSt
  | [] => ([], [])
  | c :: t =>
    if c.order = 0 then ((c :: (restart c t).1), (restart c t).2)
    else if prev.refusedAfter c then ((restart prev t).1, c :: (restart prev t).2)
    else ((prev.after c :: (restart (prev.after c) t).1), (restart (prev.after c) t).2)

/-- A change of entry `i` of engine `e` at sample `n` (R163-R167): the state and a status. On success the change is in the
record, what it retargets or replaces completes, and a step completes at once. -/
def State.paramChange (s : State) (e i : Nat) (v : Word) (fmt span curve : Nat) (kend : Bool) (n order : Nat)
    (h : Option Nat) : State × Nat :=
  let l := (s.engOf e).recOf i
  let before := l.filter (fun c => decide (c.s0 < n) || c.order == 0)
  let same := l.filter (fun c => c.s0 == n && c.order != 0)
  let after := l.filter (fun c => decide (n < c.s0) && c.order != 0)
  let prev := before.getLast?.getD KSt.reset
  let ask : KSt :=
    { s0 := n, busy := false, start := v, tgt := v, curve := curve, span := 1, kend := false, fmt := fmt, handle := h,
      fired := false, order := order, askSpan := span, askKend := kend }
  if paramBad fmt curve v ∨ 65536 < span ∨ prev.refusedAfter ask then (s, stBadArg)
  else if same.any (fun c => decide (order < c.order)) then (s, stAborted)
  else
    let new := prev.after ask
    let (later, refused) := restart new after
    let cut := prev.inForce n
    let newDone : Option Nat := match later with
      | c :: _ => if new.busy ∧ c.s0 < n + new.span then some c.s0 else none
      | [] => none
    let keep (c : KSt) (b : Bool) : KSt := if b then { c with handle := none } else c
    let stepped := later.filter (fun c => !c.busy)
    let l' := before.dropLast ++ [keep prev cut] ++ [keep new (!new.busy || newDone.isSome)] ++ later.map (fun c => keep c (!c.busy))
    let s := s.setEng e ((s.engOf e).setRec i l')
    let s := same.foldl (fun s c => s.opDone c.handle c.s0 stAborted 0 0 0) s
    let s := refused.foldl (fun s c => s.opDone c.handle c.s0 stBadArg 0 0 0) s
    let s := stepped.foldl (fun s c => s.opDone c.handle c.s0 stOk 0 0 0) s
    let s := if cut then s.opDone prev.handle prev.s0 stOk 0 (retargeted n) 0 else s
    let s := match newDone with
      | some m => s.opDone h n stOk 0 (retargeted m) 0
      | none => if new.busy then s else s.opDone h n stOk 0 0 0
    (s, stOk)

/-- Span and curve of a kerf word, with the defaults in `d` (R385). -/
def KerfWord.withDefault (k : KerfWord) (span curve : Nat) : Nat × Nat := if k.dflt then (span, curve) else (k.span, k.curve)

/-- Span and curve of a PARAM_SET (R164, R385). -/
def State.paramKerf (s : State) (k : KerfWord) : Nat × Nat := k.withDefault (s.fld KRF_XPDEF.SPAN) (s.fld KRF_XPDEF.CURVE)

/-- The parameter change that the own arguments of a PARAM_SET ask for, at sample `n`. -/
def State.paramOfArgs (s : State) (args : List Word) (n order : Nat) (h : Option Nat) : State × Nat :=
  let a0 := args.getD 0 0
  let k := kerfWord (args.getD 2 0)
  let (span, curve) := s.paramKerf k
  s.paramChange (bitsOf a0 31 28) (bitsOf a0 11 0) (args.getD 1 0) k.fmt span curve k.kend n order h

/-- PARAM_SET once accepted (R163, R164, R199). -/
def State.paramSet (s : State) (c : Ctx) : State :=
  let k := kerfWord (c.arg 2)
  if paramBad k.fmt (s.paramKerf k).2 (c.arg 1) then s.single c stBadArg 0 0
  else match c.sched with
    | some b => s.schedule c b
    | none =>
      let (t, order) := (s.accept c s.blockStart 0 false 0).nextOrder
      let (t, st) := t.paramOfArgs c.args s.blockStart order (some c.handle)
      if st = stOk then t else s.single c st 0 0

/-- PARAM_SET. -/
def execParamSet (src : Fin 128) (tag : Word) (args : List Word) (s : State) : Host.Outcome State Fault Refusal :=
  .next (s.runCmd src.val 0x0203 false tag args State.paramSet)

/-- PARAM_KERF_END: the kerfs of an entry that have reached their target complete their commands (R168). -/
def execParamKerfEnd (e : Fin 16) (i : Fin 4096) (s : State) : Host.Outcome State Fault Refusal :=
  let l := (s.engOf e).recOf i
  let passed (c : KSt) : Bool := c.busy && c.handle.isSome && decide (c.s0 + c.span ≤ s.sidx)
  let s1 := s.setEng e ((s.engOf e).setRec i (l.map (fun c => if passed c then { c with handle := none } else c)))
  .next ((l.filter passed).foldl (fun s c => s.opDone c.handle c.s0 stOk 0 0 0) s1)

/-- ENG_HOST_REFUSED for a window write (R68, R90). -/
def State.hostRefused (s : State) (e w : Nat) (v : Word) : State :=
  s.raise 0x27 e (BitVec.ofNat 32 (0x1000000 + e * 0xF0000 + w)) v

/-- A word with the enabled bytes of `v` (R363). -/
def mergeBytes (old v : Word) (be : BitVec 4) : Word :=
  BitVec.ofNat 32 (leValue ((List.range 4).map (fun k =>
    BitVec.ofNat 8 ((if be.getLsbD k then v else old).toNat / 2 ^ (8 * k)))))

/-- A host write to word `w` of an idle entry: BUSY and ELAPSED ignore it, and the record adopts the entry (R68, R167). -/
def Engine.kpsPut (x : Engine) (nb i w : Nat) (v : Word) : Engine :=
  let k := x.kpsOf i
  let k' : KpsEntry := match w with
    | 0 => { k with start := v }
    | 1 => { k with tgt := v }
    | 2 => { k with kend := bitOf v 30, curve := bitsOf v 29 28, fmt := bitsOf v 27 26 }
    | _ => { k with spanm1 := bitsOf v 31 16 }
  let p := min (x.bidx + k.pos) (x.bidx + nb - 1)
  let new : KSt :=
    { s0 := p, busy := false, start := k'.start, tgt := k'.tgt, curve := k'.curve, span := k'.spanm1 + 1, kend := k'.kend,
      fmt := k'.fmt, handle := none, fired := false, order := 0, askSpan := 0, askKend := false }
  let l := x.recOf i
  (x.setKps i k').setRec i (l.filter (fun c => decide (c.s0 ≤ p)) ++ [new] ++
    (restart new (l.filter (fun c => decide (p < c.s0)))).1)

/-- A host write of a KPS word: refused while the entry has BUSY = 1 (R68, R167). -/
def State.kpsWrite (s : State) (e i w : Nat) (v : Word) (be : BitVec 4) : State :=
  let x := s.engOf e
  if (x.kpsOf i).busy then s.hostRefused e (0xC0000 + 16 * i + 4 * w) v
  else s.setEng e (x.kpsPut s.nb i w (mergeBytes ((x.kpsOf i).word w) v be))

/-- KPS_HOST_WRITE. -/
def execKpsHostWrite (e : Fin 16) (i : Fin 4096) (w : Fin 4) (v : Word) (be : BitVec 4) (s : State) :
    Host.Outcome State Fault Refusal :=
  .next (s.kpsWrite e i w v be)

end Sys2Proof.Machine
end

