-- ==== Sys2Proof/Machine/EngCtl.lean ====
section
/-! DEFINITION. Engine lifecycle: start and stop requests, starts and stops, doorbell, host window writes, program swaps,
and what a block tick does to an engine (R40, R52-R58, R64, R67-R70, R87-R92, R176-R180, R388). -/

namespace Sys2Proof.Machine

/-! Requests (R57, R58, R70, R388) -/

/-- A start request of engine `e`: ignored unless STOPPED or HALTED, and in BOOT and SAFE. -/
def State.requestStart (s : State) (e : Nat) (ring : Option Nat) (cmd : Option Nat) : State :=
  let x := s.engOf e
  if !s.engAtRest e || x.startReq.isSome || s.mode == 0 || s.mode == 5 then s
  else (s.setEng e { x with startReq := some s.sidx, startRing := ring, startCmd := cmd }).setFld (ENG_CTL.RUN e) 1

/-- A stop request of engine `e`: ignored when it is STOPPED already. -/
def State.requestStop (s : State) (e : Nat) (cmd : Option Nat) : State :=
  let x := s.engOf e
  if s.engState e = engStopped then s
  else
    let x := { x with stopReq := some (x.stopReq.getD s.sidx), stopCmd := if cmd.isSome then cmd else x.stopCmd }
    (s.setEng e x).setFld (ENG_CTL.STOP e) 1

/-- A host write of ENG_CTL: IOVIEW, BANK and LF_HALT take the value, RUN and STOP request (R67, R68). -/
def State.engCtlWrite (s : State) (e : Nat) (v : Word) : State :=
  if isCE e ∧ s.mode ≠ 4 then s
  else
    let s := ((s.setFld (ENG_CTL.IOVIEW e) (bitsOf v 4 4)).setFld (ENG_CTL.BANK e) (bitsOf v 3 3)).setFld
      (ENG_CTL.LF_HALT e) (bitsOf v 2 2)
    let s := if bitOf v 0 then s.requestStart e none none else s
    if bitOf v 1 then s.requestStop e none else s

/-- ENG_CTL_RUN: a write of ENG_CTL with RUN set. -/
def execEngCtlRun (e : Eng) (v : Word) (s : State) : Host.Outcome State Fault Refusal := .next (s.engCtlWrite e (v ||| 1))

/-- ENG_CTL_STOP: a write of ENG_CTL with STOP set. -/
def execEngCtlStop (e : Eng) (v : Word) (s : State) : Host.Outcome State Fault Refusal := .next (s.engCtlWrite e (v ||| 2))

/-- The engines that a mask names. -/
def maskEngines (m : Nat) : List Nat := (List.range 16).filter (fun k => m / 2 ^ k % 2 == 1)

/-- ENG_GRUN (R70). -/
def execEngGrun (mask : BitVec 16) (s : State) : Host.Outcome State Fault Refusal :=
  .next ((maskEngines mask.toNat).foldl (fun s e => s.requestStart e none none) s)

/-- ENG_GSTOP (R70). -/
def execEngGstop (mask : BitVec 16) (s : State) : Host.Outcome State Fault Refusal :=
  .next ((maskEngines mask.toNat).foldl (fun s e => s.requestStop e none) s)

/-- ENG_START once accepted (R388): an engine that is neither STOPPED nor HALTED makes the whole command BUSY; a ring
table outside DMEM is refused. -/
def State.engStart (s : State) (c : Ctx) : State :=
  let es := maskEngines (c.abits 0 15 0)
  let ring := (c.arg 1).toNat
  if ring ≠ 0 ∧ (ring < 0x100000 ∨ 0x180000 < ring + 64 ∨ ring % 4 ≠ 0) then s.single c stBadArg 0 0
  else if es.any (fun e => !s.engAtRest e || (s.engOf e).startReq.isSome) then s.single c stBusy 0 0
  else if es.isEmpty then s.single c stOk 0 0
  else
    let s := (s.accept c (s.nextBoundary s.sidx) 0 false 0).updCmd c.handle (fun r => { r with d0 := c.abits 0 15 0 })
    es.foldl (fun s e => s.requestStart e (if ring = 0 then none else some ring) (some c.handle)) s

/-- ENG_START. -/
def execEngStart (src : Fin 128) (tag : Word) (args : List Word) (s : State) : Host.Outcome State Fault Refusal :=
  .next (s.runCmd src.val 0x0201 false tag args State.engStart)

/-- ENG_STOP once accepted (R388). -/
def State.engStop (s : State) (c : Ctx) : State :=
  let es := (maskEngines (c.abits 0 15 0)).filter (fun e => s.engState e != engStopped)
  if es.isEmpty then s.single c stOk (c.abits 0 15 0) 0
  else
    let s := (s.accept c s.sidx 0 false 0).updCmd c.handle (fun r => { r with d0 := c.abits 0 15 0 })
    es.foldl (fun s e => s.requestStop e (some c.handle)) s

/-- ENG_STOP. -/
def execEngStop (src : Fin 128) (tag : Word) (args : List Word) (s : State) : Host.Outcome State Fault Refusal :=
  .next (s.runCmd src.val 0x0202 false tag args State.engStop)

/-! Output blocks (R53, R65, R177) -/

/-- Channels per engine (R65). -/
def State.engChans (s : State) : Nat := if s.nb ≤ 16 then 256 else if s.nb = 32 then 128 else 64

/-- The nonzero 64-bit words of one row of a block: `n` words from byte address `base`. -/
def rowWords (m : Memory) (base n : Nat) : Tbl Nat :=
  (m.filter (fun p => decide (base ≤ p.1 ∧ p.1 < base + 8 * n))).foldl (fun t p =>
    let k := (p.1 - base) / 8
    Tbl.put (fun _ => 0) t k (Tbl.get (fun _ => 0) t k + p.2.toNat * 256 ^ ((p.1 - base) % 8))) []

/-- An output word as the landing reads it (R65). -/
def outWordOf (v : Nat) : Int := satS 40 (toSigned 64 v)

/-- The program crossfade of an engine at sample `m`: position, span and curve (R177). -/
def Engine.crossfade (x : Engine) (nb m : Nat) : Option (Nat × Nat × Nat) :=
  match x.xf with
  | some (n, span, curve) => if n + nb ≤ m ∧ m < n + nb + span then some (m - n - nb + 1, span, curve) else none
  | none => none

/-- The words of the played output block for sample `m` by channel, the two programs of a twin run mixed (R65, R177). -/
def Engine.rowOut (x : Engine) (nb chans m : Nat) : Tbl Int :=
  let row := x.pbase + m % nb * chans * 8
  let a := rowWords x.mem row chans
  match x.crossfade nb m with
  | none => a.map (fun p => (p.1, outWordOf p.2))
  | some (num, den, curve) =>
    let b := rowWords x.kbuf row chans
    let d := shapeDown curve num den
    let u := shapeUp curve num den
    (keysOf a ++ keysOf b).foldl (fun t k =>
      Tbl.put (fun _ => 0) t k (satS 40 (rneShift (outWordOf (Tbl.get (fun _ => 0) a k) * d +
        outWordOf (Tbl.get (fun _ => 0) b k) * u) 96))) []

/-- The words of the played output block that begins at sample `n`, as `fbuf` holds them (R53, R180). -/
def Engine.blockOut (x : Engine) (nb chans n : Nat) : Tbl Int :=
  (List.range nb).foldl (fun t i =>
    (x.rowOut nb chans (n + i)).foldl (fun t p => Tbl.put (fun _ => 0) t (256 * i + p.1) p.2) t) []

/-! Start (R57) -/

/-- The ring descriptors of a START_RING table in DMEM: B0-B7, each BASE then LEN (R388). -/
def Engine.ringTable (x : Engine) (a : Nat) : Tbl Word :=
  (List.range 8).foldl (fun t n =>
    let w (k : Nat) : Word := BitVec.ofNat 32 (leValue (Memory.readBytes x.mem (a + 8 * n + 4 * k) 4))
    Tbl.put (fun _ => 0) (Tbl.put (fun _ => 0) t n (BitVec.ofNat 32 (bitsOf (w 0) 23 0))) (8 + n) (w 1)) []

/-- The engine as a start leaves it (R57): registers zeroed except those that R57 does not name, output blocks empty
(R134), execution at bundle 0 of bank `b`. -/
def Engine.started (x : Engine) (b : Nat) : Engine :=
  let z := ERegs.zero b
  { x with
    r := { z with b := match x.startRing with
                       | some a => x.ringTable a
                       | none => [],
                  ipc := x.r.ipc, iest := x.r.iest, ivb := x.r.ivb, hr := x.r.hr },
    mem := x.mem.filter (fun p => !decide (0x310000 ≤ p.1 ∧ p.1 < 0x320000)),
    hidden := none, kbuf := [], twin := false, bank := b, prog := none, ip := 0, infl := [], curX := [], curY := [],
    mid := false, stall := false, tluBanks := [], adv := [], xst := 0, dly := 0, dtgt := none, setup := 0, skip := none,
    lwin := 0, heldX := [], oldWait := false, waitFor := none, hiddenWait := none, reshaped := false, cyc := 0, work := x.bidx, late := false,
    ended := false, missed := false, play := .zero, fbuf := [], xf := none, clean := true, startReq := none,
    startRing := none, startCmd := none, stopping := none, misSlice := none, idle := false, inDbg := false }

/-- A multi-engine command completes when no engine waits for it any more (R388). -/
def State.groupDone (s : State) (h : Option Nat) (eff : Nat) (waits : Engine → Option Nat) : State :=
  match h with
  | none => s
  | some h => if (List.range 17).any (fun e => waits (s.engOf e) == some h) then s
      else s.finishAt h eff stOk (s.cmdD0 h) 0

/-- The self-test slice of this tick (R87, R88): `bad` is the tile whose signature mismatches. A first mismatch is retried at
the next tick and counts; a second one in a row confirms the fault. -/
def State.selfTest (s : State) (e : Nat) (bad : Option (Fin 4)) : State :=
  let x := s.engOf e
  match bad with
  | none => s.setEng e { x with slice := (x.slice + 1) % 64, misSlice := none }
  | some t =>
    if x.misSlice.isNone then
      let s := (s.bump (ENG_STRETRY_CNT.adr e)).noteErr e 1
      s.setEng e { s.engOf e with misSlice := some t.val }
    else
      let mask := 15 * 2 ^ (4 * t.val)
      let s := s.setEng e { x with slice := (x.slice + 1) % 64, misSlice := none }
      let s := s.setFld (ENG_LFAULT.CONFIRMED e) (Nat.lor (s.fld (ENG_LFAULT.CONFIRMED e)) mask)
      let s := s.raiseN2 0x23 e mask 0
      if s.flag (ENG_CTL.LF_HALT e) then s.haltEng e 3 else s

/-- The self-test slice ends and the block-tick interrupt is asserted, unless the slice halted the engine (R79, R87). -/
def State.testAtTick (s : State) (e : Nat) (bad : Option (Fin 4)) : State :=
  let s := s.selfTest e bad
  if s.engAtRest e then s
  else
    let x := s.engOf e
    s.setEng e { x with ip := x.ip ||| 16 }

/-- ENG_STARTED: at a block tick after the request (R57), which runs the self-test slice before bundle 0: here, or in
BLOCK_TICK when that comes later at this sample, which then finds no block missed. A start begins the self-test with no
mismatch remembered: DESIGN CHOICE (log entry 22). -/
def execEngStarted (e : Eng) (s : State) : Host.Outcome State Fault Refusal :=
  let x := s.engOf e
  .next (match x.startReq with
    | some q =>
      if s.atBoundary && decide (q < s.sidx) && s.engAtRest e then
        let ticked := s.glb.lastBlock == s.sidx
        let t := s.setEng e { x.started (s.fld (ENG_CTL.BANK e)) with ended := !ticked }
        let t := ((t.setFld (ENG_STAT.STATE e) engRunning).setFld (ENG_CTL.RUN e) 0).showPc e
        let t := t.raise 0x29 e (lo32 s.sidx) (hi32 s.sidx)
        let t := if ticked && !isCE e then t.testAtTick e x.testBad else t
        t.groupDone x.startCmd s.sidx (fun y => y.startCmd)
      else s
    | none => s)

/-! Stop (R58, R180) -/

/-- The stop completes: the engine reads STOPPED and its commands complete (R58). -/
def State.stopDone (s : State) (e : Nat) : State :=
  let x := s.engOf e
  match x.stopping with
  | none => s
  | some b =>
    if x.haulBusy ≠ 0 then s
    else
      let t := s.setEng e { x with stopping := none, stopCmd := none, stopReq := none }
      let t := ((t.setFld (ENG_STAT.STATE e) engStopped).setFld (ENG_CTL.STOP e) 0)
      let t := t.raise 0x2A e (lo32 b) (hi32 b)
      match x.stopCmd with
      | none => t
      | some h => if (List.range 17).any (fun k => (t.engOf k).stopCmd == some h) then t
          else t.finish h stOk (t.cmdD0 h) 0

/-- The block that begins to play at sample `n` plays under the fade-out (R53, R58). -/
def Engine.fadeStop (x : Engine) (nb chans n : Nat) : Engine :=
  if x.play == .good || x.play == .fadeIn then { x with play := .fadeOut, fbuf := x.blockOut nb chans n } else x

/-- The engine's execution ends at a boundary: results in flight land (R58, R73). -/
def Engine.endRun (x : Engine) (ce : Bool) : Engine :=
  let x := x.drain ce
  { x with curX := [], curY := [], mid := false, stall := false, tluBanks := [], adv := [], xst := 0, dly := 0,
           dtgt := none, setup := 0, skip := none, lwin := 0, heldX := [], oldWait := false, waitFor := none, hiddenWait := none,
           idle := false, late := false, missed := false }

/-- ENG_STOPPED: at the first block boundary after the request the engine stops executing and its last output block fades out;
it reads STOPPED once its haul transfers have ended (R58). Where BLOCK_TICK has not run yet at this boundary, the fade begins
with it. -/
def execEngStopped (e : Eng) (s : State) : Host.Outcome State Fault Refusal :=
  let x := s.engOf e
  .next (match x.stopping, x.stopReq with
    | some _, _ => s.stopDone e
    | none, some q =>
      if s.atBoundary && decide (q < s.sidx) then
        let t := s.abortProg e
        let y := if s.engState e = engHalted then t.engOf e else (t.engOf e).endRun (isCE e)
        let y := if s.glb.lastBlock = s.sidx ∧ s.engState e ≠ engHalted then
            { y.fadeStop s.nb s.engChans s.sidx with ended := false } else y
        (t.setEng e { y with stopping := some s.sidx }).stopDone e
      else s
    | none, none => s)

/-! Doorbell and host window (R67, R68, R79) -/

/-- ENG_DOORBELL. -/
def State.engDoorbell (s : State) (e : Nat) (v : Word) : State :=
  if isCE e ∧ s.mode ≠ 4 then s
  else
    let x := s.engOf e
    s.setEng e { x with dbell := v, ip := x.ip ||| 128 }

/-- A host write of ENG_DOORBELL. -/
def execEngDoorbell (e : Eng) (v : Word) (s : State) : Host.Outcome State Fault Refusal := .next (s.engDoorbell e v)

/-- Bank `b` of engine `e` is staged for a swap: by a pending or running swap, a scheduled one, or an armed scene (R68,
R190). Once the new program runs alone the old bank is idle (R177). -/
def State.bankStaged (s : State) (e b : Nat) : Bool :=
  ((s.engOf e).prog.any (fun k => !k.alone) || s.scn.sched.any (fun i => i.opcode == 0x0204 && bitsOf (i.args.getD 0 0) 3 0 == e) ||
    s.scn.acts.any (fun a => bitsOf a.w0 31 28 == 3 && bitsOf a.w1 3 0 == e)) && b != (s.engOf e).bank

/-- Bank `b` is executing. -/
def State.bankRuns (s : State) (e b : Nat) : Bool :=
  !s.engAtRest e && (b == (s.engOf e).bank || (s.engOf e).hidden.isSome)

/-- A host write to the memories of an engine window (R67, R68). -/
def State.windowWrite (s : State) (e w : Nat) (v : Word) (be : BitVec 4) : State :=
  let w := w / 4 * 4
  if isCE e ∧ s.mode ≠ 4 then s
  else match s.windowLocal e w with
    | none => s
    | some a =>
      if inKps a then s.kpsWrite e ((a - 0x200000) / 16) ((a - 0x200000) % 16 / 4) v be
      else if w < 0x40000 ∧ (s.bankRuns e (w / 0x20000) ∨ s.bankStaged e (w / 0x20000)) then s.hostRefused e w v
      else
        let x := s.engOf e
        let old : Word := BitVec.ofNat 32 (leValue (Memory.readBytes x.mem a 4))
        s.setEng e { x with mem := Memory.writeBytes x.mem a (leBytes 4 (mergeBytes old v be).toNat) }

/-- ENG_HOST_WINDOW_WRITE. -/
def execEngHostWindowWrite (e : Eng) (w : Fin 0xE0000) (v : Word) (be : BitVec 4) (s : State) :
    Host.Outcome State Fault Refusal := .next (s.windowWrite e w v be)

/-! Program swaps (R91, R92, R176-R180) -/

/-- The condition that refuses a swap (R179). -/
def State.progBad (s : State) (e : Nat) : Option Nat :=
  if (s.engOf e).prog.isSome then some stBusy else if s.engAtRest e then some stWrongMode else none

/-- A swap is pending from boundary `n` on (R176). -/
def State.progRequest (s : State) (e n rounding span curve : Nat) (h : Option Nat) : State :=
  let x := s.engOf e
  let k : ProgKerf :=
    { s := n, rounding := rounding, span := roundUp span s.nb, curve := curve, handle := h, started := false, alone := false }
  (s.setEng e { x with prog := some k }).setFld KRF_TWIN.ENG (Nat.lor (s.fld KRF_TWIN.ENG) (2 ^ e))

/-- Span and curve of a PROG_SWAP (R176, R385). -/
def State.progKerf (s : State) (k : KerfWord) : Nat × Nat := k.withDefault (s.fld KRF_TDEF.SPAN) (s.fld KRF_TDEF.CURVE)

/-- PROG_SWAP once accepted (R176, R179, R199). -/
def State.progSwap (s : State) (c : Ctx) : State :=
  let e := c.abits 0 3 0
  let (span, curve) := s.progKerf (kerfWord (c.arg 1))
  match s.progBad e with
  | some st => s.single c st 0 0
  | none => match c.sched with
    | some b => s.schedule c b
    | none =>
      let n := roundUp (s.sidx + 1) s.nb
      (s.accept c n 0 false 0).progRequest e n (n - (s.sidx + 1)) span curve (some c.handle)

/-- PROG_SWAP. -/
def execProgSwap (src : Fin 128) (tag : Word) (args : List Word) (s : State) : Host.Outcome State Fault Refusal :=
  .next (s.runCmd src.val 0x0204 false tag args State.progSwap)

/-- The engine's program kerf applies now: a plain swap begins the new bank at bundle 0 with every register inherited
(R91); a twin run gets a zeroed context for the new program (R92, R177). -/
def State.progStart (s : State) (e : Nat) (k : ProgKerf) : State :=
  let x := s.engOf e
  let nb := 1 - x.bank
  if k.span = 0 then
    let x := x.drain (isCE e)
    (s.setEng e { x with
      r := { x.r with pc := 16384 * nb }, bank := nb, prog := some { k with s := s.sidx, started := true, alone := true },
      curX := [], curY := [], mid := false, stall := false, tluBanks := [], adv := [], xst := 0, dly := 0, dtgt := none,
      setup := 0, skip := none, lwin := 0, waitFor := none, xf := none }).showPc e
  else
    s.setEng e { x with hidden := some (ERegs.zero nb), hiddenWait := none, kbuf := [], xf := some (s.sidx, k.span, k.curve), prog := some { k with s := s.sidx, started := true } }

/-- PROG_SWAP_APPLY: at its block boundary (R176, R177); an engine that no longer runs ends the swap (R180). -/
def execProgSwapApply (e : Fin 16) (s : State) : Host.Outcome State Fault Refusal :=
  .next (match (s.engOf e).prog with
    | some k =>
      if s.atBoundary && !k.started && decide (k.s ≤ s.sidx) then
        if s.engAtRest e then s.abortProg e else s.progStart e k
      else s
    | none => s)

/-- The program crossfade of engine `e` ends: ENG_SWAPPED, and the swap completes (R177). -/
def State.progDone (s : State) (e : Nat) (k : ProgKerf) : State :=
  let x := s.engOf e
  let s := (s.setEng e { x with prog := none }).setFld KRF_TWIN.ENG
    (s.fld KRF_TWIN.ENG - s.fld KRF_TWIN.ENG / 2 ^ e % 2 * 2 ^ e)
  let s := s.raise 0x25 e (BitVec.ofNat 32 x.bank) (lo32 k.s)
  s.opDone k.handle k.s stOk k.rounding x.bank 0

/-- ENG_SWAPPED: from sample s + NB + S on (R177). -/
def execEngSwapped (e : Fin 16) (s : State) : Host.Outcome State Fault Refusal :=
  .next (match (s.engOf e).prog with
    | some k => if k.alone && decide (k.s + s.nb + k.span ≤ s.sidx) then s.progDone e k else s
    | none => s)

/-! The block tick (R40, R53, R54, R64, R76, R84, R87, R88, R114, R177) -/

/-- Staged ring and haul-ring writes take effect (R76, R84). -/
def ERegs.commitRings (r : ERegs) : ERegs :=
  let r := r.bStg.foldl (fun (r : ERegs) p =>
    if p.1 < 0x28 then { r with b := Tbl.put (fun _ => 0) r.b (p.1 - 0x18) p.2 }
    else { r with hr := Tbl.put (fun _ => 0) r.hr (p.1 - 0x28) p.2 }) r
  { r with bStg := [] }

/-- What the landing plays from the tick at sample `t` on (R53, R54, R58, R180): `done` when the block just ended has its
marker; without it the block played until now is repeated under the fade-out. -/
def Engine.nextPlay (x : Engine) (done : Bool) (nb chans t : Nat) : Engine :=
  if done then { x with play := if x.clean then .good else .fadeIn, clean := true, fbuf := [] }
  else if x.play == .good || x.play == .fadeIn then { x with play := .fadeOut, fbuf := x.blockOut nb chans (t - nb) }
  else { x with play := .zero, fbuf := [] }

/-- The other block of an input or output pair. -/
def otherBlk (a : Nat) : Nat := if a % 0x10000 = 0 then a + 0x8000 else a - 0x8000

/-- The blocks change roles at sample `t` (R64), after the play state is chosen. -/
def Engine.swapBlocks (x : Engine) (t nb : Nat) : Engine :=
  { x with pbase := x.ocur, ocur := otherBlk x.ocur, icur := otherBlk x.icur, bidx := t - nb }

/-- The engine part of the block tick at sample `t` for an engine that executes (`live`) or not. KGET advances of a bundle
still in issue belong to the block that ends (R114). -/
def Engine.tick (x : Engine) (t nb chans : Nat) (live : Bool) : Engine :=
  let ok := x.ended
  let miss := live && !ok
  let x : Engine := { x.adv.foldl Engine.advanceKps x with adv := [] }
  let x := (x.nextPlay ok nb chans t).swapBlocks t nb
  let x := if x.stopping = some t then x.fadeStop nb chans t else x
  let x := { x with r := x.r.commitRings, hidden := x.hidden.map ERegs.commitRings, reshaped := false, cyc := 0,
                    ended := false, clean := if live then ok else x.clean,
                    work := if ok || !live then t - nb else x.work, late := miss, missed := miss,
                    xf := x.xf.filter (fun (f : Nat × Nat × Nat) => decide (t < f.1 + nb + f.2.1)) }
  x.rewriteKps nb

/-- A program kerf's last block has been run: the new program stays, alone (R177). -/
def Engine.toAlone (x : Engine) (ce : Bool) (k : ProgKerf) : Engine :=
  if x.twin then { x with hidden := none, hiddenWait := none, twin := false, prog := some { k with alone := true } }
  else
    let x := x.drain ce
    { x with r := x.hidden.getD x.r, hidden := none, bank := 1 - x.bank, prog := some { k with alone := true }, curX := [],
             curY := [], mid := false, stall := false, tluBanks := [], adv := [], xst := 0, dly := 0, dtgt := none,
             setup := 0, skip := none, lwin := 0, waitFor := x.hiddenWait, hiddenWait := none, heldX := [], oldWait := false }

/-- A sleeping WAIT whose tick has come completes (R130). -/
def State.wake (s : State) (e : Nat) : State :=
  let x := s.engOf e
  if s.engState e = engWaiting then
    ((s.setEng e { x with waitFor := none }).endBundle e).setFld (ENG_STAT.STATE e) engRunning
  else s

/-- Engine `e` at a block tick. -/
def State.engTick (s : State) (bad : Option (Fin 4)) (e : Nat) : State :=
  let live := !s.engAtRest e && (s.engOf e).stopping.isNone
  let s := s.setEng e { (s.engOf e).tick s.sidx s.nb s.engChans live with testBad := bad }
  if !live then s
  else
    let s := s.wake e
    let x := s.engOf e
    let s := s.setEng e { x with cyc := 0 }
    let s := match x.prog with
      | some k =>
        if k.started && !k.alone && decide (k.s + k.span ≤ s.sidx) then
          ((s.setEng e ((s.engOf e).toAlone (isCE e) k)).setFld (ENG_STAT.STATE e) engRunning).showPc e
        else s
      | none => s
    s.testAtTick e bad

/-- The control engine at a block tick: its staged rings, a WAIT it sleeps in, and the cycles of ENG_CYC (R68, R86). -/
def State.ceTick (s : State) : State :=
  let x := s.engOf 16
  let s := (s.setEng 16 { x with r := x.r.commitRings, reshaped := false, bidx := s.sidx - s.nb, ended := false }).wake 16
  s.setEng 16 { s.engOf 16 with cyc := 0 }

/-- DEADLINE_OVERRUN (R53, R55, R90): ENG_OVERRUN with the first sample of the block that is late, the counter, and the
interrupt when it is enabled. -/
def execDeadlineOverrun (e : Fin 16) (s : State) : Host.Outcome State Fault Refusal :=
  let x := s.engOf e
  .next (if x.missed then
    let n := x.bidx - s.nb
    let t := s.setEng e { x with missed := false, ip := if bitOf x.r.ectl 10 then x.ip ||| 4 else x.ip }
    (t.raise 0x21 e (lo32 n) (hi32 n)).bump (ENG_OVR_CNT.adr e)
  else s)

end Sys2Proof.Machine
end

