-- ==== Sys2Proof/Machine/LndBase.lean ====
section
/-! DEFINITION. The landing: addresses, refusals, tone and noise generators, source words and sink words (R141-R144,
R148, R155-R158). -/

namespace Sys2Proof.Machine

/-! Addresses (R141, R142) -/

/-- The address of silence. -/
def silence : Nat := 0x7FFF

/-- An address that both spaces list. -/
def lndCommon (a : Nat) : Bool :=
  a ≤ 0x3FF || (0x1000 ≤ a && a ≤ 0x5FFF) || (0x6000 ≤ a && a ≤ 0x63FF)

/-- The cause that refuses an address of the source or sink space at `nb` channels per engine and rate `rate`: 1 reserved,
2 absent, 0 none (R142). -/
def addrCauseAt (chans rate : Nat) (sink : Bool) (a : Nat) : Nat :=
  let listed := lndCommon a || (if sink then 0x7000 ≤ a && a ≤ 0x7007 else (0x7000 ≤ a && a ≤ 0x700F) || a == silence)
  if !listed then 1
  else if 0x1000 ≤ a ∧ a < 0x2000 ∧ chans ≤ a % 256 then 2
  else if 0x3000 ≤ a ∧ a < 0x4000 ∧ 4 ≤ rate then 2
  else 0

/-- The cause that refuses an address now. -/
def State.addrCause (s : State) (sink : Bool) (a : Nat) : Nat := addrCauseAt s.engChans (s.fld GLB_RATE.RATE) sink a

/-- A refusal of the landing, the kerf unit or the scene buffers: LND_REFUSE, its counter and LND_WRITE_REFUSED (R148,
R158, R159). -/
def State.lndRefuse (s : State) (table cause index : Nat) : State :=
  let w : Word := BitVec.ofNat 32 (table * 2 ^ 30 + cause * 2 ^ 24 + index % 65536)
  ((s.setReg LND_REFUSE.adr w).bump LND_REFUSE_CNT.adr).raise 0x40 0 w 0

/-! Generators (R155-R157) -/

/-- The state of generator `n` beside its registers. -/
def State.genOf (s : State) (n : Nat) : GenSt := Tbl.get (fun _ => GenSt.reset) s.lnd.gens n
def State.setGen (s : State) (n : Nat) (g : GenSt) : State :=
  { s with lnd := { s.lnd with gens := Tbl.put (fun _ => GenSt.reset) s.lnd.gens n g } }

/-- The phase increment of a sine of `freq` hundredths of a hertz (R155). -/
def genInc (freq fs : Nat) : Nat := (rneDiv ((freq * 2 ^ 32 : Nat) : Int) (100 * fs)).toNat

/-- sin(2 pi ph / 2^32) in fixed point. -/
def sinPhase (ph : Nat) : Int :=
  let a := fxHalfPi * ((ph % 2 ^ 30 : Nat) : Int) / ((2 ^ 30 : Nat) : Int)
  match ph % 2 ^ 32 / 2 ^ 30 with
  | 0 => fxSin a
  | 1 => fxSin (fxHalfPi - a)
  | 2 => -(fxSin a)
  | _ => -(fxSin (fxHalfPi - a))

/-- The sum of the words times taps with 31 fraction bits, rounded (R45). -/
def tapSum (tap : Nat → Int) (ws : List Int) : Int :=
  rneShift (((List.range ws.length).zip ws).foldl (fun a p => a + tap p.1 * p.2) 0) 31

/-- The 4x oversampled magnitude over the interval that ends at word `j` of `xs`, the newest word first; the word four places
later is the last one it needs (R152, R212). The interpolator is linear with the free taps of Config, 12 for each of its four
phases, and the word itself is one of its points: DESIGN CHOICE (log entry 40). -/
def truePeak (xs : List Int) (j : Nat) : Nat :=
  (List.range 4).foldl (fun m p => max m (tapSum (Config.freePeakTap p) ((xs.drop (j - 4)).take 12)).natAbs) (xs.getD j 0).natAbs

/-- The white noise word w(n) of a seed, in units of 2^-31 (R155). -/
def whiteWord (seed n : Nat) : Int :=
  let m := 2 ^ 64
  let z := (n + seed * 0x9E3779B97F4A7C15) % m
  let z := Nat.xor z (z / 2 ^ 30) * 0xBF58476D1CE4E5B9 % m
  let z := Nat.xor z (z / 2 ^ 27) * 0x94D049BB133111EB % m
  let z := Nat.xor z (z / 2 ^ 31)
  toSigned 32 (z / 2 ^ 32)

/-- The pink noise of a seed at sample `m`, the filter having started from zero state at sample `t`: the white words through a
fixed filter of one second's length, so that two generators with one seed agree one second after the later start (R155). The
taps are free values; the length is a DESIGN CHOICE (log entry 31). -/
def pinkWord (seed t fs m : Nat) : Int :=
  tapSum Config.freePinkTap ((List.range (min (m + 1 - t) fs)).map (fun i => whiteWord seed (m - i)))

/-- The settings in force of generator `n`. -/
def State.genSet (s : State) (n : Nat) : GenSet :=
  { type := s.fld (LND_GEN_CTL.TYPE n), phlock := s.flag (LND_GEN_CTL.PHLOCK n), freq := s.fld (LND_GEN_FREQ.FREQ n),
    seed := s.fld (LND_GEN_SEED.SEED n), pinkAt := (s.genOf n).pinkAt }

/-- The phase of settings at sample `m`, `ph` being the running phase. -/
def GenSet.phase (g : GenSet) (ph fs m : Nat) : Nat := if g.phlock then genInc g.freq fs * m % 2 ^ 32 else ph

/-- The unscaled output of settings at sample `m`, in fixed point. -/
def GenSet.out (g : GenSet) (ph fs m : Nat) : Int :=
  if g.type = 1 then sinPhase (g.phase ph fs m)
  else if g.type = 2 then whiteWord g.seed m * ((2 ^ 65 : Nat) : Int)
  else if g.type = 3 then satS 32 (pinkWord g.seed g.pinkAt fs m) * ((2 ^ 65 : Nat) : Int)
  else 0

/-- The settings that sound at sample `m`: the old ones in the first half of a transition (R156). -/
def GenSt.sounding (g : GenSt) (cur : GenSet) (m : Nat) : GenSet :=
  match g.transAt, g.old with
  | some t, some o => if m - t < 240 then o else cur
  | _, _ => cur

/-- The LEVEL factor at sample `m`, with 124 fraction bits: a DBL ramp over 480 samples (R156). -/
def GenSt.factor (g : GenSt) (level m : Nat) : Int :=
  match g.rampAt with
  | some t => if m - t < 479 then dblValue (gainQ428 g.rampFrom) (gainQ428 level) 28 (m - t + 1) 480
      else ((gainQ428 level : Nat) : Int) * fx1
  | none => ((gainQ428 level : Nat) : Int) * fx1

/-- The fade of a transition at sample `m`, in 240ths (R156). -/
def GenSt.fade (g : GenSt) (m : Nat) : Nat :=
  match g.transAt with
  | some t => if m - t < 240 then 239 - (m - t) else min 240 (m - t - 239)
  | none => 240

/-- The output of generator `n` for sample `m` (R155, R156). -/
def State.genWord (s : State) (n m : Nat) : Int :=
  let g := s.genOf n
  let c := g.sounding (s.genSet n) m
  let v := c.out g.ph s.fs m
  if c.type = 0 then 0
  else satS 32 (rneDiv (g.factor (s.fld (LND_GEN_LEVEL.LEVEL n)) m * v * ((g.fade m : Nat) : Int)) (240 * 2 ^ 189))

/-- The running phase after sample `m` (R155). -/
def State.genStep (s : State) (m n : Nat) : State :=
  let g := s.genOf n
  let c := g.sounding (s.genSet n) m
  s.setGen n { g with ph := (c.phase g.ph s.fs m + genInc c.freq s.fs) % 2 ^ 32 }

/-- Every generator steps on from sample `m`; a generator that has never been set keeps phase 0 until it is. -/
def State.gensStep (s : State) (m : Nat) : State := (List.range 16).foldl (fun s n => s.genStep m n) s

/-! Source words (R53, R54, R142, R143, R177) -/

/-- The output words of an engine for sample `m` by channel, zeros left out (R53, R54, R65, R177). -/
def Engine.outWords (x : Engine) (nb chans m : Nat) : Tbl Int :=
  if x.play == .zero then []
  else
    let i := m % nb
    let row : Tbl Int := if x.play == .fadeOut then
        (x.fbuf.filter (fun p => p.1 / 256 == i)).map (fun p => (p.1 % 256, p.2)) else x.rowOut nb chans m
    let num : Nat := match x.play with
      | .fadeIn => i + 1
      | .fadeOut => nb - 1 - i
      | _ => nb
    row.map (fun p => (p.1, satS 40 (rneDiv (p.2 * ((num : Nat) : Int)) nb)))

/-- The word in a table of words; unlisted words are 0. -/
def wordOf (t : Tbl Int) (a : Nat) : Int := Tbl.get (fun _ => 0) t a

/-- Puts words into a table at an offset. -/
def putWords (t : Tbl Int) (base : Nat) (l : Tbl Int) : Tbl Int :=
  l.foldl (fun t p => Tbl.put (fun _ => 0) t (base + p.1) p.2) t

/-- Every source word of sample `m`, `ext` being those that come from outside the landing (R143). -/
def State.sourceWords (s : State) (ext : Tbl Int) (m : Nat) : Tbl Int :=
  let t := (keysOf s.eng).foldl (fun t e =>
    if e < 16 then putWords t (0x1000 + 256 * e) ((s.engOf e).outWords s.nb s.engChans m) else t) ext
  (List.range 16).foldl (fun t n => Tbl.put (fun _ => 0) t (0x7000 + n) (s.genWord n m)) t

/-- The words waiting to be source words of sample `k`. -/
def State.inboxAt (s : State) (k : Nat) : Tbl Int := Tbl.get (fun _ => []) s.str.inbox k

/-- A word that is to be the source word of address `a` for sample `k`. -/
def State.deliver (s : State) (k a : Nat) (w : Int) : State :=
  let t := Tbl.put (fun _ => 0) (s.inboxAt k) a w
  { s with str := { s.str with inbox := Tbl.put (fun _ => []) s.str.inbox k t } }

/-! Sink words (R133, R144, R170) -/

/-- The other block of the pair that the landing fills: the one ICUR does not name, or before the block tick has swapped
them the one it still names (R64). -/
def State.fillBlk (s : State) (x : Engine) : Nat :=
  if s.atBoundary ∧ s.glb.lastBlock ≠ s.sidx then x.icur else otherBlk x.icur

/-- Writes one word of the row that the landing fills. -/
def State.inputWord (s : State) (e ch : Nat) (w : Int) : State :=
  let x := s.engOf e
  let a := s.fillBlk x + (s.sidx % s.nb * s.engChans + ch) * 8
  s.setEng e { x with mem := Memory.writeBytes x.mem a (leBytes 8 (ofSigned 64 w)) }

/-- A sink receives a word for the current sample; an engine input goes into the block the landing fills. -/
def State.setSink (s : State) (a : Nat) (w : Int) : State :=
  let s := { s with lnd := { s.lnd with snk := Tbl.put (fun _ => 0) s.lnd.snk a w } }
  if 0x1000 ≤ a ∧ a < 0x2000 then s.inputWord ((a - 0x1000) / 256) (a % 256) w else s

/-- The row of sample `sidx` of every input block cleared (R133). -/
def State.clearRows (s : State) : State :=
  (keysOf s.eng).foldl (fun s e =>
    if e < 16 then
      let x := s.engOf e
      let a := s.fillBlk x + s.sidx % s.nb * s.engChans * 8
      s.setEng e { x with mem := x.mem.filter (fun p => !decide (a ≤ p.1 ∧ p.1 < a + 8 * s.engChans)) }
    else s) s

end Sys2Proof.Machine
end

