-- ==== Sys2Proof/Machine/Output.lean ====
section
/-! DEFINITION. The output stage: limiters, conversion, mutes and side-tone contributions (R47, R209-R217). -/

namespace Sys2Proof.Machine

/-! Fades -/

/-- The gain of a fade at sample `n`, in fixed point (R162). -/
def Fade.gain (f : Fade) (n : Nat) : Int :=
  if n < f.at_ then f.from_
  else
    let i := n - f.at_ + 1
    if f.span ≤ i then (if f.on then fx1 else 0)
    else fxMul f.from_ (shapeDown f.curve i f.span) + (if f.on then shapeUp f.curve i f.span else 0)

/-- The fade is over by sample `n`. -/
def Fade.still (f : Fade) (n : Nat) : Bool := f.span == 0 || decide (f.at_ + f.span ≤ n)

/-- The fade turned towards `on` from sample `n` over `span` samples. -/
def Fade.turn (f : Fade) (on : Bool) (n span curve : Nat) : Fade :=
  if span = 0 then ⟨on, n, 0, 0, 0⟩ else ⟨on, n, span, curve, f.gain (n - 1)⟩

/-- TDM and network transmit sinks carry audio in this mode (R20, R216, R347). -/
def State.audible (s : State) (mode : Nat) : Bool :=
  mode == 2 || mode == 3 || (mode == 4 && !s.flag OUT_XMUTE.SVC)

/-- The gain of the mutes at TDM and network sinks, at TDM sinks alone, at raft add channels and relay contributions, and at DACs,
for the current sample. -/
def State.muteGain (s : State) : Int :=
  fxMul (fxMul (s.out.mode.gain s.sidx) (s.out.brace.gain s.sidx)) (fxMul (s.out.clk.gain s.sidx) (s.out.cold.gain s.sidx))
def State.tdmGain (s : State) : Int := fxMul s.muteGain (s.out.hot.gain s.sidx)
def State.carryGain (s : State) : Int := fxMul (s.out.cold.gain s.sidx) (s.out.safe.gain s.sidx)
def State.dacGain (s : State) : Int := s.out.cold.gain s.sidx

/-- The mutes of a sink (R216). -/
def State.sinkGain (s : State) (a : Nat) : Int :=
  if a < 0x400 then s.tdmGain else if a < 0x4000 then s.muteGain else if a < 0x7000 then s.carryGain else s.dacGain

/-! Sinks (R209) -/

/-- An output sink: every listed sink but the engine inputs. -/
def isOutSink (a : Nat) : Bool := (lndCommon a && !(0x1000 ≤ a && a < 0x2000)) || (0x7000 ≤ a && a ≤ 0x7007)

/-- Bits of the word after conversion (R209): 40 where none takes place. -/
def State.sinkBits (s : State) (a : Nat) : Nat :=
  if a < 0x400 then (if s.fld (TDM_XCTL.WIDTH (a / 32)) = 2 then 32 else 24)
  else if a < 0x4000 then 24 else if a < 0x7000 then 40 else 24

/-- The pegging counter of a sink (R209, R221). -/
def sinkCounter (a : Nat) : Option Nat :=
  if a < 0x400 then some a else if 0x2000 ≤ a ∧ a < 0x4000 then some (1024 + (a - 0x2000))
  else if 0x7000 ≤ a ∧ a ≤ 0x7007 then some (9216 + (a - 0x7000)) else none

/-- `num / den` in units of 2^-31 converted to `bits` bits: nearest, ties to even, saturating (R45, R47); with the
saturation. -/
def toBits (bits : Nat) (num : Int) (den : Nat) : Int × Bool :=
  let k := 32 - bits
  let r := rneDiv num (den * 2 ^ k)
  (satS bits r * ((2 ^ k : Nat) : Int), r != satS bits r)

/-! Limiters (R211-R213) -/

/-- Limiter `k` beside its registers. -/
def State.limOf (s : State) (k : Nat) : LimSt := Tbl.get (fun _ => LimSt.reset) s.out.lims k
def State.setLim (s : State) (k : Nat) (l : LimSt) : State :=
  { s with out := { s.out with lims := Tbl.put (fun _ => LimSt.reset) s.out.lims k l } }

/-- Limiters that act: enabled, or in the crossfade of R214. -/
def State.liveLims (s : State) : List Nat :=
  (s.regs.filterMap (fun p =>
    if 0x390000 ≤ p.1 ∧ p.1 < 0x394000 ∧ p.1 % 16 = 0 ∧ (bitOf p.2 31 || !(s.limOf ((p.1 - 0x390000) / 16)).xf.isEmpty) then
      some ((p.1 - 0x390000) / 16) else none))

/-- The limiter that acts on a sink. -/
def State.limAt (s : State) (a : Nat) : Option Nat := s.liveLims.find? (fun k => s.fld (OUT_LIM.SINK k) == a)

/-- The landing's words of a sink, the current sample first. -/
def State.sinkHist (s : State) (a : Nat) : List Int := wordOf s.lnd.snk a :: s.out.hist.map (fun t => wordOf t a)

/-- Detector lead and attack span for look-ahead `la` (R212). -/
def limLead (la : Nat) : Nat := if 4 ≤ la then 4 else 0
def limAttack (la : Nat) : Nat := la - limLead la + 1

/-- The peak p(m) for m = n - j (R212). -/
def limPeak (la : Nat) (xs : List Int) (j : Nat) : Nat := if 4 ≤ la then truePeak xs j else (xs.getD j 0).natAbs

/-- rdb: the reduction in dB that a peak asks for under ceiling -CEIL / 10 dBFS, 0 or negative (R212). -/
def limNeed (ceil p : Nat) : Int :=
  if p = 0 then 0 else min 0 (-(((ceil : Nat) : Int) * fx1 / 10) - 20 * fxLn p (2 ^ 31) * fx1 / fxLn10)

/-- The lowest of the bounds that the known peaks set for the current sample (R212). -/
def limBound (la ceil : Nat) (xs : List Int) : Int :=
  let a := limAttack la
  (List.range a).foldl (fun b d => min b (limNeed ceil (limPeak la xs (la - d)) * ((a - d : Nat) : Int) / ((a : Nat) : Int))) 0

/-- The bound of limiter `k` under look-ahead `la`. -/
def State.limBoundOf (s : State) (la k : Nat) : Int :=
  limBound la (s.fld (OUT_LIM.CEIL k)) (s.sinkHist (s.fld (OUT_LIM.SINK k)))

/-- The leader of limiter `k`'s group, and the group (R213). -/
def State.limLeader (s : State) (k : Nat) : Nat := if s.flag (OUT_LIM.LINKED k) then s.fld (OUT_LIM.LEAD k) else k
def State.limGroup (s : State) (k : Nat) : List Nat :=
  if s.flag (OUT_LIM.LINKED k) then
    s.liveLims.filter (fun j => s.flag (OUT_LIM.EN j) && s.flag (OUT_LIM.LINKED j) && s.fld (OUT_LIM.LEAD j) == s.limLeader k)
  else [k]

/-- The gain in dB of limiter `k` under look-ahead `la` at the current sample, `prev` being that of the sample before: the
group's lowest bound, and its leader's release (R212, R213). -/
def State.limGdbFrom (s : State) (k la : Nat) (prev : Int) : Int :=
  let rel := fxMul prev (fxExp (-(1000 * fx1 / (((s.fld (OUT_LIM.REL (s.limLeader k)) * s.fs : Nat) : Int)))))
  min 0 ((s.limGroup k).foldl (fun b j => min b (s.limBoundOf la j)) (min rel (s.limBoundOf la k)))

/-- The gain in dB of limiter `k` at the current sample: a group shares its leader's release state (R213). -/
def State.limGdb (s : State) (k : Nat) : Int := s.limGdbFrom k (s.fld (OUT_LIM.LA k)) (s.limOf (s.limLeader k)).gdb

/-- The output y(n) = g(n) x(n - LA) of settings, in units of 2^-31 / 2^96; a limiter that is not enabled passes x(n) (R211). -/
def limApplied (xs : List Int) (en : Bool) (la : Nat) (gdb : Int) : Int :=
  if en then fxExp (gdb * fxLn10 / (20 * fx1)) * xs.getD la 0 else fx1 * xs.getD 0 0

/-- Crossfades one after the other at sample `n`, under LIN over 64 samples each: `acc` is what the first one leaves, over its
denominator, and the list the start of each with the output it leads to. -/
def limMix (n : Nat) (acc : Int × Nat) : List (Nat × Int) → Int × Nat
  | [] => acc
  | (t, y) :: l =>
    let i := min 64 (n - t + 1)
    limMix n (acc.1 * ((64 - i : Nat) : Int) + y * ((i * acc.2 : Nat) : Int), acc.2 * 64) l

/-- The output of limiter `k` for the current sample before conversion, in units of 2^-31 / 2^96, over its denominator (R211,
R214). -/
def State.limOut (s : State) (k : Nat) : Int × Nat :=
  let xs := s.sinkHist (s.fld (OUT_LIM.SINK k))
  let new := limApplied xs (s.flag (OUT_LIM.EN k)) (s.fld (OUT_LIM.LA k)) (s.limGdb k)
  let xf := (s.limOf k).xf
  let ys := xf.map (fun o => limApplied xs o.en o.la (s.limGdbFrom k o.la o.gdb)) ++ [new]
  limMix s.sidx (ys.headD 0, 1) ((xf.map (fun o => o.at_)).zip ys.tail)

/-- Limiter `k` after the current sample: the gains have stepped on, and the largest reduction is kept (R212). -/
def State.limStep (s : State) (k : Nat) : LimSt :=
  let l := s.limOf k
  let g := s.limGdb k
  { gdb := g, gr := max l.gr (-g), xf := l.xf.map (fun o => { o with gdb := s.limGdbFrom k o.la o.gdb }) }

/-! Side-tone contributions (R217, R218) -/

/-- Path `n` beside its registers. -/
def State.pathOf (s : State) (n : Nat) : PathSt := Tbl.get (fun _ => PathSt.reset) s.out.paths n
def State.setPath (s : State) (n : Nat) (p : PathSt) : State :=
  { s with out := { s.out with paths := Tbl.put (fun _ => PathSt.reset) s.out.paths n p } }

/-- A port beside its registers. -/
def State.tdmOf (s : State) (p : Nat) : TdmSt := Tbl.get (fun _ => TdmSt.reset) s.str.tdm p
def State.setTdm (s : State) (p : Nat) (x : TdmSt) : State :=
  { s with str := { s.str with tdm := Tbl.put (fun _ => TdmSt.reset) s.str.tdm p x } }

/-- The sink of a path's destination: a DAC or a TDM transmit slot. -/
def pathSink (w : Word) : Nat := if bitOf w 28 then 0x7000 + bitsOf w 20 18 else bitsOf w 27 18

/-- The destination carries audio (R216). -/
def State.pathCarries (s : State) (w : Word) : Bool :=
  if bitOf w 28 then s.mode == 2 || s.mode == 4 else s.audible s.mode && (s.mode != 3 || s.flag PAIR_XCFG.TDMDRV)

/-- Path `n` adds to its destination (R216, R218). -/
def State.pathRuns (s : State) (n : Nat) : Bool :=
  s.flag (ST_XPATH.EN n) && (s.pathOf n).up && s.pathCarries (s.pathOf n).heard

/-- The pole of the side-tone high-pass, whose corner lies within 5 % of 2.0 Hz (R217). The form (1 - 1/z) (1 + a) / 2 / (1 - a/z)
of the first-order filter is a DESIGN CHOICE (log entry 41). -/
def hpfPole (fs : Nat) : Int :=
  fxExp (-(4 * fxHalfPi * ((1900 + Config.freeHpfCorner fs % 201 : Nat) : Int) / ((1000 * fs : Nat) : Int)))

/-- Where the words of a port's slots wait for the side-tone paths. -/
def sideKey (p slot : Nat) : Nat := 0x200000 + 32 * p + slot

/-- The source word of path `n` for the current sample: that of the frame assigned to it (R217, R219, R234). -/
def State.pathIn (s : State) (n : Nat) : Int :=
  wordOf (s.inboxAt s.sidx) (sideKey (bitsOf (s.pathOf n).heard 17 13) (bitsOf (s.pathOf n).heard 12 8))

/-- The word after the high-pass, where it is in circuit, with 32 fraction bits more. -/
def State.pathFiltered (s : State) (n : Nat) : Int :=
  let p := s.pathOf n
  let x := s.pathIn n
  let a := hpfPole s.fs
  if bitOf p.heard 29 then fxMul ((fx1 + a) / 2) ((x - p.hx) * ((2 ^ 32 : Nat) : Int)) + fxMul a p.hy else x * ((2 ^ 32 : Nat) : Int)

/-- What path `n` adds to the current sample, in units of 2^-31 / 2^60. -/
def State.pathAdd (s : State) (n : Nat) : Int :=
  if s.pathRuns n then ((s.pathOf n).kerf.valueAt s.sidx).toInt * s.pathFiltered n else 0

/-- The high-pass of path `n` steps on. -/
def State.pathStep (s : State) (n : Nat) : PathSt := { s.pathOf n with hx := s.pathIn n, hy := s.pathFiltered n }

/-- Paths that add to a sink; to a DAC only in row 5 of R419 (R216, R217). -/
def State.pathsTo (s : State) (a : Nat) : List Nat :=
  if 0x7000 ≤ a ∧ s.dacRow (a - 0x7000) ≠ 5 then []
  else (keysOf s.out.paths).filter (fun n => s.flag (ST_XPATH.EN n) && pathSink (s.pathOf n).heard == a)

/-! Output words -/

/-- The word of an output sink for the current sample: after the limiter and conversion, after the mutes, and after the
side-tone (R209-R217); with saturation in conversion, and the paths whose sum saturated. -/
structure OutWord where
  /-- After the limiter and conversion: what the pair digests take (R352). -/
  conv : Int
  sat : Bool
  word : Int
  paths : List Nat

/-- Adds the paths of a sink: the sum is rounded and saturated once, and its saturation counts for every path that adds (R217;
the last is a DESIGN CHOICE, log entry 41). -/
def State.addPaths (s : State) (bits : Nat) (l : List Nat) (w : Int) : Int × List Nat :=
  let (v, b) := toBits bits (l.foldl (fun t n => t + s.pathAdd n) (w * ((2 ^ 60 : Nat) : Int))) (2 ^ 60)
  (v, if b then l.filter s.pathRuns else [])

/-- The word of output sink `a` for the current sample. -/
def State.outWord (s : State) (a : Nat) : OutWord :=
  let bits := s.sinkBits a
  let (y, sat) : Int × Bool := match s.limAt a with
    | some k => toBits bits (s.limOut k).1 ((s.limOut k).2 * 2 ^ 96)
    | none => toBits bits (wordOf s.lnd.snk a) 1
  let m := (toBits bits (y * s.sinkGain a) (2 ^ 96)).1
  let (w, ps) := s.addPaths bits (s.pathsTo a) m
  { conv := y, sat := sat, word := w, paths := ps }

/-- Output sinks with anything to carry: a word, a limiter or a side-tone path. -/
def State.outSinks (s : State) : List Nat :=
  let l := (keysOf s.lnd.snk).filter isOutSink ++ s.liveLims.map (fun k => s.fld (OUT_LIM.SINK k)) ++
    (keysOf s.out.paths).map (fun n => pathSink (s.pathOf n).heard)
  l.foldl (fun acc a => if a ∈ acc then acc else acc ++ [a]) []

/-- A saturation in conversion at a sink without an enabled limiter (R210). -/
def State.countSat (s : State) (a : Nat) : State :=
  match sinkCounter a with
  | none => s
  | some j =>
    if (s.limAt a).any (fun k => s.flag (OUT_LIM.EN k)) then s
    else
      let first := s.reg (OUT_SATCNT.adr j) == 0
      let s := s.bump (OUT_SATCNT.adr j)
      if first then s.raiseN2 0x4A 0 a 0 else s

/-- The sample ends: output words are kept, saturations counted, limiters and side-tone filters step on, and the sink words join
the history. -/
def State.outputsClose (s : State) : State :=
  let l := s.outSinks.map (fun a => (a, s.outWord a))
  let words := l.foldl (fun t p => Tbl.put (fun _ => 0) t p.1 p.2.word) []
  let ls := s.liveLims.map (fun k => (k, s.limStep k))
  let ps := (keysOf s.out.paths).map (fun n => (n, s.pathStep n))
  let t := l.foldl (fun t p => if p.2.sat then t.countSat p.1 else t) s
  let t := l.foldl (fun t p => p.2.paths.foldl (fun t n => t.bump (ST_SAT.adr n)) t) t
  let t := ls.foldl (fun t p => t.setLim p.1 p.2) t
  let t := ps.foldl (fun t p => t.setPath p.1 p.2) t
  let dacs := words.filter (fun p => decide (0x7000 ≤ p.1 ∧ p.1 < 0x7008))
  { t with out := { t.out with words := words, hist := (s.lnd.snk :: s.out.hist).take 80 }
           dac := { t.dac with words := (dacs :: t.dac.words).take 56 } }

/-- The mode mute follows the mode in force (R22, R216). -/
def State.muteCheck (s : State) : State :=
  let on := s.audible s.mode
  if on == s.out.mode.on then s
  else { s with out := { s.out with mode := s.out.mode.turn on s.sidx 64 curveEqp } }

/-- The output stage at a block tick: gain reduction under OUT_GRSEQ (R153), and the mode mute. -/
def State.outputsTick (s : State) : State :=
  let s := s.setReg OUT_GRSEQ.adr (s.reg OUT_GRSEQ.adr + 1)
  let ls := s.liveLims
  let s := ls.foldl (fun s k =>
    (s.setFld (OUT_LIMST.GR k) (min 65535 (rneDiv ((s.limOf k).gr * 100) (2 ^ 96)).toNat)).setLim k { s.limOf k with gr := 0 }) s
  let s := s.setFld OUT_STAT.REDUCING (ls.filter (fun k => s.fld (OUT_LIMST.GR k) != 0)).length
  (s.setReg OUT_GRSEQ.adr (s.reg OUT_GRSEQ.adr + 1)).muteCheck

end Sys2Proof.Machine
end

