-- ==== Sys2Proof/Machine/OutCmd.lean ====
section
/-! DEFINITION. Commands of the limiters and the side-tone paths (R213-R220). -/

namespace Sys2Proof.Machine

/-- A refusal of the output stage (R215, R220, R221). -/
def State.outRefuse (s : State) (table cause index : Nat) : State :=
  let w : Word := BitVec.ofNat 32 (table * 2 ^ 30 + cause * 2 ^ 24 + index % 65536)
  ((s.setReg OUT_REFUSE.adr w).bump OUT_REFUSE_CNT.adr).raise 0x49 0 w 0

/-! Limiters (R213-R215) -/

/-- Fields of a limiter entry as last written. -/
structure LimCfg where
  en : Bool
  sink : Nat
  la : Nat
  ceil : Nat
  linked : Bool
  lead : Nat
  rel : Nat
  deriving DecidableEq, Repr

/-- The fields of two words. -/
def limCfg (w0 w1 : Word) : LimCfg :=
  ⟨bitOf w0 31, bitsOf w0 30 16, bitsOf w0 14 8, bitsOf w0 7 0, bitOf w1 31, bitsOf w1 25 16, bitsOf w1 10 0⟩

/-- The entry of limiter `k` as last written, and as in force. -/
def State.limWritten (s : State) (k : Nat) : LimCfg := limCfg (s.written (OUT_LIM.adr k)) (s.written (OUT_LIM.adr k + 4))
def State.limNow (s : State) (k : Nat) : LimCfg := limCfg (s.reg (OUT_LIM.adr k)) (s.reg (OUT_LIM.adr k + 4))

/-- Limiters with anything written or in force. -/
def State.limKeys (s : State) : List Nat :=
  ((keysOf s.regs ++ keysOf s.stg).filterMap (fun a =>
    if 0x390000 ≤ a ∧ a < 0x394000 ∧ a % 16 = 0 then some ((a - 0x390000) / 16) else none))

/-- Limiter `k` is enabled, as written or in force, or fading. -/
def State.limBusy (s : State) (k : Nat) : Bool := (s.limNow k).en || !(s.limOf k).xf.isEmpty

/-- Members of the group of leader `l`, the leader apart, as last written (R213). -/
def State.limMembers (s : State) (l : Nat) : List Nat :=
  (s.limKeys.filter (fun j => j != l && (s.limWritten j).linked && (s.limWritten j).lead == l)).eraseDups

/-- Linking that breaks R213: entry `c` for limiter `k` leaves members without their leader or differs from them in LA, or joins
a group whose leader is absent or disabled, of another LA, or full (R215 cause 5). -/
def State.limLinkBad (s : State) (k : Nat) (c : LimCfg) : Bool :=
  let lead := s.limWritten c.lead
  let mine := s.limMembers k
  (!mine.isEmpty && (!(c.en && c.linked && c.lead == k) || mine.any (fun j => (s.limWritten j).la != c.la))) ||
  (c.linked && c.lead != k &&
    (!(lead.en && lead.linked && lead.lead == c.lead) || lead.la != c.la || decide (63 ≤ ((s.limMembers c.lead).filter (· != k)).length)))

/-- The cause that refuses entry `c` for limiter `k`, 0 for none (R215); `names` says that the write carries the sink. A limiter
that still fades out holds its sink: DESIGN CHOICE (log entry 40). -/
def State.limCause (s : State) (k : Nat) (c : LimCfg) (names : Bool) : Nat :=
  let old := s.limWritten k
  if !isOutSink c.sink ∨ s.addrCause true c.sink ≠ 0 then 1
  else if names ∧ s.limKeys.any (fun j => j != k && ((s.limWritten j).en || s.limBusy j) && (s.limWritten j).sink == c.sink) then 2
  else if c.sink ≠ old.sink ∧ (old.en ∨ s.limBusy k) then 3
  else if 64 < c.la ∨ 240 < c.ceil ∨ c.rel = 0 ∨ 2000 < c.rel then 4
  else if s.limLinkBad k c then 5
  else 0

/-- The effect of a write of word `w` of limiter `k`. -/
def State.limWrite (s : State) (k w : Nat) (v : Word) : State :=
  let off := OUT_LIM.adr k + 4 * w
  let v := if w = 0 then v &&& 0xFFFF7FFF else v &&& 0x83FF07FF
  let c := if w = 0 then limCfg v (s.written (OUT_LIM.adr k + 4)) else limCfg (s.written (OUT_LIM.adr k)) v
  let cause := s.limCause k c (w == 0)
  if cause = 0 then s.stage off v else s.outRefuse 0 cause k

/-- LIMITER_WRITE. -/
def execLimiterWrite (k : Fin 1024) (w : Fin 2) (v : Word) (s : State) : Host.Outcome State Fault Refusal :=
  .next (s.hostWrite (OUT_LIM.adr k.val + 4 * w.val) (fun s => s.limWrite k.val w.val v))

/-- OUT_STAT and OUT_LIMST follow the entries. -/
def State.showLim (s : State) (k : Nat) : State :=
  let s := s.setFld OUT_STAT.LIMITERS ((s.limKeys.eraseDups).filter (fun j => s.flag (OUT_LIM.EN j))).length
  let en := s.flag (OUT_LIM.EN k)
  (s.setFld (OUT_LIMST.ACTIVE k) (b2n en)).setFld (OUT_LIMST.TP k) (b2n (en && decide (4 ≤ s.fld (OUT_LIM.LA k))))

/-- LIMIT_SET and LIMIT_CLEAR of limiter `k` complete (R215). -/
def State.limDone (s : State) (k : Nat) : State :=
  let mine := s.out.limCmds.filter (fun c => c.1 == k)
  mine.foldl (fun u c => u.finish c.2.1 stOk k c.2.2)
    { s with out := { s.out with limCmds := s.out.limCmds.filter (fun c => c.1 != k) } }

/-- The entry of limiter `k` written before this boundary takes effect (R214): enabling, disabling and a change of LA start a
crossfade from the output heard until now, one still running included; a newly enabled limiter starts at 0 dB. Commands
whose writes start no crossfade complete. -/
def State.limApply (s : State) (k : Nat) : State :=
  let old := s.limNow k
  let t := [OUT_LIM.adr k, OUT_LIM.adr k + 4].foldl (fun t off => if (s.due off).isSome then t.commitStg off else t) s
  let new := t.limNow k
  let l := t.limOf k
  let move := new.en != old.en || (new.en && new.la != old.la)
  let left : LimOld := ⟨s.sidx, old.en, old.la, l.gdb⟩
  let l := if move then { l with xf := l.xf.filter (fun o => decide (s.sidx < o.at_ + 64)) ++ [left] } else l
  let l := if new.en ∧ !old.en then { l with gdb := 0, gr := 0 } else l
  let t := (t.setLim k l).showLim k
  if l.xf.isEmpty then t.limDone k else t

/-- LIMITER_APPLY. -/
def execLimiterApply (k : Fin 1024) (s : State) : Host.Outcome State Fault Refusal :=
  .next (if s.atBoundary && ((s.due (OUT_LIM.adr k)).isSome || (s.due (OUT_LIM.adr k + 4)).isSome) then s.limApply k else s)

/-- LIMITER_CROSSFADE_END: after 64 samples; LIMIT_SET and LIMIT_CLEAR of the limiter complete (R214, R215). -/
def execLimiterCrossfadeEnd (k : Fin 1024) (s : State) : Host.Outcome State Fault Refusal :=
  let l := s.limOf k
  .next (match l.xf.getLast? with
    | some o =>
      if o.at_ + 64 ≤ s.sidx then
        (s.setLim k (if s.flag (OUT_LIM.EN k) then { l with xf := [] } else LimSt.reset)).limDone k
      else s
    | none => s)

/-- The limiter enabled on a sink, as last written. -/
def State.limOn (s : State) (sink : Nat) : Option Nat :=
  s.limKeys.find? (fun j => (s.limWritten j).en && (s.limWritten j).sink == sink)

/-- The lowest-numbered free limiter (R215). -/
def State.limFree (s : State) : Option Nat := (List.range 1024).find? (fun k => !(s.limWritten k).en && !s.limBusy k)

/-- Stages the two words of a limiter. -/
def State.limStage (s : State) (k : Nat) (c : LimCfg) : State :=
  (s.stage (OUT_LIM.adr k) (BitVec.ofNat 32 (b2n c.en * 2 ^ 31 + c.sink * 2 ^ 16 + c.la * 2 ^ 8 + c.ceil))).stage
    (OUT_LIM.adr k + 4) (BitVec.ofNat 32 (b2n c.linked * 2 ^ 31 + c.lead * 2 ^ 16 + c.rel))

/-- A limiter command waits for its crossfade. -/
def State.limCmd (s : State) (c : Ctx) (k d1 : Nat) : State :=
  let s := s.accept c s.sidx 0 false 0
  { s with out := { s.out with limCmds := s.out.limCmds ++ [(k, c.handle, d1)] } }

/-- LIMIT_SET once accepted (R215, R389): a leader that is not linked yet becomes one. -/
def State.limitSet (s : State) (c : Ctx) : State :=
  let link := bitOf (c.arg 1) 31
  if !link ∧ c.arg 1 ≠ 0 then s.single c stBadArg 0 0
  else match s.limFree with
  | none => s.single c stNoResource 0 0
  | some k =>
    let e : LimCfg := { en := true, sink := c.abits 0 30 16, la := s.fld OUT_DEF.LA, ceil := c.abits 0 7 0, linked := false,
                        lead := 0, rel := s.fld OUT_DEF.REL }
    let refuse (cause : Nat) : State := (s.outRefuse 0 cause k).single c stBadArg cause k
    let cause := s.limCause k e true
    if cause ≠ 0 then refuse cause
    else if !link then (s.limStage k e).limCmd c k 0
    else match s.limOn (c.abits 1 30 16) with
    | none => refuse 5
    | some l =>
      let lc := s.limWritten l
      let t := if lc.linked then s else s.limStage l { lc with linked := true, lead := l }
      let e := { e with linked := true, lead := l }
      let cause := t.limCause k e true
      if cause = 0 then (t.limStage k e).limCmd c k l else refuse cause

/-- LIMIT_SET. -/
def execLimitSet (src : Fin 128) (tag : Word) (args : List Word) (s : State) : Host.Outcome State Fault Refusal :=
  .next (s.runCmd src.val 0x0501 false tag args State.limitSet)

/-- LIMIT_CLEAR once accepted: a sink without a limiter completes at once. The limiter is released from its group too: DESIGN
CHOICE (log entry 40). -/
def State.limitClear (s : State) (c : Ctx) : State :=
  match s.limOn (c.abits 0 30 16) with
  | none => s.single c stOk 0 0
  | some k =>
    let e := { s.limWritten k with en := false, linked := false, lead := 0 }
    let cause := s.limCause k e true
    if cause = 0 then (s.limStage k e).limCmd c k 0 else (s.outRefuse 0 cause k).single c stBadArg cause k

/-- LIMIT_CLEAR. -/
def execLimitClear (src : Fin 128) (tag : Word) (args : List Word) (s : State) : Host.Outcome State Fault Refusal :=
  .next (s.runCmd src.val 0x0502 false tag args State.limitClear)

/-! Side-tone (R217-R220) -/

/-- A value of a path register that is refused. -/
def pathBad (v : Word) : Bool :=
  (25 ≤ bitsOf v 7 0 && bitsOf v 7 0 ≤ 127) || (bitOf v 28 && bitsOf v 27 21 != 0)

/-- The effect of a write of a side-tone path register. -/
def State.pathWrite (s : State) (n : Nat) (expert : Bool) (v : Word) : State :=
  if pathBad v then s.outRefuse 1 6 n
  else if expert then s.stage (ST_XPATH.adr n) v
  else (s.setReg (ST_PATH.adr n) v).stage (ST_XPATH.adr n) v

/-- ST_PATH_WRITE: a Basic write drives the Expert register at once (R220). -/
def execStPathWrite (n : Fin 16) (expert : Bool) (v : Word) (s : State) : Host.Outcome State Fault Refusal :=
  .next (s.hostWrite (if expert then ST_XPATH.adr n.val else ST_PATH.adr n.val) (fun s => s.pathWrite n.val expert v))

/-- The gain a path register asks for, as Q4.28 (R49). -/
def pathGain (v : Word) : Word :=
  if bitOf v 30 ∨ bitsOf v 7 0 = 0x80 then 0
  else BitVec.ofNat 32 (gainQ428 (ofSigned 16 (50 * toSigned 8 (bitsOf v 7 0))))

/-- The gain kerf turned towards a gain from sample `n` (R166, R220). -/
def State.pathKerf (s : State) (k : KSt) (tgt : Word) : KSt :=
  let span := s.fld ST_XRAMP.SPAN
  let now := k.valueAt (s.sidx - 1)
  if span = 0 then { k with s0 := s.sidx, busy := false, start := tgt, tgt := tgt }
  else { k with s0 := s.sidx, busy := true, start := now, tgt := tgt, curve := s.fld ST_XRAMP.CURVE, span := span }

/-- A side-tone kerf from silence. -/
def KSt.silent (k : KSt) : KSt := { k with busy := false, start := 0, tgt := 0 }

/-- A port that side-tone may use: confirmed synchronous (R218). -/
def State.portSync (s : State) (p : Nat) : Bool := s.fld (TDM_STAT.SYNC p) == 2

/-- The conditions of R218 for source and destination. -/
def State.pathSrcOk (s : State) (w : Word) : Bool := s.portSync (bitsOf w 17 13)
def State.pathDstOk (s : State) (w : Word) : Bool := bitOf w 28 || s.portSync (bitsOf w 27 23)

/-- Bit `n` of a 16-bit field set or cleared. -/
def State.setBit16 (s : State) (f : Fld) (n : Nat) (b : Bool) : State :=
  s.setFld f (s.fld f - s.fld f / 2 ^ n % 2 * 2 ^ n + b2n b * 2 ^ n)

/-- The path starts with its gain kerfed from silence to that of the settings in force (R218). -/
def State.pathRestart (s : State) (n : Nat) (p : PathSt) : PathSt :=
  { p with switching := false, kerf := s.pathKerf p.kerf.silent (pathGain (s.reg (ST_XPATH.adr n))) }

/-- The path takes the settings in force, with the filter cleared (R220). -/
def State.pathTaken (s : State) (n : Nat) (p : PathSt) : PathSt :=
  { s.pathRestart n p with hx := 0, hy := 0, heard := s.reg (ST_XPATH.adr n) }

/-- A path held off whose conditions hold again takes a change of source, destination or filter that still waits (R218, R220). -/
def State.pathSettle (s : State) (n : Nat) : State :=
  let p := s.pathOf n
  if p.switching && !p.up && s.pathSrcOk p.heard && s.pathDstOk p.heard then
    s.setPath n (s.pathTaken n p)
  else s

/-- ST_STAT follows path `n`, and its events are raised at each transition to being held off; when its conditions hold again
it restarts from silence (R218). -/
def State.pathCheck (s : State) (n : Nat) : State :=
  let s := s.pathSettle n
  let p := s.pathOf n
  let en := s.flag (ST_XPATH.EN n)
  let a := s.pathSrcOk p.heard
  let b := s.pathDstOk p.heard
  let up := a && b
  let was := s.fld ST_STAT.ASYNC / 2 ^ n % 2 == 1
  let s := s.setBit16 ST_STAT.ASYNC n (en && !up)
  let s := if en && !up && !was && !a then s.raise 0x4B n (BitVec.ofNat 32 n) 0 else s
  let s := if en && !up && !was && !b then s.raise 0x4C n (BitVec.ofNat 32 n) 0 else s
  let s := s.setPath n (if up && !p.up then { s.pathRestart n p with up := true } else { p with up := up })
  s.setBit16 ST_STAT.RUN n (s.pathRuns n)

/-- Every path is checked again. -/
def State.pathsCheck (s : State) : State := (keysOf s.out.paths).foldl State.pathCheck s

/-- Path `n` takes the settings in force: the filter state is cleared, and the gain kerfs back from silence (R220). -/
def State.pathSwitch (s : State) (n : Nat) : State :=
  (s.setPath n (s.pathTaken n (s.pathOf n))).pathCheck n

/-- The settings of path `n` written before this boundary take effect (R220). -/
def State.pathApply (s : State) (n : Nat) : State :=
  let old := s.reg (ST_XPATH.adr n)
  let s := s.commitStg (ST_XPATH.adr n)
  let w := s.reg (ST_XPATH.adr n)
  let p := s.pathOf n
  if !bitOf w 31 then (s.setPath n { p with hx := 0, hy := 0, switching := false, kerf := p.kerf.silent, heard := w }).pathCheck n
  else if !bitOf old 31 then s.pathSwitch n
  else if bitsOf w 29 8 ≠ bitsOf p.heard 29 8 then
    if s.fld ST_XRAMP.SPAN = 0 then s.pathSwitch n
    else s.setPath n { p with switching := true, kerf := if p.switching then p.kerf else s.pathKerf p.kerf 0 }
  else s.setPath n { p with heard := w, switching := false, kerf := s.pathKerf p.kerf (pathGain w) }

/-- ST_PATH_APPLY. -/
def execStPathApply (n : Fin 16) (s : State) : Host.Outcome State Fault Refusal :=
  .next (if s.atBoundary && (s.due (ST_XPATH.adr n)).isSome then s.pathApply n else s)

/-- ST_GAIN_KERF_END: a kerf that leads to a switch is followed by it (R220). -/
def execStGainKerfEnd (n : Fin 16) (s : State) : Host.Outcome State Fault Refusal :=
  let p := s.pathOf n
  .next (if p.kerf.busy && decide (p.kerf.s0 + p.kerf.span ≤ s.sidx) then
    if p.switching then s.pathSwitch n
    else s.setPath n { p with kerf := { p.kerf with busy := false, start := p.kerf.tgt } }
  else s)

end Sys2Proof.Machine
end

