-- ==== Sys2Proof/Machine/StrBase.lean ====
section
/-! DEFINITION. What the ports, the booms, the conversion pool and the flows share: fades, members that are delivered by
grid index, and converted words (R235, R239-R242, R248-R254, R293). -/

namespace Sys2Proof.Machine

/-! Fades -/

/-- A LIN fade in or out over `span` samples from its start, in steps of 1/span, at sample `n` (R22). -/
def fadeSteps (span : Nat) (f : Bool × Nat) (n : Nat) : Nat :=
  let i := min span (n + 1 - f.2)
  if f.1 then i else span - i

/-- A fade over 64 samples; `dflt` where there is none. -/
def fade64 (dflt : Nat) (f : Option (Bool × Nat)) (n : Nat) : Nat :=
  match f with
  | some f => fadeSteps 64 f n
  | none => dflt

/-- A fade-out that has come to its end before sample `n`. -/
def fadedOut (f : Option (Bool × Nat)) (n : Nat) : Bool :=
  match f with
  | some (false, t) => decide (t + 64 ≤ n)
  | some (true, _) => false
  | none => true

/-- A fade turned round at sample `n` so that the gain goes on from where it stands. -/
def turnFade (dflt : Nat) (f : Option (Bool × Nat)) (on : Bool) (n : Nat) : Option (Bool × Nat) :=
  let g := fade64 dflt f (n - 1)
  some (on, n - (if on then g else 64 - g))

/-! Booms, groups, channels, flows beside their registers -/

/-- Boom `b`, group `g`, channel `c`, receive flow `f`, transmit flow `f`. -/
def State.boomOf (s : State) (b : Nat) : BoomSt := Tbl.get (fun _ => BoomSt.reset) s.str.boom b
def State.setBoom (s : State) (b : Nat) (x : BoomSt) : State :=
  { s with str := { s.str with boom := Tbl.put (fun _ => BoomSt.reset) s.str.boom b x } }
def State.grpOf (s : State) (g : Nat) : GrpSt := Tbl.get (fun _ => GrpSt.reset) s.str.grp g
def State.setGrp (s : State) (g : Nat) (x : GrpSt) : State :=
  { s with str := { s.str with grp := Tbl.put (fun _ => GrpSt.reset) s.str.grp g x } }
def State.chOf (s : State) (c : Nat) : ChSt := Tbl.get (fun _ => ChSt.reset) s.str.ch c
def State.setCh (s : State) (c : Nat) (x : ChSt) : State :=
  { s with str := { s.str with ch := Tbl.put (fun _ => ChSt.reset) s.str.ch c x } }
def State.rxOf (s : State) (f : Nat) : RxSt := Tbl.get (fun _ => RxSt.reset) s.net.rx f
def State.setRx (s : State) (f : Nat) (x : RxSt) : State :=
  { s with net := { s.net with rx := Tbl.put (fun _ => RxSt.reset) s.net.rx f x } }
def State.txOf (s : State) (f : Nat) : TxSt := Tbl.get (fun _ => TxSt.reset) s.net.tx f
def State.setTx (s : State) (f : Nat) (x : TxSt) : State :=
  { s with net := { s.net with tx := Tbl.put (fun _ => TxSt.reset) s.net.tx f x } }

/-! Members (R239-R241, R293) -/

/-- Where a stream is delivered: a member slot of a boom, or a flow on its own. -/
inductive MemSite where
  | boom (b slot : Nat)
  | flow (f : Nat)
  deriving DecidableEq, Repr

/-- A flow has an incident: three of one kind within 10 s raise NET_MCLK_DRIFT once (R293). -/
def State.flowIncident (s : State) (f : Nat) (passed : Bool) : State :=
  let x := s.rxOf f
  let incs := x.incs.filter (fun i => decide (s.sidx < i.2 + 10 * s.fs)) ++ [(passed, s.sidx)]
  let due := !x.drift && !s.flag (NET_RXF.UNLOCKED f) && decide (3 ≤ (incs.filter (fun i => i.1 == passed)).length)
  let s := s.setRx f { x with incs := incs, drift := x.drift || due }
  if due then s.raise 0xA6 f (BitVec.ofNat 32 f) 0 else s

/-- BOOM_STAT.INCIDENT follows the members' INCIDENT bits. -/
def State.boomIncident (s : State) (b slot : Nat) (v : Bool) : State :=
  let s := s.setFld (BOOM_XMEM.INCIDENT b slot) (b2n v)
  s.setBit16 BOOM_STAT.INCIDENT b ((List.range 16).any (fun m => s.flag (BOOM_XMEM.INCIDENT b m)))

/-- An incident opens (R241, R293). -/
def State.siteIncident (s : State) (site : MemSite) (m : BoomMem) (passed : Bool) : State :=
  match site with
  | .boom b slot =>
    let s := s.bump (if passed then BOOM_OVER_CNT.adr b slot else BOOM_UNDER_CNT.adr b slot)
    let s := (s.boomIncident b slot true).raiseN2 (if passed then 0x69 else 0x68) b slot 0
    if m.kind = 2 then s.flowIncident m.id passed else s
  | .flow f =>
    let s := s.bump (if passed then NET_RXDROP_CNT.adr f else NET_RXUND_CNT.adr f)
    (s.raise (if passed then 0xAB else 0xAA) f (BitVec.ofNat 32 f) 0).flowIncident f passed

/-- A member delivers in time again after `zeros` samples of zeros (R241, R293). -/
def State.siteRealign (s : State) (site : MemSite) (zeros : Nat) : State :=
  match site with
  | .boom b slot => (s.boomIncident b slot false).raiseN2 0x6A b slot zeros
  | .flow f => s.raiseN2 0xAC f f zeros

/-- A dropped sample (R241). -/
def State.siteDrop (s : State) (site : MemSite) : State :=
  match site with
  | .boom b slot => s.bump (BOOM_DROP_CNT.adr b slot)
  | .flow _ => s

/-- A member's word for source sample `k` arrives; words more than `limit` samples ahead are dropped (R240, R241): the
member, and whether the word is kept. -/
def State.memArrive (s : State) (site : MemSite) (m : BoomMem) (k limit : Nat) : State × BoomMem × Bool :=
  if k < s.sidx then (s.siteDrop site, m, false)
  else if s.sidx + limit < k then
    let s := if m.passed then s else s.siteIncident site m true
    (s.siteDrop site, { m with passed := true }, false)
  else
    let s := if m.passed && m.zeros == 0 then s.siteRealign site 0 else s
    (s, { m with passed := false, got := if k ∈ m.got then m.got else m.got ++ [k] }, true)

/-- The landing reads source sample `k` of a member (R240-R242). -/
def State.memRead (s : State) (site : MemSite) (m : BoomMem) (k : Nat) : State × BoomMem :=
  let got := m.got.filter (fun j => decide (k < j))
  if k ∈ m.got then
    let s := if m.zeros ≠ 0 then s.siteRealign site m.zeros else s
    (s, { m with got := got, zeros := 0, seen := true, fade := if m.seen then m.fade else some (true, k) })
  else if !m.seen || m.leaving then (s, { m with got := got })
  else
    let s := if m.zeros = 0 then s.siteIncident site m false else s
    (s, { m with got := got, zeros := m.zeros + 1 })

/-- The gain of a member at sample `k`, in 64ths. -/
def BoomMem.gain64 (m : BoomMem) (k : Nat) : Nat := fade64 (if m.seen then 64 else 0) m.fade k

/-- The boom and entry of a stream: the entry that stays before one that leaves. -/
def State.memberOf (s : State) (kind id : Nat) : Option (Nat × BoomMem) :=
  let l := (keysOf s.str.boom).flatMap (fun b =>
    ((s.boomOf b).mems.filter (fun m => m.kind == kind && m.id == id)).map (fun m => (b, m)))
  match l.find? (fun p => !p.2.leaving) with
  | some p => some p
  | none => l.head?

/-- An entry of a boom changed. -/
def State.setMem (s : State) (b : Nat) (old m : BoomMem) : State :=
  let x := s.boomOf b
  s.setBoom b { x with mems := x.mems.map (fun y => if y = old then m else y) }

/-- Samples that a boom adds to a stream: D while it is enabled; else none for a port and LOFF - 1 for a flow (R239, R293). -/
def State.memDelay (s : State) (en : Bool) (d kind id : Nat) : Nat :=
  if en then d else if kind = 2 then (s.rxOf id).loff - 1 else 0

/-- Where the words of flow `f`'s channel `ch` wait: by flow, since the halves of a claim pair share their channels. -/
def flowKey (f ch : Nat) : Nat := 0x100000 + 64 * f + ch

/-- Where the words of a port's slots, or of a flow's channels, wait. -/
def streamAddrs (kind id : Nat) : List Nat := if kind = 1 then rangeFrom (32 * id) 32 else rangeFrom (flowKey id 0) 64

/-- Words that wait for a stream move from one delay to another; those that would now be late are lost (R242, R300). -/
def State.moveWords (s : State) (addrs : List Nat) (d d' : Nat) : State :=
  let l := s.str.inbox.flatMap (fun p => (p.2.filter (fun q => addrs.contains q.1)).map (fun q => (p.1, q.1, q.2)))
  let rest : Tbl (Tbl Int) := s.str.inbox.map (fun p => (p.1, p.2.filter (fun q => !addrs.contains q.1)))
  let s := { s with str := { s.str with inbox := rest.filter (fun p => !p.2.isEmpty) } }
  l.foldl (fun s t => if t.1 + d' < s.sidx + d then s else s.deliver (t.1 + d' - d) t.2.1 t.2.2) s

/-- The samples for which a member's words wait after its delay has moved from `d` to `d'`. -/
def BoomMem.movedGot (m : BoomMem) (d d' n : Nat) : List Nat :=
  (m.got.filter (fun j => decide (n + d ≤ j + d'))).map (fun j => j + d' - d)

/-! Converted words (R248-R254) -/

/-- Group state codes (ASRC_GSTAT.STATE). -/
def gIdle : Nat := 0
def gAcquire : Nat := 1
def gLock : Nat := 2
def gHold : Nat := 3
def gRange : Nat := 4

/-- Direction, group, kind, stream and slot of a channel entry. -/
def chDir (w : Word) : Nat := bitsOf w 30 30
def chGroup (w : Word) : Nat := bitsOf w 29 24
def chKind (w : Word) : Nat := bitsOf w 23 22
def chId (w : Word) : Nat := bitsOf w 21 10
def chSlot (w : Word) : Nat := bitsOf w 5 0

/-- The entry names a stream that comes from outside: a port, or a receive flow; a transmit flow is none. -/
def chIn (w : Word) : Bool := !(chKind w == 2 && chDir w == 1)

/-- The channel that is heard for a slot of a stream in a direction. -/
def State.chanAt (s : State) (dir kind id slot : Nat) : Option Nat :=
  (keysOf s.str.ch).find? (fun c =>
    let w := (s.chOf c).heard
    (s.chOf c).fade.isSome && chDir w == dir && chKind w == kind && chId w == id && chSlot w == slot)

/-- The fade of a stream that its group has lost (R251). -/
def GrpSt.stream64 (g : GrpSt) (kind id n : Nat) : Nat :=
  match g.lost.find? (fun l => l.1 == kind && l.2.1 == id) with
  | some l => fadeSteps 64 (false, l.2.2) n
  | none => 64

/-- The gain of channel `c` at sample `n`, in 64ths of 64ths of 64ths. -/
def State.chanGain (s : State) (c n : Nat) : Nat :=
  let x := s.chOf c
  let g := s.grpOf (chGroup x.heard)
  fade64 0 x.fade n * fade64 0 g.fade n * (if chIn x.heard then g.stream64 (chKind x.heard) (chId x.heard) n else 64)

/-- The latency L of a mode in samples (R253). -/
def asrcL (mode : Nat) : Nat := if mode = 1 then 12 else 48

/-- One sample in the units of conversion times. -/
def convUnit : Int := 1099511627776

/-- The time of index `i` on a group's line (R250). -/
def GrpSt.timeOf (g : GrpSt) (i : Int) : Int := g.time + (i - g.idx) * ((g.per : Nat) : Int)

/-- The stream's entry in a group. -/
def GrpSt.memOf (g : GrpSt) (kind id : Nat) : Option GrpMem := g.mems.find? (fun m => m.kind == kind && m.id == id)

/-- Words at their times, interpolated at time `t` (R249, R253): `p` is the index of the point with 40 fraction bits. Only words
within L of the point count, and those that are not there count as zero. The filter is linear with the free taps of Config:
DESIGN CHOICE (log entry 45). -/
def asrcWord (mode : Nat) (tx : Bool) (per : Nat) (timeOf : Int → Int) (words : List (Int × Int)) (p t : Int) : Int :=
  let l := ((asrcL mode : Nat) : Int) * convUnit
  let ws := words.filter (fun w => decide (timeOf w.1 - t ≤ l ∧ t - timeOf w.1 ≤ l))
  satS 40 (rneShift (ws.foldl (fun a w =>
    a + Config.freeAsrcTap (mode == 1) tx per (p % convUnit).toNat (w.1 - p / convUnit) * w.2) 0) 31)

/-- Samples by which the words of a stream are delivered late: D of its enabled boom, or LOFF - 1 of a flow (R239, R293). -/
def State.convDelay (s : State) (kind id : Nat) : Nat :=
  match s.memberOf kind id with
  | some (b, _) => s.memDelay (s.boomOf b).en (s.boomOf b).delay kind id
  | none => s.memDelay false 0 kind id

/-- The words of a slot that a stream has received, by its own index (R249). -/
def State.inWords (s : State) (kind id slot : Nat) : List (Int × Int) :=
  if kind = 1 then (s.tdmOf id).hist.map (fun h => ((h.1 : Int), wordOf h.2 slot))
  else (s.rxOf id).hist.map (fun h => (h.1, h.2.getD slot 0))

/-- The receive word of channel `c` for source sample `k`, before its gain: the input signal at k - 1 - L - F, with the delay of
its boom or flow added (R239, R249). -/
def State.chanRx (s : State) (c k : Nat) : Int :=
  let w := (s.chOf c).heard
  let g := s.grpOf (chGroup w)
  match g.memOf (chKind w) (chId w) with
  | none => 0
  | some m =>
    if g.per = 0 then 0
    else
      let t := ((k : Int) - 1 - ((s.convDelay (chKind w) (chId w) + asrcL g.mode : Nat) : Int)) * convUnit - ((g.per : Nat) : Int)
      let p := (g.idx - m.off) * convUnit + (t - g.time) * convUnit / ((g.per : Nat) : Int)
      asrcWord g.mode false g.per (fun n => g.timeOf (n + m.off)) (s.inWords (chKind w) (chId w) (chSlot w)) p t

/-- The transmit word of channel `c` for a frame or packet sample of time `t`, before its gain: the sink signal at t - L - F, the
sink words being those of sample `n` and the samples before it (R249). -/
def State.chanTx (s : State) (c : Nat) (words : List Int) (n : Nat) (t : Int) : Int :=
  let g := s.grpOf (chGroup (s.chOf c).heard)
  if g.per = 0 then 0
  else
    let t := t - ((asrcL g.mode : Nat) : Int) * convUnit - ((g.per : Nat) : Int)
    asrcWord g.mode true g.per (fun i => i * convUnit) (((List.range words.length).zip words).map (fun w => ((n : Int) - w.1, w.2))) t t

/-- A word under the gain of channel `c` at sample `n`. -/
def State.chanScaled (s : State) (c n : Nat) (w : Int) : Int := rneDiv (w * ((s.chanGain c n : Nat) : Int)) (64 ^ 3)

/-- The converted receive word of a slot for source sample `k`; 0 without a channel (R235, R294). -/
def State.slotRx (s : State) (kind id slot k : Nat) : Int :=
  match s.chanAt 0 kind id slot with
  | some c => s.chanScaled c k (s.chanRx c k)
  | none => 0

/-- The converted transmit word of a slot at time `t`; 0 without a channel. -/
def State.slotTx (s : State) (kind id slot : Nat) (words : List Int) (n : Nat) (t : Int) : Int :=
  match s.chanAt 1 kind id slot with
  | some c => s.chanScaled c s.sidx (s.chanTx c words n t)
  | none => 0

/-- The output words of sink `a` that ended, the newest first. -/
def State.sentOf (s : State) (a : Nat) : List Int := s.out.sent.map (fun t => wordOf t a)

/-- The group of a stream that converts towards the landing, if one of its channels is heard. -/
def State.rxGroup (s : State) (kind id : Nat) : Option Nat :=
  ((keysOf s.str.ch).find? (fun c =>
    let w := (s.chOf c).heard
    (s.chOf c).fade.isSome && chDir w == 0 && chKind w == kind && chId w == id)).map (fun c => chGroup (s.chOf c).heard)

/-- The pool delivers words of a stream at sample `k`: its group is in LOCK or HOLD, and the group has not lost it (R251). -/
def State.converts (s : State) (kind id k : Nat) : Bool :=
  match s.rxGroup kind id with
  | some g =>
    (s.fld (ASRC_GSTAT.STATE g) == gLock || s.fld (ASRC_GSTAT.STATE g) == gHold) && (s.grpOf g).stream64 kind id k != 0
  | none => false

end Sys2Proof.Machine
end

