-- ==== Sys2Proof/Machine/Tdm.lean ====
section
/-! DEFINITION. The serial audio ports (R222-R237, R243, R244). -/

namespace Sys2Proof.Machine

/-- Port states (TDM_STAT.STATE) and synchronism states (TDM_STAT.SYNC). -/
def tdmOff : Nat := 0
def tdmAcquire : Nat := 1
def tdmRun : Nat := 2
def tdmFault : Nat := 3
def syncNone : Nat := 0
def syncDetected : Nat := 1
def syncConfirmed : Nat := 2
def syncLost : Nat := 3

def State.tdmState (s : State) (p : Nat) : Nat := s.fld (TDM_STAT.STATE p)
def State.tdmSync (s : State) (p : Nat) : Nat := s.fld (TDM_STAT.SYNC p)

/-- TDM_REFUSED with the port, the register's window offset and the cause (R227). -/
def State.tdmRefuse (s : State) (p off cause : Nat) : State := s.raiseN2 0x67 p off cause

/-! Configuration (R222, R223, R227, R243) -/

/-- Slot width in bits, slots, and frame length of configuration words. -/
def cfgW (ctl : Word) : Nat := [16, 24, 32, 32].getD (bitsOf ctl 23 22) 32
def cfgSlots (ctl : Word) : Nat := bitsOf ctl 28 24 + 1

/-- XCTL as stored: reserved bits 0, and SLOTSM1 1 for FMT 0 and 1 (R243). -/
def tdmCtlWord (v : Word) : Word :=
  let v := setBits v 21 0 0
  if bitsOf v 30 29 ≤ 1 then setBits v 28 24 1 else v

/-- XCFG that a Basic write of CTL sets (R222, R243). -/
def tdmBasicCfg (ctl : Word) : Word :=
  let fmt := bitsOf ctl 30 29
  let flen := if fmt = 2 then cfgSlots ctl * cfgW ctl else 2 * cfgW ctl
  BitVec.ofNat 32 (flen * 2 ^ 12 + (if fmt = 1 then 0 else 1) * 2 ^ 10)

/-- A configuration breaks a static limit of R223. -/
def tdmStaticBad (ctl cfg : Word) : Bool :=
  let fmt := bitsOf ctl 30 29
  let w := cfgW ctl
  let flen := bitsOf cfg 22 12
  fmt == 3 || bitsOf ctl 23 22 == 3 || decide (flen < 32 ∨ 1024 < flen) ||
    (if fmt = 2 then decide (cfgSlots ctl < 2 ∨ flen < cfgSlots ctl * w) else decide (flen % 2 = 1 ∨ flen < 2 * w))

/-- The configuration as last written: XCTL and XCFG. -/
def State.tdmWritten (s : State) (p : Nat) : Word × Word :=
  (((s.waiting (TDM_XCTL.adr p)).getD (s.reg (TDM_XCTL.adr p))), (s.waiting (TDM_XCFG.adr p)).getD (s.reg (TDM_XCFG.adr p)))

/-- EN = 1, written or in force, or a fade of R226 runs. -/
def State.tdmHeld (s : State) (p : Nat) : Bool :=
  s.flag (TDM_XCTL.EN p) || bitOf (s.tdmWritten p).1 31 || (s.tdmOf p).fade.any (fun f => decide (s.sidx < f.2 + 64))

/-- The cause that refuses new configuration words; 0 none (R227). -/
def State.tdmCause (s : State) (p : Nat) (ctl cfg : Word) : Nat :=
  let (c, x) := s.tdmWritten p
  if s.tdmHeld p && (bitsOf c 30 22 != bitsOf ctl 30 22 || setBits x 11 11 0 != setBits cfg 11 11 0) then 1
  else if tdmStaticBad ctl cfg then 2 else 0

/-- The register that R227 guards, of port `p`. -/
def tdmRegAdr (p : Nat) (r : TdmReg) : Nat :=
  match r with
  | .ctl => TDM_CTL.adr p
  | .xctl => TDM_XCTL.adr p
  | .xcfg => TDM_XCFG.adr p

/-- The effect of a write of a guarded register of port `p` (R227, R243). -/
def State.tdmCtl (s : State) (p : Nat) (r : TdmReg) (v : Word) : State :=
  let off := tdmRegAdr p r
  let ctl := match r with
    | .xcfg => (s.tdmWritten p).1
    | _ => tdmCtlWord v
  let cfg := match r with
    | .ctl => setBits (tdmBasicCfg ctl) 31 23 0
    | .xctl => (s.tdmWritten p).2
    | .xcfg => setBits (setBits v 31 23 0) 6 0 0
  let cause := s.tdmCause p ctl cfg
  if cause ≠ 0 then s.tdmRefuse p (off % 0x1000) cause
  else match r with
    | .ctl => ((s.setReg off ctl).stageBasic (TDM_XCTL.adr p) ctl).stageBasic (TDM_XCFG.adr p) cfg
    | .xctl => s.stage off ctl
    | .xcfg => (s.unstage off).setReg off cfg

/-- TDM_CTL_WRITE (R227, R243). -/
def execTdmCtlWrite (p : Fin 32) (r : TdmReg) (v : Word) (s : State) : Host.Outcome State Fault Refusal :=
  .next (s.hostWrite (tdmRegAdr p.val r) (fun s => s.tdmCtl p.val r v))

/-! The wire (R222, R224) -/

/-- An edge of BCLK at which FSYNC has changed starts a frame: a capture edge, and the level that the format states, after the
inversion FSINV (R222, R224). -/
def frameEdge (ctl cfg : Word) (x : FrameEdge) : Bool :=
  (x.rising != bitOf cfg 9) && ((x.level != bitOf cfg 8) == (bitsOf ctl 30 29 != 0))

/-- P(k), the place of slot `k` in a frame (R224). -/
def slotPlace (ctl cfg : Word) (k : Nat) : Nat :=
  if bitsOf ctl 30 29 = 2 then k * cfgW ctl else if k = 0 then 0 else bitsOf cfg 22 12 / 2

/-- The capture edge of the first, most significant, bit of slot `k`. -/
def slotEdge (ctl cfg : Word) (k : Nat) : Nat := bitsOf cfg 10 10 + slotPlace ctl cfg k

/-- The word of slot `k` in the levels of SDI at capture edges 0, 1, 2 and so on of a frame: bit b at edge
DELAY + P(k) + (W - 1 - b) (R224). -/
def sdiWord (ctl cfg : Word) (sdi : List Bool) (k : Nat) : Nat :=
  (((sdi.drop (slotEdge ctl cfg k)).take (cfgW ctl)) ++ List.replicate (slotEdge ctl cfg k + cfgW ctl - sdi.length) false).foldl
    (fun v b => 2 * v + b2n b) 0

/-! Words -/

/-- The device drives SDO: a port in RUN, in a mode that drives it (R225, R347). -/
def State.tdmDrives (s : State) (p : Nat) : Bool :=
  s.tdmState p == tdmRun && s.mode != 0 && (s.mode != 3 || s.flag PAIR_XCFG.TDMDRV)

/-- Slots below SLOTS whose mask bit is 1 (R225, R236). -/
def State.tdmSlots (s : State) (p : Nat) (mask : Word) : List Nat :=
  (List.range (cfgSlots (s.reg (TDM_XCTL.adr p)))).filter (fun k => bitOf mask k)

/-- Weights of the bypass and of the port's fade at sample `n`, in 64ths (R226, R235). -/
def TdmSt.byp64 (x : TdmSt) (n : Nat) : Nat := fade64 0 x.byp n
def TdmSt.port64 (x : TdmSt) (n : Nat) : Nat := fade64 64 x.fade n

/-- The sink word of sample `asg - 1` for a transmit frame assigned to `asg` (R234). -/
def State.sinkFor (s : State) (asg a : Nat) : Int :=
  if asg = s.sidx then wordOf s.out.words a else if asg = s.sidx + 1 then (s.outWord a).word else 0

/-- The converted word of a slot for the frame in progress, whose time is that of its index on the group's line (R249). -/
def State.frameConv (s : State) (p slot : Nat) : Int :=
  match s.chanAt 1 1 p slot with
  | none => 0
  | some c =>
    let g := s.grpOf (chGroup (s.chOf c).heard)
    match g.memOf 1 p with
    | none => 0
    | some m =>
      s.slotTx 1 p slot ((s.outWord (32 * p + slot)).word :: s.sentOf (32 * p + slot)) s.sidx
        (g.timeOf (((s.tdmOf p).fidx : Int) + m.off))

/-- What a slot transmits in the frame in progress, in the port's width (R225, R226, R234, R235). -/
def State.tdmTxSlot (s : State) (p slot : Nat) : Nat :=
  let x := s.tdmOf p
  let b := x.byp64 s.sidx
  let direct := if b = 0 then 0 else s.sinkFor x.asg (32 * p + slot)
  let conv := if b = 64 then 0 else s.frameConv p slot
  let w := cfgW (s.reg (TDM_XCTL.adr p))
  let v := (direct * ((b : Nat) : Int) + conv * ((64 - b : Nat) : Int)) * ((x.port64 s.sidx : Nat) : Int)
  ofSigned w ((toBits w v (64 * 64)).1 / ((2 ^ (32 - w) : Nat) : Int))

/-- SDO for the frame in progress is worked out. -/
def State.tdmSdo (s : State) (p : Nat) : State :=
  if !s.tdmDrives p then s.setTdm p { s.tdmOf p with sdo := none }
  else
    let t : Tbl Nat := (s.tdmSlots p (s.reg (TDM_XTXMASK.adr p))).foldl (fun t slot => Tbl.insert t slot (s.tdmTxSlot p slot)) []
    s.setTdm p { s.tdmOf p with sdo := some t }

/-- What SDO carries at capture edge `c` of the frame in progress, from the opposite edge before it to the one after; none for
high impedance with the weak pull-down. Cycles of no masked-in slot are driven to 0 under SDOZ (R224, R225). With DELAY = 1
the frame's last bit stands at edge FLEN, which is edge 0 of the next. -/
def State.sdoAt (s : State) (p c : Nat) : Option Bool :=
  let ctl := s.reg (TDM_XCTL.adr p)
  let cfg := s.reg (TDM_XCFG.adr p)
  match (s.tdmOf p).sdo with
  | none => none
  | some t =>
    match t.find? (fun q => decide (slotEdge ctl cfg q.1 ≤ c ∧ c < slotEdge ctl cfg q.1 + cfgW ctl)) with
    | some q => some (q.2 / 2 ^ (cfgW ctl - 1 - (c - slotEdge ctl cfg q.1)) % 2 == 1)
    | none => if bitOf cfg 7 then some false else none

/-- The words of an ended frame by slot: those of unmasked slots below SLOTS, left-aligned in 32 bits (R43, R224, R225). -/
def State.tdmRxWords (s : State) (p : Nat) (sdi : List Bool) : Tbl Int :=
  let ctl := s.reg (TDM_XCTL.adr p)
  (s.tdmSlots p (s.reg (TDM_XRXMASK.adr p))).foldl (fun t k =>
    Tbl.put (fun _ => 0) t k (toSigned 32 (sdiWord ctl (s.reg (TDM_XCFG.adr p)) sdi k * 2 ^ (32 - cfgW ctl)))) []

/-- A side-tone path takes its source from port `p`. -/
def State.pathPort (s : State) (p : Nat) : Bool :=
  (keysOf s.out.paths).any (fun n => bitsOf (s.pathOf n).heard 17 13 == p)

/-- The words of the frame assigned to sample `asg` go to their source sample, and to the side-tone paths without a boom's delay
(R219, R234, R239). -/
def State.tdmDeliver (s : State) (p : Nat) (words : Tbl Int) : State :=
  let x := s.tdmOf p
  let put (s : State) (k : Nat) : State := words.foldl (fun s q => s.deliver k (32 * p + q.1) q.2) s
  let s := if s.pathPort p && decide (s.sidx ≤ x.asg + 1) then
      words.foldl (fun s q => s.deliver (x.asg + 1) (sideKey p q.1) q.2) s else s
  match s.memberOf 1 p with
  | some (b, m) =>
    let bx := s.boomOf b
    if bx.en then
      let k := x.asg + 1 + bx.delay
      let (s, m', ok) := s.memArrive (.boom b m.slot) m k (bx.delay + 64)
      let s := s.setMem b m m'
      if ok then put s k else s
    else if s.sidx ≤ x.asg + 1 then put s (x.asg + 1) else s
  | none => if s.sidx ≤ x.asg + 1 then put s (x.asg + 1) else s

/-! Faults and frames -/

/-- The port leaves CONFIRMED: the bypass fades out (R233, R235). -/
def State.tdmLoseSync (s : State) (p : Nat) : State :=
  let x := s.tdmOf p
  let s := s.setTdm p { x with byp := turnFade 0 x.byp false s.sidx, regain := none, since := none, confirm := none }
  let s := s.setFld (TDM_STAT.PHASE p) x.phase
  ((((s.setFld (TDM_STAT.SYNC p) syncLost).bump (TDM_SYNCLOSS_CNT.adr p)).raise 0x65 p (BitVec.ofNat 32 p) 0)).pathsCheck

/-- A fault is detected (R228, R233). -/
def State.tdmEnterFault (s : State) (p fault : Nat) : State :=
  let s := (s.setFld (TDM_STAT.STATE p) tdmFault).setFld (TDM_STAT.FAULT p) fault
  let s := s.setTdm p { s.tdmOf p with good := 0, bad := 0, badRate := 0, badBclk := 0, since := none, regain := none,
                                       confirm := none, faultAt := s.sidx, sdo := none }
  let s := s.bump (TDM_FAULT_CNT.adr p)
  let s := s.raiseN2 (if fault ≤ 2 then 0x60 else if fault = 3 then 0x61 else 0x62) p p fault
  if s.tdmSync p = syncConfirmed then s.tdmLoseSync p
  else if s.tdmSync p = syncDetected then s.setFld (TDM_STAT.SYNC p) syncNone else s

/-- Slots allowed at a frame rate; 0 for a rate outside R223. -/
def slotLimit (rate : Nat) : Nat :=
  if 31000 ≤ rate ∧ rate ≤ 50000 then 32 else if 50000 < rate ∧ rate ≤ 100000 then 16
  else if 100000 < rate ∧ rate ≤ 200000 then 8 else if 370000 ≤ rate ∧ rate ≤ 400000 then 8 else 0

/-- A frame of length `len` meets the format and the limits of R223 at the rate of the last window. -/
def State.frameGood (s : State) (p len : Nat) : Bool :=
  let rate := s.fld (TDM_MEAS.FRATE p)
  len == s.fld (TDM_XCFG.FLEN p) && decide (cfgSlots (s.reg (TDM_XCTL.adr p)) ≤ slotLimit rate) && decide (len * rate ≤ 50000000)

/-- The difference of two phases, the short way round. -/
def phaseDiff (a b : Nat) : Int := toSigned 16 (a + 65536 - b)

/-- A window of the synchronism test opens at sample `n` with a frame of this phase. -/
def TdmSt.openWin (x : TdmSt) (n phase passes : Nat) (bad : Bool) : TdmSt :=
  { x with since := some n, ref := phase, devMin := 0, devMax := 0, winBad := bad, passes := passes }

/-- The detection test on a frame that starts now: it counts in the window in progress, which ends after 1 s; a window that has
failed ends DETECTED (R233). -/
def State.tdmDetect (s : State) (p phase : Nat) : State :=
  let x := s.tdmOf p
  let jump := decide (s.sidx ≠ x.last + 1)
  match x.since with
  | none => s.setTdm p (x.openWin s.sidx phase 0 false)
  | some t =>
    if t + s.fs ≤ s.sidx then
      let s := s.setTdm p (x.openWin (t + s.fs) phase (if x.winBad then 0 else x.passes + 1) jump)
      if x.winBad && s.tdmSync p == syncDetected then
        (s.setTdm p { s.tdmOf p with confirm := none }).setFld (TDM_STAT.SYNC p) syncNone
      else s
    else
      let d := phaseDiff phase x.ref
      let lo := min x.devMin d
      let hi := max x.devMax d
      s.setTdm p { x with devMin := lo, devMax := hi, winBad := x.winBad || jump || decide (256 < hi - lo) }

/-- The frames that count towards a return from LOST (R233). -/
def TdmSt.regainStep (x : TdmSt) (phase : Nat) : Option Nat :=
  match x.regain with
  | some n => if (phaseDiff phase x.lphase).natAbs ≤ 256 then some (min 64 (n + 1)) else if n < 64 then none else some n
  | none => none

/-- The phase measured last shows in TDM_STAT while the port is not CONFIRMED (R243). -/
def State.showPhase (s : State) (p phase : Nat) : State :=
  if s.tdmSync p = syncConfirmed then s else s.setFld (TDM_STAT.PHASE p) phase

/-- A frame starts in RUN: the ended frame's words are delivered and kept, and the next frame is stamped (R231, R234, R249). -/
def State.tdmFrame (s : State) (p phase : Nat) (sdi : List Bool) : State :=
  let rx := s.tdmRxWords p sdi
  let s := if fadedOut (s.tdmOf p).byp s.sidx then s else s.tdmDeliver p rx
  let s := s.tdmDetect p phase
  let x := s.tdmOf p
  let s := s.setTdm p { x with
    hist := ((x.fidx, rx) :: x.hist).take 8192, fidx := x.fidx + 1, last := s.sidx, phase := phase, asg := x.asg + 1,
    regain := x.regainStep phase, fmode := s.mode,
    first := if x.first.isNone then some (s.sidx, phase, x.fidx + 1) else x.first, frames := min 1023 (x.frames + 1) }
  (s.showPhase p phase).tdmSdo p

/-- A frame of `sdi.length - 1` BCLK cycles ends, and the next starts at `phase` (R226, R228). -/
def State.tdmStart (s : State) (p phase : Nat) (sdi : List Bool) : State :=
  let len := sdi.length - 1
  let s := s.setFld (TDM_MEAS.FLEN p) len
  let x := s.tdmOf p
  let bad := if len = s.fld (TDM_XCFG.FLEN p) then 0 else x.bad + 1
  let good := if s.frameGood p len then x.good + 1 else 0
  let s := s.setTdm p { x with bad := bad, good := good }
  if s.tdmState p ≠ tdmFault ∧ 2 ≤ bad then s.tdmEnterFault p 4
  else if s.tdmState p = tdmRun then s.tdmFrame p phase sdi
  else (s.setTdm p { s.tdmOf p with last := s.sidx, phase := phase }).showPhase p phase

/-- TDM_FRAME_START: an edge of BCLK at which FSYNC has changed level, `phase` of a sample after the tick; `sdi` are the levels of
SDI at the capture edges since the last frame start, that one and this one among them. The edge starts a frame where R222
says so. -/
def execTdmFrameStart (p : Fin 32) (phase : BitVec 16) (edge : FrameEdge) (sdi : List Bool) (s : State) :
    Host.Outcome State Fault Refusal :=
  .next (if s.tdmState p.val = tdmOff ∨ !frameEdge (s.reg (TDM_XCTL.adr p.val)) (s.reg (TDM_XCFG.adr p.val)) edge then s
  else s.tdmStart p.val phase.toNat sdi)

/-- The masks written take effect with frame `fidx` (R237). -/
def State.tdmMasks (s : State) (p fidx : Nat) (rx tx : Bool) : State :=
  let rx := rx && (s.waiting (TDM_XRXMASK.adr p)).isSome
  let tx := tx && (s.waiting (TDM_XTXMASK.adr p)).isSome
  let s := if rx then s.commitStg (TDM_XRXMASK.adr p) else s
  let s := if tx then s.commitStg (TDM_XTXMASK.adr p) else s
  if rx || tx then s.setReg (TDM_MASK_APPLIED.adr p) (BitVec.ofNat 32 fidx) else s

/-- The port enters RUN at a frame boundary (R226, R229, R237). -/
def State.tdmEnterRun (s : State) (p : Nat) : State :=
  let s := ((s.setFld (TDM_STAT.STATE p) tdmRun).setFld (TDM_STAT.FAULT p) 0).tdmMasks p 0 true true
  let x := s.tdmOf p
  let regain := if s.tdmSync p = syncLost then (if (phaseDiff x.phase x.lphase).natAbs ≤ 256 then some 1 else none) else none
  let s := s.setTdm p { (x.openWin s.sidx x.phase 0 false) with
    fade := some (true, s.sidx), fidx := 0, first := some (s.sidx, x.phase, 0), frames := 1, bad := 0, hist := [],
    regain := regain, fmode := s.mode }
  s.tdmSdo p

/-- The port may enter RUN now: 8 good frames, at a frame boundary, EN = 1. -/
def State.tdmRunOk (s : State) (p : Nat) : Bool :=
  s.flag (TDM_XCTL.EN p) && decide (8 ≤ (s.tdmOf p).good) && (s.tdmOf p).last == s.sidx

/-- TDM_RUN_ENTRY. -/
def execTdmRunEntry (p : Fin 32) (s : State) : Host.Outcome State Fault Refusal :=
  .next (if s.tdmState p.val = tdmAcquire ∧ s.tdmRunOk p.val then s.tdmEnterRun p.val else s)

/-- TDM_CLK_RESTORED (R229). -/
def execTdmClkRestored (p : Fin 32) (s : State) : Host.Outcome State Fault Refusal :=
  let p := p.val
  .next (if s.tdmState p = tdmFault ∧ s.tdmRunOk p then
    (s.tdmEnterRun p).raiseN2 0x63 p p (s.sidx - (s.tdmOf p).faultAt)
  else s)

/-- The configuration written takes effect at a block boundary (R226). -/
def State.tdmApply (s : State) (p : Nat) : State :=
  let was := s.flag (TDM_XCTL.EN p)
  let s := [TDM_XCTL.adr p, TDM_XCFG.adr p].foldl (fun t off => if (s.due off).isSome then t.commitStg off else t) s
  let en := s.flag (TDM_XCTL.EN p)
  let x := s.tdmOf p
  if en && !was then
    if s.tdmState p = tdmOff then
      (s.setFld (TDM_STAT.STATE p) tdmAcquire).setTdm p { x with good := 0, bad := 0, badRate := 0, badBclk := 0, fade := none }
    else s.setTdm p { x with fade := turnFade 64 x.fade true s.sidx }
  else if was && !en then s.setTdm p { x with fade := turnFade 64 x.fade false s.sidx }
  else s

/-- TDM_ENABLE_APPLY. -/
def execTdmEnableApply (p : Fin 32) (s : State) : Host.Outcome State Fault Refusal :=
  .next (if s.atBoundary && ((s.due (TDM_XCTL.adr p.val)).isSome || (s.due (TDM_XCFG.adr p.val)).isSome) then s.tdmApply p.val
    else s)

/-- The port is OFF (R226, R233). -/
def State.tdmTurnOff (s : State) (p : Nat) : State :=
  let x := s.tdmOf p
  let s := ((s.setReg (TDM_STAT.adr p) 0).setFld (TDM_STAT.PHASE p) x.phase).setTdm p
    { TdmSt.reset with fidx := x.fidx, pub := x.pub, phase := x.phase }
  s.pathsCheck

/-- TDM_OFF_ENTRY: at a frame boundary after the fade-out. -/
def execTdmOffEntry (p : Fin 32) (s : State) : Host.Outcome State Fault Refusal :=
  .next (if s.tdmState p.val ≠ tdmOff ∧ !s.flag (TDM_XCTL.EN p.val) ∧ fadedOut (s.tdmOf p.val).fade s.sidx ∧
      (s.tdmOf p.val).last = s.sidx then s.tdmTurnOff p.val
    else s)

/-- TDM_CLK_LOST: no BCLK edge for 2 us, or no frame start within 2 x FLEN cycles (R228). -/
def execTdmClkLost (p : Fin 32) (fsync : Bool) (s : State) : Host.Outcome State Fault Refusal :=
  .next (if s.tdmState p.val = tdmAcquire ∨ s.tdmState p.val = tdmRun then s.tdmEnterFault p.val (if fsync then 2 else 1) else s)

/-- TDM_MEAS_WINDOW: a window with these measured rates in Hz (R228). -/
def execTdmMeasWindow (p : Fin 32) (bclk : Word) (frate : Word) (s : State) : Host.Outcome State Fault Refusal :=
  let p := p.val
  .next (if s.tdmState p = tdmOff then s
  else
    let s := s.setFld (TDM_MEAS.FRATE p) (min 0xFFFFF frate.toNat)
    let x := s.tdmOf p
    let lim := slotLimit frate.toNat
    let x := { x with badRate := if lim = 0 then x.badRate + 1 else 0,
                      badBclk := if 50000000 < bclk.toNat then x.badBclk + 1 else 0 }
    let s := s.setTdm p x
    let swap := decide (bclk.toNat < 500000 ∧ 1000000 < frate.toNat)
    if s.tdmState p = tdmFault then
      if swap ∧ s.fld (TDM_STAT.FAULT p) = 1 then (s.setFld (TDM_STAT.FAULT p) 3).raiseN2 0x61 p p 3 else s
    else if swap then s.tdmEnterFault p 3
    else if 2 ≤ x.badRate then s.tdmEnterFault p 5
    else if lim ≠ 0 ∧ lim < cfgSlots (s.reg (TDM_XCTL.adr p)) then s.tdmEnterFault p 6
    else if 2 ≤ x.badBclk then s.tdmEnterFault p 7
    else s)

/-- The words that a re-centred FIFO cannot hold are replaced by zeros: those of the frame received last, or those of the frame
in progress on SDO (R19; of the rule's zeros and drops the first is a DESIGN CHOICE, log entry 43). -/
def State.tdmRecentre (s : State) (p : Nat) (tx : Bool) : State :=
  let x := s.tdmOf p
  s.setTdm p (if tx then { x with sdo := x.sdo.map (fun t => t.map (fun q => (q.1, 0))) }
    else { x with hist := match x.hist with
      | h :: l => (h.1, []) :: l
      | [] => [] })

/-- TDM_SLIP: a FIFO of a port that is not CONFIRMED is re-centred (R19, R230). -/
def execTdmSlip (q : PortFifo) (s : State) : Host.Outcome State Fault Refusal :=
  let p := q.port.val
  .next (if s.tdmState p = tdmRun ∧ s.tdmSync p ≠ syncConfirmed then
    ((s.tdmRecentre p q.tx).bump (TDM_SLIP_CNT.adr p)).raise 0x66 p (BitVec.ofNat 32 p) 0
  else s)

/-! Timestamps (R232) -/

/-- At a block tick, a port in RUN publishes its record. -/
def State.tdmPublish (s : State) (p : Nat) : State :=
  if s.tdmState p ≠ tdmRun then s
  else
    let x := s.tdmOf p
    let pub := match x.first with
      | some (k, ph, f) => (k, ph, f, x.frames)
      | none => (x.pub.1, x.pub.2.1, x.pub.2.2.1, 0)
    (s.setTdm p { x with pub := pub, first := none, frames := 0 }).setReg (TDM_TS_LO.adr p) (lo32 pub.1)

/-- A read of TDM_TS_LO latches the rest of the block's record. -/
def State.tsRead (s : State) (p : Nat) : State :=
  let r := (s.tdmOf p).pub
  (((s.setReg (TDM_TS_LO.adr p) (lo32 r.1)).setReg (TDM_TS_HI.adr p) (hi32 r.1)).setReg (TDM_TS_INFO.adr p)
    (BitVec.ofNat 32 (r.2.1 * 2 ^ 16 + r.2.2.2))).setReg (TDM_TS_FIDX.adr p) (BitVec.ofNat 32 r.2.2.1)

/-- TDM_TS_LO_READ. -/
def execTdmTsLoRead (p : Fin 32) (s : State) : Host.Outcome State Fault Refusal := .next (s.tsRead p)

/-! Synchronism (R233-R235) -/

/-- TDM_SYNC_DETECTED: two windows of 1 s pass the test. -/
def execTdmSyncDetected (p : Fin 32) (s : State) : Host.Outcome State Fault Refusal :=
  let p := p.val
  let y := s.tdmSync p
  .next (if s.tdmState p = tdmRun ∧ (y = syncNone ∨ y = syncLost) ∧ 2 ≤ (s.tdmOf p).passes then
    ((s.setFld (TDM_STAT.SYNC p) syncDetected).setTdm p { s.tdmOf p with regain := none }).raise 0x64 p (BitVec.ofNat 32 p) 0
  else s)

/-- The write of CONFIRM = 1. -/
def State.syncConfirm (s : State) (p : Nat) : State :=
  if s.tdmSync p = syncDetected then s.setTdm p { s.tdmOf p with confirm := some s.sidx }
  else s.tdmRefuse p (TDM_SYNC.adr p % 0x1000) 3

/-- TDM_SYNC_CONFIRM: the write of CONFIRM = 1. -/
def execTdmSyncConfirm (p : Fin 32) (s : State) : Host.Outcome State Fault Refusal :=
  .next (s.hostWrite (TDM_SYNC.adr p.val) (fun s => s.syncConfirm p.val))

/-- The port is CONFIRMED with a latched phase; a frame that starts `d` units off it counts for the sample in which it would start
without that (R234). -/
def State.tdmConfirm (s : State) (p phase : Nat) : State :=
  let next := decide (0xF800 ≤ phase)
  let x := s.tdmOf p
  let n := ((((x.last * 65536 + x.phase : Nat) : Int) - phaseDiff x.phase phase) / 65536).toNat
  let s := ((s.setFld (TDM_STAT.SYNC p) syncConfirmed).setFld (TDM_STAT.NEXT p) (b2n next)).setFld (TDM_STAT.PHASE p) phase
  let s := s.setTdm p { x with lphase := phase, asg := n + b2n next, byp := turnFade 0 x.byp true s.sidx,
                               confirm := none, regain := none }
  s.pathsCheck

/-- TDM_SYNC_CONFIRM_APPLY: at a block boundary, by software's write or AUTOCONF. -/
def execTdmSyncConfirmApply (p : Fin 32) (s : State) : Host.Outcome State Fault Refusal :=
  let x := s.tdmOf p.val
  let asked : Bool := s.flag (TDM_XCFG.AUTOCONF p.val) || (match x.confirm with | some n => decide (n < s.sidx) | none => false)
  .next (if s.atBoundary ∧ s.tdmSync p.val = syncDetected ∧ asked then s.tdmConfirm p.val x.phase else s)

/-- TDM_SYNC_LOST: the phase has moved more than 1,024 units from the latched phase (a fault loses it by itself). -/
def execTdmSyncLost (p : Fin 32) (s : State) : Host.Outcome State Fault Refusal :=
  let x := s.tdmOf p.val
  .next (if s.tdmSync p.val = syncConfirmed ∧ 1024 < (phaseDiff x.phase x.lphase).natAbs then s.tdmLoseSync p.val else s)

/-- TDM_SYNC_REGAINED: at a block boundary, the first 64 frames after a fault having kept within 256 units of the latched phase
(R233, R235). -/
def execTdmSyncRegained (p : Fin 32) (s : State) : Host.Outcome State Fault Refusal :=
  let x := s.tdmOf p.val
  .next (if s.tdmState p.val = tdmRun ∧ s.tdmSync p.val = syncLost ∧ x.regain = some 64 ∧ s.atBoundary then s.tdmConfirm p.val x.lphase else s)

/-! Masks (R236, R237) -/

/-- The slot mask registers of port `p`. -/
def maskAdr (p : Nat) (tx expert : Bool) : Nat :=
  if expert then (if tx then TDM_XTXMASK.adr p else TDM_XRXMASK.adr p)
  else (if tx then TDM_TXMASK.adr p else TDM_RXMASK.adr p)

/-- The effect of a write of a slot mask. -/
def State.maskWrite (s : State) (p : Nat) (tx : Bool) (expert : Bool) (v : Word) : State :=
  let basic := maskAdr p tx false
  let x := maskAdr p tx true
  if expert then s.stage x v else (s.setReg basic v).stageBasic x v

/-- TDM_MASK_WRITE. -/
def execTdmMaskWrite (p : Fin 32) (tx : Bool) (expert : Bool) (v : Word) (s : State) : Host.Outcome State Fault Refusal :=
  .next (s.hostWrite (maskAdr p.val tx expert) (fun s => s.maskWrite p.val tx expert v))

/-- TDM_MASK_APPLY: at the start of a frame that the port has just begun, the mask writes that reached the port in time, of the
receive mask, the transmit mask or both (R237). -/
def execTdmMaskApply (q : MaskEdge) (s : State) : Host.Outcome State Fault Refusal :=
  let p := q.port.val
  .next (if s.tdmState p = tdmRun ∧ (s.tdmOf p).last = s.sidx then (s.tdmMasks p (s.tdmOf p).fidx q.rx q.tx).tdmSdo p
    else s)

end Sys2Proof.Machine
end

