-- ==== Sys2Proof/Machine/Boom.lean ====
section
/-! DEFINITION. The booms (R238-R242, R245). -/

namespace Sys2Proof.Machine

/-- BOOM_REFUSED with the boom, the member and the cause (R238). -/
def State.boomRefuse (s : State) (b m cause : Nat) : State := s.raiseN2 0x6B b m cause

/-! The member table as last written -/

/-- A shadowed register as last written, by the host or by a Basic write. -/
def State.lastWritten (s : State) (off : Nat) : Word := (s.waiting off).getD (s.reg off)

/-- A member entry: kind and ID as last written. -/
def State.memEntry (s : State) (b m : Nat) : Nat × Nat :=
  let w := s.lastWritten (BOOM_XMEM.adr b m)
  (bitsOf w 31 30, bitsOf w 11 0)

/-- Places of the member table that name a stream, but for those of boom `b` when `skip` says so. -/
def State.memPlaces (s : State) (kind id : Nat) : List (Nat × Nat) :=
  (List.range 16).flatMap (fun b => (rangeFrom 0 16).filterMap (fun m =>
    if s.memEntry b m = (kind, id) then some (b, m) else none))

/-- The rate groups of the enabled channels of a stream, as last written (R238). -/
def State.streamGroups (s : State) (kind id : Nat) : List Nat :=
  (s.regs.map (fun p => p.1) ++ s.stg.map (fun p => p.1) ++ s.stgB.map (fun p => p.1)).filterMap (fun off =>
    if 0x501000 ≤ off ∧ off < 0x502000 then
      let w := s.lastWritten off
      if bitOf w 31 && chIn w && chKind w == kind && chId w == id then some (chGroup w) else none
    else none)

/-- The streams of boom `b` as last written, without member `skip`. -/
def State.boomStreams (s : State) (b skip : Nat) : List (Nat × Nat) :=
  ((List.range 16).filter (fun m => m != skip)).map (fun m => s.memEntry b m)

/-- The groups of converted members of boom `b` without member `skip`. -/
def State.boomGroups (s : State) (b skip : Nat) : List Nat :=
  (s.boomStreams b skip).flatMap (fun t => if t.1 = 0 then [] else s.streamGroups t.1 t.2)

/-- The cause that refuses a member entry: 1 already a member elsewhere, or of another rate group; 2 kind or ID out of
range (R238). -/
def State.memCause (s : State) (b m kind id : Nat) : Nat :=
  if kind = 0 then 0
  else if kind = 3 ∨ (kind = 1 ∧ 32 ≤ id) then 2
  else if (s.memPlaces kind id).any (fun t => t != (b, m)) then 1
  else
    let mine := s.streamGroups kind id
    if mine.any (fun g => (s.boomGroups b m).any (fun h => h != g)) then 1 else 0

/-- The effect of a write of a member entry. -/
def State.xmemWrite (s : State) (b m : Nat) (v : Word) : State :=
  let off := BOOM_XMEM.adr b m
  let cause := s.memCause b m (bitsOf v 31 30) (bitsOf v 11 0)
  if cause ≠ 0 then s.boomRefuse b m cause else s.stage off (setBits v 29 12 0)

/-- BOOM_XMEM_WRITE. -/
def execBoomXmemWrite (b : Fin 16) (m : Fin 16) (v : Word) (s : State) : Host.Outcome State Fault Refusal :=
  .next (s.hostWrite (BOOM_XMEM.adr b.val m.val) (fun s => s.xmemWrite b.val m.val v))

/-- Ports of a mask in ascending order. -/
def maskPorts (v : Word) : List Nat := (List.range 32).filter (fun p => bitOf v p)

/-- Basic entries of boom `b`: the ports of the mask, then none (R245). -/
def State.stagePorts (s : State) (b : Nat) (v : Word) : State :=
  let l := maskPorts v
  (List.range 16).foldl (fun s m => s.stageBasic (BOOM_XMEM.adr b m)
    (match l[m]? with
     | some p => BitVec.ofNat 32 (2 ^ 30 + p)
     | none => 0)) s

/-- The first port of a mask that the rules of R238 keep out of boom `b`, with its place. -/
def State.portsBad (s : State) (b : Nat) (v : Word) : Option Nat :=
  let l := maskPorts v
  let gs := l.flatMap (fun p => s.streamGroups 1 p)
  (List.range l.length).find? (fun m =>
    let p := l.getD m 0
    (s.memPlaces 1 p).any (fun t => t.1 != b) ||
      (s.streamGroups 1 p).any (fun g => gs.any (fun h => h != g)))

/-- The effect of a write of BOOM_PORTSb. -/
def State.boomPorts (s : State) (b : Nat) (v : Word) : State :=
  if 16 < (maskPorts v).length then s.boomRefuse b 0 2
  else match s.portsBad b v with
    | some m => s.boomRefuse b m 1
    | none => (s.setReg (BOOM_PORTS.adr b) v).stagePorts b v

/-- BOOM_PORTS_WRITE. -/
def execBoomPortsWrite (b : Fin 16) (v : Word) (s : State) : Host.Outcome State Fault Refusal :=
  .next (s.hostWrite (BOOM_PORTS.adr b.val) (fun s => s.boomPorts b.val v))

/-! The pool (R239, R242) -/

/-- Pool bytes of boom `b` at delay `d`, by the entries as last written: 8 bytes per slot per sample. -/
def State.boomBytes (s : State) (b d : Nat) : Nat :=
  (s.boomStreams b 16).foldl (fun n t =>
    if t.1 = 1 then n + cfgSlots (s.lastWritten (TDM_XCTL.adr t.2)) * 8 * (d + 64) else n) 0

/-- A configuration of boom `b` fits the pool beside the other enabled booms. -/
def State.boomFits (s : State) (b : Nat) (v : Word) : Bool :=
  let need := (List.range 16).foldl (fun n j =>
    let w := if j = b then v else s.lastWritten (BOOM_XCFG.adr j)
    if bitOf w 31 then n + s.boomBytes j (bitsOf w 9 0) else n) 0
  decide (need ≤ (s.reg BOOM_XPOOL_LEN.adr).toNat)

/-- The effect of a write of BOOM_CFGb or BOOM_XCFGb. -/
def State.boomCfg (s : State) (b : Nat) (expert : Bool) (v : Word) : State :=
  let v := setBits v 30 10 0
  if bitOf v 31 && !s.boomFits b v then s.boomRefuse b 0 3
  else if expert then s.stage (BOOM_XCFG.adr b) v
  else (s.setReg (BOOM_CFG.adr b) v).stageBasic (BOOM_XCFG.adr b) v

/-- BOOM_CFG_WRITE. -/
def execBoomCfgWrite (b : Fin 16) (expert : Bool) (v : Word) (s : State) : Host.Outcome State Fault Refusal :=
  .next (s.hostWrite (if expert then BOOM_XCFG.adr b.val else BOOM_CFG.adr b.val) (fun s => s.boomCfg b.val expert v))

/-- A write to the pool registers while a boom is enabled is refused (R245); otherwise it is stored. -/
def State.boomPoolWrite (s : State) (off : Nat) (v : Word) : State :=
  if (List.range 16).any (fun b => bitOf (s.lastWritten (BOOM_XCFG.adr b)) 31 || (s.boomOf b).en) then s.boomRefuse 0 0 3
  else s.setReg off v

/-! Changes (R242) -/

/-- The entries in force of boom `b`: place, kind, ID. -/
def State.boomEntries (s : State) (b : Nat) : List (Nat × Nat × Nat) :=
  (List.range 16).filterMap (fun m =>
    let w := s.reg (BOOM_XMEM.adr b m)
    if bitsOf w 31 30 = 0 then none else some (m, bitsOf w 31 30, bitsOf w 11 0))

/-- Members that are no longer entered leave, after a fade-out where the boom is enabled; entered streams join. -/
def State.boomMembers (s : State) (b : Nat) : State :=
  let x := s.boomOf b
  let want := s.boomEntries b
  let named (m : BoomMem) : Bool := want.contains (m.slot, m.kind, m.id)
  let stay := (x.mems.filter (fun m => x.en || (named m && !m.leaving))).map (fun m =>
    if named m && !m.leaving then m
    else if m.leaving then m else { m with leaving := true, fade := turnFade (if m.seen then 64 else 0) m.fade false s.sidx })
  let fresh := (want.filter (fun t => !(x.mems.any (fun m => !m.leaving && (m.slot, m.kind, m.id) == t)))).map (fun t =>
    { BoomMem.fresh t.1 t.2.1 t.2.2 with seen := !x.en })
  (s.setBoom b { x with mems := stay ++ fresh })

/-- The fade-out before a move of boom `b`. -/
def State.boomStartMove (s : State) (b : Nat) : State :=
  let x := s.boomOf b
  s.setBoom b { x with
    moveAt := some s.sidx
    mems := x.mems.map (fun m => { m with fade := turnFade (if m.seen then 64 else 0) m.fade false s.sidx }) }

/-- The changes written to boom `b` take effect. -/
def State.boomChange (s : State) (b : Nat) : State :=
  let s := (List.range 16).foldl (fun s m =>
    let off := BOOM_XMEM.adr b m
    if (s.due off).isSome then
      let keep := bitsOf (s.reg off) 31 30 == bitsOf (s.lastWritten off) 31 30 &&
        bitsOf (s.reg off) 11 0 == bitsOf (s.lastWritten off) 11 0
      let inc := s.fld (BOOM_XMEM.INCIDENT b m)
      let s := s.commitStg off
      if keep then s.setFld (BOOM_XMEM.INCIDENT b m) inc else s.boomIncident b m false
    else s) s
  let s := if (s.due (BOOM_XCFG.adr b)).isSome then s.commitStg (BOOM_XCFG.adr b) else s
  let s := (s.boomMembers b).setBit16 BOOM_STAT.RUN b (s.flag (BOOM_XCFG.EN b))
  let x := s.boomOf b
  if x.en == s.flag (BOOM_XCFG.EN b) && (x.delay == s.fld (BOOM_XCFG.DELAY b) || !x.en) then
    s.setBoom b { x with delay := s.fld (BOOM_XCFG.DELAY b) }
  else if x.moveAt.isSome then s else s.boomStartMove b

/-- BOOM_APPLY. -/
def execBoomApply (b : Fin 16) (s : State) : Host.Outcome State Fault Refusal :=
  let b := b.val
  .next (if s.atBoundary && ((s.due (BOOM_XCFG.adr b)).isSome ||
      (List.range 16).any (fun m => (s.due (BOOM_XMEM.adr b m)).isSome)) then s.boomChange b else s)

/-- A stream takes its place after a move, with the words that wait for it: as a member of an enabled boom it fades in from its first
word in time; outside one a port fades in at once, and a flow on its own from its first word in time (R242, R300). -/
def State.memMoved (s : State) (b : Nat) (was : Bool) (d : Nat × Nat) (en : Bool) (m : BoomMem) : State :=
  let got := if m.kind = 2 ∧ !was then (s.rxOf m.id).mem.got else m.got
  let got := { m with got := got }.movedGot d.1 d.2 s.sidx
  let m' := { BoomMem.fresh m.slot m.kind m.id with got := got }
  let put (s : State) (y : BoomMem) : State := s.setBoom b { s.boomOf b with mems := (s.boomOf b).mems ++ [y] }
  if en then put s m'
  else if m.kind = 2 then
    put (s.setRx m.id { s.rxOf m.id with mem := { BoomMem.fresh 0 2 m.id with got := got } }) { m' with seen := true, got := [] }
  else put s { m' with seen := true, fade := some (true, s.sidx), got := [] }

/-- The move after the fade-out: words that wait, and the members, take their new places (R242). -/
def State.boomMove (s : State) (b : Nat) : State :=
  let x := s.boomOf b
  let en := s.flag (BOOM_XCFG.EN b)
  let d := s.fld (BOOM_XCFG.DELAY b)
  let s := x.mems.foldl (fun s m =>
    s.moveWords (streamAddrs m.kind m.id) (s.memDelay x.en x.delay m.kind m.id) (s.memDelay en d m.kind m.id)) s
  let s := x.mems.foldl (fun s m => s.boomIncident b m.slot false) s
  let s := s.setBoom b { mems := [], en := en, delay := d, moveAt := none }
  (x.mems.filter (fun m => !m.leaving)).foldl (fun s m =>
    s.memMoved b x.en (s.memDelay x.en x.delay m.kind m.id, s.memDelay en d m.kind m.id) en m) s

/-- A boom at the tick that begins sample `sidx`: members that have faded out leave, and a move follows its fade. -/
def State.boomTick (s : State) (b : Nat) : State :=
  let x := s.boomOf b
  match x.moveAt with
  | some t => if t + 64 ≤ s.sidx then s.boomMove b else s
  | none =>
    if x.mems.any (fun m => m.leaving && fadedOut m.fade s.sidx) then
      let gone := x.mems.filter (fun m => m.leaving && fadedOut m.fade s.sidx)
      let s := s.setBoom b { x with mems := x.mems.filter (fun m => !(m.leaving && fadedOut m.fade s.sidx)) }
      gone.foldl (fun s m =>
        if m.kind = 2 then s.setRx m.id { s.rxOf m.id with mem := BoomMem.fresh 0 2 m.id } else s) s
    else s

/-- The landing reads source sample `k` of every member of an enabled boom. A converted member has a word for every grid index
for which its group gives one (R239, R240). -/
def State.boomRead (s : State) (k b : Nat) : State :=
  let x := s.boomOf b
  if !x.en then s
  else x.mems.foldl (fun s m =>
    let conv := s.converts m.kind m.id k && !(m.kind == 1 && s.tdmSync m.id == syncConfirmed)
    let m' := if conv && !(m.got.contains k) then { m with got := m.got ++ [k] } else m
    let idle := m.kind == 2 && !s.flag (NET_RXF.EN m.id)
    let (s, m2) := s.memRead (.boom b m.slot) { m' with leaving := m'.leaving || idle } k
    s.setMem b m { m2 with leaving := m.leaving }) s

end Sys2Proof.Machine
end

