-- ==== Sys2Proof/Machine/Load.lean ====
section
/-! DEFINITION. A load of the sample counter (R39, R265, R332). What has begun goes on: every note of a sample that the device
keeps moves with the counter, and the blocks of the engines move so that the next block tick ends the block in progress
(DESIGN CHOICE, log entry 62). Indices that commands name stay as they are. -/

namespace Sys2Proof.Machine

/-- How the counter's samples are renumbered: `old` becomes `new`; a sample that has no number any more becomes 0. -/
structure Renumber where
  old : Nat
  new : Nat

/-- The new number of sample `t`. -/
def Renumber.at_ (r : Renumber) (t : Nat) : Nat := t + r.new - r.old

/-- The new time of an instant in units of 2^-40 sample. -/
def Renumber.units (r : Renumber) (t : Int) : Int := t + (((r.new : Nat) : Int) - ((r.old : Nat) : Int)) * ((2 ^ 40 : Nat) : Int)

def Renumber.fade (r : Renumber) (f : Fade) : Fade := { f with at_ := r.at_ f.at_ }
def Renumber.turn (r : Renumber) (f : Option (Bool × Nat)) : Option (Bool × Nat) := f.map (fun p => (p.1, r.at_ p.2))
def Renumber.kst (r : Renumber) (k : KSt) : KSt := { k with s0 := r.at_ k.s0 }

/-- Every entry of a table. -/
def mapTbl {α : Type} (t : Tbl α) (f : α → α) : Tbl α := t.map (fun p => (p.1, f p.2))

/-- Chip-wide waits. The block tick of the sample that is renumbered has run, or none has run at a new number. -/
def Renumber.glb (r : Renumber) (same : Bool) (g : GlbSt) : GlbSt :=
  { g with
    modePend := g.modePend.map (fun p => { p with accepted := r.at_ p.accepted, changedAt := p.changedAt.map r.at_ })
    safePend := g.safePend.map (fun p => (p.1, r.at_ p.2))
    ratePend := g.ratePend.map (fun p => (p.1, p.2.1, r.at_ p.2.2))
    resets := g.resets.map (fun b => { b with asked := r.at_ b.asked, applied := b.applied.map r.at_ })
    snaps := g.snaps.map (fun p => { p with accepted := r.at_ p.accepted })
    lastBlock := if same then r.new else if r.new = 0 then 1 else r.new - 1 }

/-- An engine, its blocks renumbered by `b`. -/
def Renumber.engine (r b : Renumber) (x : Engine) : Engine :=
  { x with
    bidx := b.at_ x.bidx, work := b.at_ x.work, waitFor := x.waitFor.map b.at_, hiddenWait := x.hiddenWait.map b.at_
    krec := mapTbl x.krec (fun l => l.map b.kst)
    kps := mapTbl x.kps (fun k => { k with s0 := b.at_ k.s0, ahead := k.ahead.map (fun p => (p.1, b.kst p.2)) })
    xf := x.xf.map (fun f => (b.at_ f.1, f.2))
    prog := x.prog.map (fun k => { k with s := b.at_ k.s })
    startReq := x.startReq.map r.at_, stopReq := x.stopReq.map r.at_, stopping := x.stopping.map r.at_ }

/-- The landing. -/
def Renumber.lnd (r : Renumber) (l : LndSt) : LndSt :=
  { l with
    kerfs := mapTbl l.kerfs (fun k => { k with s := r.at_ k.s, applied := r.at_ k.applied })
    queue := l.queue.map (fun c => { c with applied := r.at_ c.applied })
    held := l.held.map (fun c => { c with applied := r.at_ c.applied })
    reqs := l.reqs.map (fun q => { q with reach := r.at_ q.reach })
    meters := mapTbl l.meters (fun m => { m with holdAt := r.at_ m.holdAt })
    clear := l.clear.map (fun p => (p.1, r.at_ p.2))
    clearAll := l.clearAll.map r.at_
    gens := mapTbl l.gens (fun g => { g with
      rampAt := g.rampAt.map r.at_, transAt := g.transAt.map r.at_, pinkAt := r.at_ g.pinkAt, idleAt := g.idleAt.map r.at_
      old := g.old.map (fun o => { o with pinkAt := r.at_ o.pinkAt }) }) }

/-- The output stage. -/
def Renumber.out (r : Renumber) (o : OutSt) : OutSt :=
  { o with
    lims := mapTbl o.lims (fun l => { l with xf := l.xf.map (fun x => { x with at_ := r.at_ x.at_ }) })
    paths := mapTbl o.paths (fun p => { p with kerf := r.kst p.kerf })
    mode := r.fade o.mode, brace := r.fade o.brace, clk := r.fade o.clk, cold := r.fade o.cold, safe := r.fade o.safe
    hot := r.fade o.hot }

/-- A stream that is delivered by grid index. -/
def Renumber.mem (r : Renumber) (m : BoomMem) : BoomMem := { m with got := m.got.map r.at_, fade := r.turn m.fade }

/-- A serial port. -/
def Renumber.tdm (r : Renumber) (x : TdmSt) : TdmSt :=
  { x with
    fade := r.turn x.fade, last := r.at_ x.last, since := x.since.map r.at_, asg := r.at_ x.asg, byp := r.turn x.byp
    faultAt := r.at_ x.faultAt, first := x.first.map (fun f => (r.at_ f.1, f.2)), confirm := x.confirm.map r.at_ }

/-- A rate group. -/
def Renumber.grp (r : Renumber) (x : GrpSt) : GrpSt :=
  { x with
    holdAt := r.at_ x.holdAt, fade := r.turn x.fade, switch := x.switch.map r.at_
    lost := x.lost.map (fun t => (t.1, t.2.1, r.at_ t.2.2)), time := r.units x.time, start := x.start.map r.at_
    lockAt := r.at_ x.lockAt, pers := x.pers.map (fun p => (r.at_ p.1, p.2))
    mems := x.mems.map (fun m => { m with time := r.units m.time }) }

/-- Ports, booms and the pool. -/
def Renumber.str (r : Renumber) (t : StrSt) : StrSt :=
  { tdm := mapTbl t.tdm r.tdm
    boom := mapTbl t.boom (fun b => { b with mems := b.mems.map r.mem, moveAt := b.moveAt.map r.at_ })
    grp := mapTbl t.grp r.grp
    ch := mapTbl t.ch (fun c => { c with fade := r.turn c.fade })
    inbox := (t.inbox.filter (fun p => decide (r.old ≤ p.1))).map (fun p => (r.at_ p.1, p.2)) }

/-- Network flows and the control firmware. -/
def Renumber.net (r : Renumber) (n : NetSt) : NetSt :=
  { n with
    rx := mapTbl n.rx (fun x => { x with
      mem := r.mem x.mem, used := r.at_ x.used, lostAt := r.at_ x.lostAt, fade := r.turn x.fade, moveAt := x.moveAt.map r.at_
      incs := x.incs.map (fun i => (i.1, r.at_ i.2)), half := r.turn x.half, record := x.record.map (fun p => (p.1, r.units p.2)) })
    tx := mapTbl n.tx (fun x => { x with unres := x.unres.map r.at_ })
    arp := n.arp.map (fun a => { a with at_ := r.at_ a.at_ })
    asks := n.asks.map (fun a => (a.1, a.2.1, r.at_ a.2.2))
    sapAt := n.sapAt.map r.at_
    sap := n.sap.map (fun a => { a with at_ := r.at_ a.at_ }) }

/-- The raft port; the indices that tokens and commands carry stay. -/
def Renumber.raft (r : Renumber) (x : RaftSt) : RaftSt :=
  { x with
    sent := x.sent.map (fun q => { q with sentAt := r.at_ q.sentAt })
    collects := x.collects.map (fun c => (c.1, r.at_ c.2))
    brk := x.brk.map (fun b => (b.1, r.at_ b.2.1, b.2.2))
    upSince := x.upSince.map r.at_
    wraps := x.wraps.map (fun w => { w with from_ := r.at_ w.from_ })
    outs := mapTbl x.outs (fun o => { outAt := r.at_ o.outAt, inAt := o.inAt.map r.at_ }) }

/-- The pair logic. -/
def Renumber.pair (r : Renumber) (p : PairSt) : PairSt :=
  { p with
    claimAt := r.at_ p.claimAt, stateAt := r.at_ p.stateAt, sentAt := r.at_ p.sentAt, pulseAt := r.at_ p.pulseAt, expect := p.expect.map r.at_
    checkAt := r.at_ p.checkAt, copyAt := r.at_ p.copyAt, log := p.log.map (fun l => (l.1, l.2.1, r.at_ l.2.2)) }

/-- The blocks of engine `x`: the coming block tick (`same`: the one that has just run) falls on the next new boundary. -/
def State.blockNumbers (s : State) (same : Bool) (new : Nat) (x : Engine) : Renumber :=
  ⟨x.bidx + (if same then s.nb else 2 * s.nb), roundUp new s.nb⟩

/-- The sample counter is loaded with `new` (R39). -/
def State.loadCounter (s : State) (new : Nat) : State :=
  let r : Renumber := ⟨s.sidx, new⟩
  let same := s.glb.lastBlock == s.sidx && new % s.nb == 0
  { s with
    sidx := new
    stgAt := mapTbl s.stgAt r.at_
    glb := r.glb same s.glb
    eng := mapTbl s.eng (fun x => r.engine (s.blockNumbers same new x) x)
    lnd := r.lnd s.lnd, out := r.out s.out, str := r.str s.str, net := r.net s.net, raft := r.raft s.raft, pair := r.pair s.pair
    tim := { s.tim with
      mapS := r.at_ s.tim.mapS, ppsAt := s.tim.ppsAt.map r.at_
      step := s.tim.step.map (fun p => { p with asked := r.at_ p.asked })
      join := s.tim.join.map (fun p => (p.1, r.at_ p.2)) }
    dac := { s.dac with refHold := s.dac.refHold.map r.at_, clrLow := s.dac.clrLow.map r.at_ }
    sup := { s.sup with clkAt := s.sup.clkAt.map r.at_ }
    tly := { s.tly with refill := mapTbl s.tly.refill r.at_ } }

end Sys2Proof.Machine
end

