-- ==== Sys2Proof/Machine/RaftBase.lean ====
section
/-! DEFINITION. The raft port's shared operations: identity, hops and paths, tokens (R257, R258, R264, R268-R272, R277,
R280, R281). -/

namespace Sys2Proof.Machine

/-! Identity and state (R12, R257, R258, R266) -/

def raftOff : Nat := 0
def raftForming : Nat := 1
def raftRun : Nat := 2
def raftWrapped : Nat := 3
def raftSplit : Nat := 4
def raftAlone : Nat := 5

def State.raftState (s : State) : Nat := s.fld RAFT_STAT.STATE

/-- The raft carries audio at this chip: RUN, WRAPPED or SPLIT. -/
def State.raftUp (s : State) : Bool := 2 ≤ s.raftState && s.raftState ≤ 4

def State.raftNo (s : State) : Nat := s.nodeId / 64
def State.raftPos (s : State) : Nat := s.nodeId % 64

def State.isMaster (s : State) : Bool := s.flag RAFT_CTL.MASTER

/-- The rings. -/
def State.ring (s : State) (r : Nat) : RingSt := if r = 0 then s.raft.east else s.raft.west
def State.setRing (s : State) (r : Nat) (x : RingSt) : State :=
  if r = 0 then { s with raft := { s.raft with east := x } } else { s with raft := { s.raft with west := x } }

/-- The link register of a role port, and its fields. -/
def linkAdr (west : Bool) : Nat := if west then RAFT_LINKW.adr else RAFT_LINKE.adr
def linkState (west : Bool) : Fld := if west then RAFT_LINKW.STATE else RAFT_LINKE.STATE
def linkCause (west : Bool) : Fld := if west then RAFT_LINKW.CAUSE else RAFT_LINKE.CAUSE
def State.linkUp (s : State) (west : Bool) : Bool := s.fld (linkState west) == 2

/-- A raft refusal (R283, R285). -/
def State.raftRefuse (s : State) (table cause index : Nat) : State :=
  let w : Word := BitVec.ofNat 32 (table * 2 ^ 30 + cause * 2 ^ 24 + index % 65536)
  (s.setReg RAFT_REFUSE.adr w).raise 0x83 0 w 0

/-- Slots per direction per hop (R36, R261). -/
def State.raftSlots (s : State) : Nat := 24576 / 2 ^ (s.fld GLB_RATE.RATE / 2)

/-! Hops and paths (R257, R264, R268-R272, R277) -/

def State.ringN (s : State) : Nat := s.fld RAFT_STAT.N
def State.ringIdx (s : State) : Nat := s.fld RAFT_STAT.RINDEX
def State.ringSum (s : State) : Nat := s.fld RAFT_STAT.SUM
def State.dhop (s : State) (r : Nat) : Nat := s.fld (RAFT_HOP.DHOP r)

/-- The ring index of a position. -/
def State.idxOf (s : State) (pos : Nat) : Option Nat :=
  (List.range s.ringN).find? (fun r => s.flag (RAFT_HOP.VALID r) && s.fld (RAFT_HOP.POS r) == pos)

/-- The hops from ring index `a` to ring index `b` along ring `r`. -/
def State.pathHops (s : State) (r a b : Nat) : List Nat :=
  let n := s.ringN
  if n = 0 then []
  else if r = 0 then (List.range ((b + n - a) % n)).map (fun i => (a + i) % n)
  else (List.range ((a + n - b) % n)).map (fun i => (a + 2 * n - 1 - i) % n)

/-- The delay of hops. -/
def State.hopsDelay (s : State) (l : List Nat) : Nat := l.foldl (fun d r => d + s.dhop r) 0

/-- The hops of this chip's segment when `lost` hops are lost, going east and going west. -/
def State.segEast (s : State) (lost : List Nat) : List Nat :=
  ((List.range s.ringN).map (fun i => (s.ringIdx + i) % s.ringN)).takeWhile (fun r => !lost.contains r)
def State.segWest (s : State) (lost : List Nat) : List Nat :=
  ((List.range s.ringN).map (fun i => (s.ringIdx + 2 * s.ringN - 1 - i) % s.ringN)).takeWhile (fun r => !lost.contains r)

/-- D_b: the delay of the hops that are not in this chip's segment (R276, R278). -/
def State.lostDelay (s : State) (lost : List Nat) : Nat :=
  let seg := s.segEast lost ++ s.segWest lost
  s.hopsDelay ((List.range s.ringN).filter (fun r => !seg.contains r))

/-- The chip at ring index `i` lies in this chip's segment. -/
def State.inSegment (s : State) (lost : List Nat) (i : Nat) : Bool :=
  i == s.ringIdx || (s.segEast lost).any (fun r => (r + 1) % s.ringN == i) || (s.segWest lost).contains i

/-- A along ring `r` from a head position to this chip, with the detours of `lost` hops; none where no path remains or the
head is not on the ring (R270, R277, R278). -/
def State.raftDelay (s : State) (lost : List Nat) (r head : Nat) : Option Nat :=
  match s.idxOf head with
  | none => none
  | some h =>
    let hops := s.pathHops r h s.ringIdx
    let a := s.hopsDelay hops
    if hops.any (fun x => lost.contains x) then
      if s.inSegment lost h then some (a + s.ringSum - 2 * s.lostDelay lost) else none
    else some a

/-! Slot entries (R268) -/

/-- Offset of the entry of slot `k` on ring `r`. -/
def slotOff (r k : Nat) : Nat := if r = 0 then RAFT_SLOTE.adr k else RAFT_SLOTW.adr k

/-- Fields of an entry. -/
def slotOp (w : Word) : Nat := bitsOf w 31 29
def slotHead (w : Word) : Nat := bitsOf w 28 23
def slotCh (w : Word) : Nat := bitsOf w 12 0

/-- The ring and slot of an offset of the slot tables. -/
def slotOfOff (off : Nat) : Option (Nat × Nat) :=
  if 0x610000 ≤ off ∧ off < 0x630000 then some (0, (off - 0x610000) / 4)
  else if 0x630000 ≤ off ∧ off < 0x650000 then some (1, (off - 0x630000) / 4) else none

/-- The entries in force that are not zero: ring, slot, word. -/
def State.slotEntries (s : State) : List (Nat × Nat × Word) :=
  s.regs.filterMap (fun p => (slotOfOff p.1).map (fun t => (t.1, t.2, p.2)))

/-- Protection of a slot index: 0 unused, 1 east-going, 2 west-going, 3 unprotected (RAFT_XPROT). -/
def State.prot (s : State) (k : Nat) : Nat := bitsOf (s.reg (RAFT_XPROT.adr (k / 16))) (2 * (k % 16) + 1) (2 * (k % 16))

/-! Tokens (R280, R281) -/

/-- Own tokens enter a queue of 16; a full queue raises RAFT_TOKEN_QFULL. -/
def State.queueTok (s : State) (r : Nat) (t : RTok) : State × Bool :=
  let x := s.ring r
  if 16 ≤ x.tq.length then (s.raiseN2 0x90 r r 0, false) else (s.setRing r { x with tq := x.tq ++ [t] }, true)

/-- The queue of ring `r` has room for `n` tokens; if not, RAFT_TOKEN_QFULL is raised. -/
def State.tokRoom (s : State) (r n : Nat) : State × Bool :=
  if (s.ring r).tq.length + n ≤ 16 then (s, true) else (s.raiseN2 0x90 r r 0, false)

/-- Originates a token; broadcasts and barriers are watched until they return. -/
def State.sendTok (s : State) (r typ pay : Nat) (h : Option Nat) : State :=
  let t : RTok := ⟨typ, s.raftPos, s.raft.seq, pay⟩
  let s := { s with raft := { s.raft with seq := (s.raft.seq + 1) % 16 } }
  let (s, ok) := s.queueTok r t
  if ok && 1 ≤ typ && typ ≤ 3 then
    { s with raft := { s.raft with sent := s.raft.sent ++ [⟨t, r, s.sidx, 0, h⟩] } }
  else s

/-- A broadcast of kind `kind` (R281). -/
def State.broadcast (s : State) (kind rest : Nat) (h : Option Nat) : State := s.sendTok 0 1 (kind * 2 ^ 60 + rest) h

/-- A SYSTEM commit by time that this chip has converted goes round the raft (R281); false where the queue is full. -/
def State.raftCommitOut (s : State) (buf idx policy : Nat) (auto : Bool) : State × Bool :=
  if !s.raftUp then (s, true)
  else
    let (s, ok) := s.tokRoom 0 1
    if ok then (s.broadcast 1 (buf * 2 ^ 54 + 2 ^ 53 + policy * 2 ^ 51 + b2n auto * 2 ^ 50 + idx % 2 ^ 48) none, true)
    else (s, false)

/-- The full index that a 48-bit field names: the nearest to the own counter (R281). -/
def State.index48 (s : State) (i : Nat) : Nat := (((s.sidx : Nat) : Int) + toSigned 48 (i + 2 ^ 48 - s.sidx % 2 ^ 48)).toNat

/-! The CRC of the control word (R262) -/

/-- CRC-16 over the `n` most significant bits of a number of `total` bits, most significant first. -/
def crc16 (total v : Nat) : Nat → Nat → Nat
  | 0, c => c
  | n + 1, c =>
    let b := v / 2 ^ (total - 1 - (total - 16 - (n + 1))) % 2
    let f := (c / 2 ^ 15 + b) % 2
    let c := c * 2 % 2 ^ 16
    crc16 total v n (if f = 1 then Nat.xor c 0x1021 else c)

/-! The CRC of the slots (R261): that of IEEE 802.3, in the reflected form, over the packed words with the low bits first
(DEDUCED, log entry 50). Slots of zero are passed over by the power of x that they shift by. -/

/-- The product of two polynomials modulo that of the CRC, over the bits of `a` from the highest. -/
def crcMul (a : Nat) : Nat → Nat → Nat → Nat
  | 0, _, p => p
  | n + 1, b, p =>
    crcMul a n (if b % 2 = 1 then Nat.xor (b / 2) 0xEDB88320 else b / 2) (if a / 2 ^ n % 2 = 1 then Nat.xor p b else p)

/-- x to the power `k`; `b` is x to the power 2^i of the fuel spent. -/
def crcPow : Nat → Nat → Nat → Nat → Nat
  | 0, _, _, p => p
  | n + 1, k, b, p => crcPow n (k / 2) (crcMul b 32 b 0) (if k % 2 = 1 then crcMul p 32 b 0 else p)

/-- The CRC register after `k` further bits of zero. -/
def crcZeros (k c : Nat) : Nat := crcMul (crcPow 32 k (2 ^ 30) (2 ^ 31)) 32 c 0

/-- The CRC register after the `n` low bits of `v`, the lowest first. -/
def crcBits : Nat → Nat → Nat → Nat
  | 0, _, c => c
  | n + 1, v, c => crcBits n (v / 2) (if (c + v) % 2 = 1 then Nat.xor (c / 2) 0xEDB88320 else c / 2)

/-- The CRC-32 of `n` slots with these words. -/
def slotCrc (n : Nat) (words : Tbl Int) : Nat :=
  let c := words.foldl (fun (c : Nat × Nat) w => (w.1 + 1, crcBits 40 (ofSigned 40 w.2) (crcZeros (40 * (w.1 - c.1)) c.2))) (0, 2 ^ 32 - 1)
  Nat.xor (crcZeros (40 * (n - c.1)) c.2) (2 ^ 32 - 1)

/-! The control word (R262) -/

/-- The CRC over bits [255:16] of a control word. -/
def cwCrc (v : Nat) : Nat := crc16 256 v 240 0xFFFF

/-- Bits [hi:lo] of a control word or a payload. -/
def cwBits (v hi lo : Nat) : Nat := v / 2 ^ lo % 2 ^ (hi + 1 - lo)

end Sys2Proof.Machine
end

