-- ==== Sys2Proof/Machine/Ref.lean ====
section
/-! DEFINITION. Reference candidates, their monitors, selection and the DPLL (R308-R324). -/

namespace Sys2Proof.Machine

/-- A change of the reference state beside its registers. -/
def State.onRef (s : State) (f : RefSt → RefSt) : State := { s with ref := f s.ref }

/-- DPLL states (REF_STAT.STATE) and bandwidths (REF_STAT.BW). -/
def dpllFreeRun : Nat := 0
def dpllAcquiring : Nat := 1
def dpllLocked : Nat := 2
def dpllHoldover : Nat := 3
def dpllLost : Nat := 4
def bw100 : Nat := 0
def bw10 : Nat := 1
def bw01 : Nat := 2
def bwNone : Nat := 3

def State.dpll (s : State) : Nat := s.fld REF_STAT.STATE
def State.refCur (s : State) : Nat := s.fld REF_STAT.CUR
def State.candOf (s : State) (c : Nat) : CandSt := Tbl.get (fun _ => CandSt.reset) s.ref.cands c
def State.setCand (s : State) (c : Nat) (x : CandSt) : State :=
  s.onRef (fun r => { r with cands := Tbl.put (fun _ => CandSt.reset) r.cands c x })

/-! Eligibility and quality (R308-R313) -/

/-- A bit of an 11-bit candidate mask. -/
def candBit (m c : Nat) : Bool := m / 2 ^ c % 2 == 1

/-- A candidate is qualified. -/
def State.qualified (s : State) (c : Nat) : Bool := candBit (s.fld REF_CSTAT.QUALIFIED) c

/-- A candidate bit of REF_CSTAT is set or cleared. -/
def State.setCandBit (s : State) (f : Fld) (c : Nat) (b : Bool) : State :=
  let m := s.fld f
  s.setFld f (m - m / 2 ^ c % 2 * 2 ^ c + b2n b * 2 ^ c)

/-- The raft role leaves a candidate selectable (R310). -/
def State.selectable (s : State) (c : Nat) : Bool :=
  if s.isMaster then c != 5 && c != 6 else if s.flag RAFT_CTL.EN then c == 5 || c == 6 else true

/-- Eligible: enabled, qualified and selectable. -/
def State.eligible (s : State) (c : Nat) : Bool := s.flag (REF_XCAND.EN c) && s.qualified c && s.selectable c

/-- Quality of a PTP master by clockClass (R309). -/
def classQuality (k : Nat) : Nat :=
  if k = 6 then 250 else if k = 13 then 230 else if k = 7 then 180 else if k = 14 then 170
  else if k = 52 ∨ k = 58 then 150 else if 150 ≤ k ∧ k ≤ 165 then 140 else if k = 187 ∨ k = 193 then 120
  else if k = 248 then 100 else if k = 255 then 20 else 50

/-- The servo of the time counter follows PTP, and it has a master in use. -/
def State.hasMaster (s : State) : Bool := s.fld TIM_XSERVO.SRC == 0 && s.tim.gm.isSome && s.fld TIM_STAT.STATE != 3

/-- The servo of the time counter follows PTP and has no master (R308, R309). -/
def State.masterless (s : State) : Bool := s.fld TIM_XSERVO.SRC == 0 && !s.hasMaster

/-- The quality that a candidate's own source gives now, where it does not come from QUAL (R308, R309). Where no PTP master is
in use, NET's is 0 (DEDUCED for a servo that does not follow PTP, log entry 60). -/
def State.sourceQuality (s : State) (c : Nat) : Nat :=
  if c = 4 then (if s.hasMaster then (s.tim.gm.map (fun g => classQuality g.2)).getD 0 else 0)
  else if s.linkUp (c == 6) && s.flag RAFT_STAT.MV then s.raft.qual else 0

/-- The quality comes from the candidate's own source. -/
def State.ownQuality (s : State) (c : Nat) : Bool := decide (4 ≤ c ∧ c ≤ 6) && !s.flag (REF_XCAND.QSW c)

/-- The quality that selection acts on (R313). -/
def State.quality (s : State) (c : Nat) : Nat :=
  if s.ownQuality c then (s.candOf c).qual else s.fld (REF_XCAND.QUAL c)

/-- The best of a list by a key, the first of equals. -/
def bestBy (key : Nat → Nat) (l : List Nat) : Option Nat :=
  l.foldl (fun b c => match b with
    | none => some c
    | some d => if key c < key d then some c else some d) none

/-- The raft candidate on the ring that reaches the master in fewer hops, ties to the east-going ring (R265, R310); the other one
where only its path is whole (R277). -/
def State.raftChoice (s : State) : Nat :=
  match s.idxOf s.raft.mpos with
  | some m =>
    let path (r : Nat) : List Nat := s.pathHops r m s.ringIdx
    let whole (r : Nat) : Bool := (path r).all (fun h => !s.raft.lost.contains h)
    let r := if (path 0).length ≤ (path 1).length then 0 else 1
    if whole r || !whole (1 - r) then 6 - r else 5 + r
  | none => 6

/-- The candidate that the policy chooses; none under STEER and when nothing is eligible (R310, R313). -/
def State.refChoice (s : State) : Option Nat :=
  let pol := s.fld REF_XSEL.POLICY
  let src := s.fld REF_XSEL.SRC
  let others := (rangeFrom 1 10).filter s.eligible
  let prio (c : Nat) : Nat := s.fld (REF_XCAND.PRIO c)
  if s.flag RAFT_CTL.EN && !s.isMaster && pol != 3 then
    let a := s.raftChoice
    if s.eligible a then some a else if s.eligible (11 - a) then some (11 - a) else none
  else if pol = 0 then if s.eligible src then some src else bestBy prio others
  else if pol = 1 then
    let good := others.filter (fun c => decide (0 < s.quality c))
    if !s.flag REF_XSEL.REVERT && others.contains s.refCur && (s.dpll == dpllLocked || s.dpll == dpllAcquiring) then some s.refCur
    else bestBy (fun c => (255 - s.quality c) * 16 + prio c) good
  else if pol = 2 then if s.eligible src then some src else none
  else none

/-! The DPLL (R314-R320) -/

/-- The loop bandwidth changes (R314). -/
def State.setBw (s : State) (bw : Nat) : State :=
  if s.fld REF_STAT.BW = bw then s
  else
    let s := s.setFld REF_STAT.BW bw
    s.raise 0xC2 s.refCur (BitVec.ofNat 32 s.refCur) 0

/-- The advertised quality follows the state (R320); a raft master sends it. -/
def State.advertise (s : State) : State :=
  let q := if s.dpll = dpllLocked then s.quality s.refCur
    else if s.dpll = dpllHoldover then min s.ref.holdQ (s.fld REF_XHOLD.HOLDQ)
    else if s.dpll = dpllLost then 0 else s.fld (REF_XCAND.QUAL 0)
  let s := s.setFld REF_STAT.QADV q
  if s.isMaster then { s with raft := { s.raft with qual := q } } else s

/-- The mean of the history: at most 60 s, without the final second (R315). -/
def histMean (h : List Int) : Int × Nat :=
  let l := (h.drop 1).take 60
  if l.isEmpty then (0, 0) else (rneDiv (l.foldl (fun a b => a + b) 0) l.length, l.length)

/-- REF_HAVG shows the holdover frequency. -/
def State.showHist (s : State) : State :=
  let m := histMean s.ref.hist
  (s.onRef (fun r => { r with havg := m.1 })).setReg REF_HAVG_LO.adr (BitVec.ofNat 32 (ofSigned 40 m.1))

/-- The DPLL enters ACQUIRING: the history is cleared, and the bandwidth is 100 Hz, or 0.1 Hz for PPS. Out of FREE_RUN the
acquisition may be fast (R316). -/
def State.acquire (s : State) : State :=
  let s := (s.setFld REF_STAT.STATE dpllAcquiring).onRef (fun r => { r with hist := [], fast := s.dpll == dpllFreeRun })
  (s.setBw (if s.refCur = 3 then bw01 else bw100)).showHist

/-- Nothing is eligible: HOLDOVER with at least 10 s of history, else LOST (R315). -/
def State.loseRef (s : State) : State :=
  let m := histMean s.ref.hist
  let cur := s.refCur
  let q := s.quality cur
  let s := ((s.setFld REF_STAT.SWITCHING 0).setFld REF_STAT.NEXT 15).setFld REF_STAT.PULLIN 0
  let enough := decide (10 ≤ m.2)
  let s := (s.setFld REF_STAT.STATE (if enough then dpllHoldover else dpllLost)).setBw bwNone
  let s := (s.setFld REF_STAT.CUR 15).onRef (fun r => { r with holdAt := s.glb.up, holdQ := q })
  if enough then (s.bump REF_HOLD_CNT.adr).raise 0xC6 cur (BitVec.ofNat 32 cur) 0
  else s.raise 0xC7 cur (BitVec.ofNat 32 cur) 0

/-- A switch to another candidate begins: the DCO holds for 100 ms, and a pull-in ends where it stands (R317). -/
def State.startSwitch (s : State) (c : Nat) : State :=
  let old := s.refCur
  let s := ((s.setFld REF_STAT.SWITCHING 1).setFld REF_STAT.NEXT c).setFld REF_STAT.PULLIN 0
  let s := s.onRef (fun r => { r with switchAt := s.glb.up, steer := false })
  (s.bump REF_SWITCH_CNT.adr).raiseN2 0xC0 c c old

/-- The DPLL runs free, with XTAL or under STEER (R315). -/
def State.freeRun (s : State) (c : Nat) (steer : Bool) : State :=
  let old := s.refCur
  let s := ((s.setFld REF_STAT.SWITCHING 0).setFld REF_STAT.NEXT 15).setFld REF_STAT.PULLIN 0
  let s := ((s.setFld REF_STAT.STATE dpllFreeRun).setBw bwNone).setFld REF_STAT.CUR c
  (s.onRef (fun r => { r with steer := steer })).raiseN2 0xC0 c c old

/-- A switch whose target is lost finds no other candidate (R318); HOLDOVER is not entered again out of itself. -/
def State.dropSwitch (s : State) : State :=
  if s.dpll = dpllHoldover then ((s.setFld REF_STAT.SWITCHING 0).setFld REF_STAT.NEXT 15).setFld REF_STAT.CUR 15 else s.loseRef

/-- Selection is made again (R310, R313, R315, R318). A switch in progress completes first, whatever the registers now say. -/
def State.refSelect (s : State) : State :=
  let busy := s.flag REF_STAT.SWITCHING
  let s :=
    if busy && s.eligible (s.fld REF_STAT.NEXT) then s
    else if s.fld REF_XSEL.POLICY = 3 then (if s.ref.steer then s else s.freeRun 15 true)
    else
      match s.refChoice with
        | none =>
          if busy then s.dropSwitch
          else if s.dpll == dpllLocked || s.dpll == dpllAcquiring then s.loseRef
          else if s.ref.steer then s.onRef (fun r => { r with steer := false }) else s
        | some 0 => if s.refCur = 0 ∧ s.dpll = dpllFreeRun then s else s.freeRun 0 false
        | some c => if c = s.refCur ∧ !busy ∧ (s.dpll = dpllLocked ∨ s.dpll = dpllAcquiring) then s else s.startSwitch c
  s.advertise

/-- A candidate is disqualified (R311); the choice is made by the caller. -/
def State.disqBit (s : State) (c cause : Nat) : State :=
  let q := s.qualified c
  let s := s.setCand c { s.candOf c with good := 0, bad := 0, ever := q || (s.candOf c).ever }
  if q then ((s.setCandBit REF_CSTAT.QUALIFIED c false).bump (REF_DISQ_CNT.adr c)).raiseN2 0xC4 c c cause else s

/-- A candidate is disqualified, and the choice is made again. One that is not qualified only starts its windows afresh. -/
def State.disqualify (s : State) (c cause : Nat) : State :=
  if s.qualified c then (s.disqBit c cause).refSelect else s.disqBit c cause

/-- The signal condition of a candidate that the device itself sees (R308); true for those that only the pin shows. -/
def State.signalLost (s : State) (c : Nat) : Bool :=
  if c = 0 then false
  else if c = 4 then s.flag TIM_STAT.DIV || s.masterless
  else if c = 5 ∨ c = 6 then !s.linkUp (c == 6) || !s.flag RAFT_STAT.MV
  else if 7 ≤ c then s.fld (TDM_STAT.STATE (s.fld (REF_XCAND.PORT c))) != 2 else true

/-- REF_LOSS_OF_SIGNAL: the window in progress will not count. -/
def execRefLossOfSignal (c : Fin 11) (s : State) : Host.Outcome State Fault Refusal :=
  .next (if s.flag (REF_XCAND.EN c.val) ∧ s.signalLost c.val then
    (s.setCand c.val { s.candOf c.val with cut := true }).disqualify c.val 2
  else s)

/-- REF_PHASE_HIT at the selected candidate. -/
def execRefPhaseHit (c : Fin 11) (s : State) : Host.Outcome State Fault Refusal :=
  .next (if c.val = s.refCur ∧ c.val ≠ 0 then s.disqualify c.val 3 else s)

/-- A window of candidate `c` counts: no loss of signal has interrupted it. The pins of candidates 1-3 give no measurement while
their signal is lost. -/
def State.windowWhole (s : State) (c : Nat) : Bool := !(s.candOf c).cut && (decide (c < 4) || !s.signalLost c)

/-- The window's offset is shown, and DEGRADED follows it (R311). -/
def State.candMeasured (s : State) (c : Nat) (ppt : Int) : State :=
  let far := decide (s.fld (REF_XCAND.TOL c) * 800000 < ppt.natAbs * 10)
  let was := candBit (s.fld REF_CSTAT.DEGRADED) c
  let s := (s.onRef (fun r => { r with meas := Tbl.insert r.meas c ppt })).setReg (REF_MEAS_LO.adr c) (BitVec.ofNat 32 (ofSigned 40 ppt))
  let s := s.setCandBit REF_CSTAT.DEGRADED c far
  if far && !was then s.raise 0xC3 c (BitVec.ofNat 32 c) 0 else s

/-- The counts of consecutive windows within and beyond TOL (R311). XTAL is always qualified. -/
def State.candCounted (s : State) (c : Nat) (within : Bool) : State :=
  let x := s.candOf c
  let y : CandSt := { x with good := if within then x.good + 1 else 0, bad := if within then 0 else x.bad + 1 }
  let s := s.setCand c y
  if c = 0 then s
  else if s.qualified c then (if 3 ≤ y.bad then s.disqualify c 1 else s)
  else if (if y.ever then s.fld (REF_XCAND.WTR c) else 2) ≤ y.good then
    ((s.setCandBit REF_CSTAT.QUALIFIED c true).raise 0xC5 c (BitVec.ofNat 32 c) 0).refSelect
  else s

/-- One candidate's window of 1 s (R311): `ppt` is the offset. -/
def State.candWindow (s : State) (c : Nat) (ppt : Int) : State :=
  if !s.flag (REF_XCAND.EN c) || !s.windowWhole c then s
  else (s.candMeasured c ppt).candCounted c (decide (ppt.natAbs ≤ s.fld (REF_XCAND.TOL c) * 100000))

/-- The change of the DCO offset that one second allows, in ppt (R316): SLEW, or 1,000 ppm in a fast acquisition. -/
def State.slewLimit (s : State) : Nat :=
  if s.flag REF_XLOOP.FASTACQ ∧ s.mode ≤ 1 ∧ s.dpll = dpllAcquiring ∧ s.ref.fast then 1000000000
  else s.fld REF_XLOOP.SLEW * 1000

/-- A DCO offset within the span of R316. -/
def dcoSpan (x : Int) : Int := max (-500000000) (min 500000000 x)

/-- The offset to which the DCO moves (R314, R316): that of the loop, REF_XDCO, 0 or the holdover frequency; none where it holds
its frequency. -/
def State.dcoTarget (s : State) (loop : Int) : Option Int :=
  if s.flag REF_STAT.SWITCHING ∨ s.dpll = dpllLost then none
  else if s.dpll = dpllLocked ∨ s.dpll = dpllAcquiring then some (dcoSpan loop)
  else if s.dpll = dpllHoldover then some s.ref.havg
  else if s.ref.steer then some (dcoSpan (toSigned 40 ((s.reg REF_XDCO_LO.adr).toNat + 2 ^ 32 * s.fld REF_XDCO_HI.HI)))
  else some 0

/-- The DCO offset one second later: it moves to its target at no more than the slew limit (R312, R316). -/
def State.dcoStep (s : State) (loop : Int) : Int :=
  match s.dcoTarget loop with
  | none => s.ref.dco
  | some t =>
    let lim : Int := ((s.slewLimit : Nat) : Int)
    max (s.ref.dco - lim) (min (s.ref.dco + lim) t)

/-- The phase error in ps that REF_PHERR shows: the phase of the candidate against ACLK, less the build-out offset. -/
def State.phaseError (s : State) (phase : Int) : Word :=
  BitVec.ofNat 32 (ofSigned 32 (max (-2147483647) (min 2147483647 (phase - s.ref.build))))

/-- The DCO at the end of a second: its offset, and the history of the seconds spent LOCKED (R315, R316). -/
def State.dcoWindow (s : State) (loop phase : Int) (slewing : Bool) : State :=
  let v := s.dcoStep loop
  let held := match s.dcoTarget loop with
    | none => false
    | some t => slewing || t != v
  let s := s.onRef (fun r => { r with dco := v, hist := if s.dpll = dpllLocked then (v :: r.hist).take 61 else r.hist })
  let s := (s.setReg REF_DCO_LO.adr (BitVec.ofNat 32 (ofSigned 40 v))).setReg REF_PHERR.adr (s.phaseError phase)
  let s := s.setFld REF_STAT.SLEWING (b2n held)
  if s.dpll = dpllHoldover then s else s.showHist

/-- WCLK_OUT in the first or the second half of the current sample (R321): it is high in the first half of its period of one
sample, or of the samples from one multiple of 1 / F to the next. -/
def State.wclkOut (s : State) (second : Bool) : Bool :=
  let p := if s.ref.wco = 2 then s.fs / (if s.fs % 48000 = 0 then 48000 else 44100) else 1
  s.mode != 0 && s.ref.wco != 0 && decide (2 * (s.sidx % p) + b2n second < p)

/-- A monitor window: the offsets measured, the DCO offset that the loop asks for, the phase of the candidate followed in ps,
and whether the limit has held the DCO back within the second. The DCO's second belongs to the state before the
candidates are judged. A new window begins. -/
def State.monitorWindow (s : State) (meas : List RefMeas) (dco : BitVec 40) (phase : BitVec 64) (slewing : Bool) : State :=
  let s := s.dcoWindow dco.toInt phase.toInt slewing
  let s := meas.foldl (fun s m => s.candWindow m.c.val m.off.toInt) s
  (s.onRef (fun r => { r with cands := mapTbl r.cands (fun x => { x with cut := false }) })).refSelect

/-- REF_MONITOR_WINDOW. While XCLK is faulted the window is discarded and the DPLL holds its last frequency (R448). -/
def execRefMonitorWindow (meas : List RefMeas) (dco : BitVec 40) (phase : BitVec 64) (slewing : Bool) (s : State) :
    Host.Outcome State Fault Refusal :=
  .next (if s.sup.clkAt.isSome then s else s.monitorWindow meas dco phase slewing)

/-- The part of a phase in ps that lies beyond the nearest sample tick: at most half a sample. -/
def State.toTick (s : State) (ps : Int) : Int :=
  let x := ps * ((s.fs : Nat) : Int)
  let n := rneDiv x 1000000000000
  ps - rneDiv (n * 1000000000000) s.fs

/-- REF_SWITCH_END: 100 ms after its start the loop closes on the new candidate, whose mean phase against ACLK over the 100 ms
was `phase` ps (R317). With PHALIGN = 1 the offset counts from the nearest phase point, and it is then removed. -/
def execRefSwitchEnd (phase : BitVec 64) (s : State) : Host.Outcome State Fault Refusal :=
  .next (if !s.flag REF_STAT.SWITCHING ∨ s.glb.up * 10 < s.ref.switchAt * 10 + s.fs then s
  else
    let c := s.fld REF_STAT.NEXT
    let s := ((s.setFld REF_STAT.SWITCHING 0).setFld REF_STAT.NEXT 15).setFld REF_STAT.CUR c
    let pull := s.flag (REF_XCAND.PHALIGN c)
    let off := if pull then s.toTick phase.toInt else phase.toInt
    let s := s.setFld REF_STAT.PULLIN (b2n (pull && off != 0))
    let s := s.onRef (fun r => { r with switchAt := s.glb.up, settleAt := s.glb.up, build := off })
    let s := if s.dpll = dpllLocked then s.setBw (if c = 3 then bw01 else bw10)
      else if s.dpll = dpllAcquiring then s.setBw (if c = 3 then bw01 else bw10) else s.acquire
    s.refSelect)

/-- REF_LOCKED (R315). -/
def execRefLocked (s : State) : Host.Outcome State Fault Refusal :=
  .next (if s.dpll = dpllAcquiring ∧ !s.flag REF_STAT.SWITCHING then
    let s := (s.setFld REF_STAT.STATE dpllLocked).setBw (if s.refCur = 3 then bw01 else bw10)
    let s := s.onRef (fun r => { r with settleAt := s.glb.up })
    (s.raise 0xC1 s.refCur (BitVec.ofNat 32 s.refCur) 0).advertise
  else s)

/-- REF_BW_STEP: a large phase error for 1 s returns a locked DPLL to ACQUIRING (R315). -/
def execRefBwStep (s : State) : Host.Outcome State Fault Refusal :=
  .next (if s.dpll = dpllLocked ∧ !s.flag REF_STAT.SWITCHING then
    let same := s.refCur == 3
    let s := s.acquire
    (if same then s.raise 0xC2 s.refCur (BitVec.ofNat 32 s.refCur) 0 else s).advertise
  else s)

/-- REF_SETTLE_END: SETTLE seconds after LOCKED or a switch (R314). -/
def execRefSettleEnd (s : State) : Host.Outcome State Fault Refusal :=
  .next (if s.dpll = dpllLocked ∧ s.fld REF_STAT.BW = bw10 ∧ s.ref.settleAt + s.fld REF_XLOOP.SETTLE * s.fs ≤ s.glb.up then
    s.setBw bw01 else s)

/-- An offset of `off` ps can have been removed in `n` samples: at the slew limit the frequency rises for half of the way and
falls for the other half, which takes 2 sqrt(off / limit) seconds (R316, R317). -/
def State.pulledIn (s : State) (off : Int) (n : Nat) : Bool := decide (4 * off.natAbs * s.fs ^ 2 ≤ s.slewLimit * n ^ 2)

/-- REF_PULLIN_END: the build-out offset has been removed (R317). -/
def execRefPullinEnd (s : State) : Host.Outcome State Fault Refusal :=
  .next (if s.flag REF_STAT.PULLIN ∧ s.pulledIn s.ref.build (s.glb.up - s.ref.switchAt) then
    (s.setFld REF_STAT.PULLIN 0).onRef (fun r => { r with build := 0 })
  else s)

/-- REF_LOST: HMAX minutes of HOLDOVER have passed (R315). -/
def execRefLost (s : State) : Host.Outcome State Fault Refusal :=
  .next (if s.dpll = dpllHoldover ∧ s.ref.holdAt + s.fld REF_XHOLD.HMAX * 60 * s.fs ≤ s.glb.up then
    ((s.setFld REF_STAT.STATE dpllLost).raise 0xC7 15 15 0).advertise else s)

/-- REF_QUAL_CHANGED: a new quality of a candidate has held for 2 s (R313). -/
def execRefQualChanged (c : Fin 11) (s : State) : Host.Outcome State Fault Refusal :=
  let c := c.val
  .next (if s.ownQuality c ∧ s.sourceQuality c ≠ (s.candOf c).qual then
    let s := s.setCand c { s.candOf c with qual := s.sourceQuality c }
    (if c = s.refCur then s.raise 0xC9 c (BitVec.ofNat 32 c) 0 else s).refSelect
  else s)

/-- A read of a LO word latches the HI word (R322). -/
def State.refLoRead (s : State) (r : RefLo) : State :=
  let hi (v : Int) : Nat := ofSigned 40 v / 2 ^ 32
  match r with
  | .dco => s.setReg REF_DCO_HI.adr (BitVec.ofNat 32 (hi s.ref.dco))
  | .meas c =>
    s.setReg (REF_MEAS_HI.adr c.val) (match Tbl.find s.ref.meas c.val with
      | some v => BitVec.ofNat 32 (2 ^ 31 + hi v)
      | none => 0)
  | .havg =>
    let n := (histMean s.ref.hist).2
    s.setReg REF_HAVG_HI.adr (BitVec.ofNat 32 (b2n (decide (10 ≤ n)) * 2 ^ 31 + n * 2 ^ 16 + hi s.ref.havg))

/-- REF_LO_READ. -/
def execRefLoRead (r : RefLo) (s : State) : Host.Outcome State Fault Refusal := .next (s.refLoRead r)

/-! Registers (R319, R322, R323) -/

/-- REF_REFUSED with the offset and the cause: 1 range, 2 candidate. -/
def State.refRefuse (s : State) (c off cause : Nat) : State := s.raiseN2 0xC8 c off cause

/-- A nominal rate code that names a rate outside the family, or is reserved (R322, R323). -/
def State.nrateBad (s : State) (r : Nat) : Bool := r == 6 || (r < 6 && r % 2 != s.fld GLB_RATE.RATE % 2)

/-- A candidate's first word as stored: PHALIGN fixed for 4-6, QSW writable for 4-6 only. -/
def candWord0 (c : Nat) (v : Word) : Word :=
  let v := setBits (setBits v 28 28 0) 15 13 0
  if 4 ≤ c ∧ c ≤ 6 then setBits v 30 30 1 else setBits v 29 29 1

/-- A candidate's second word as stored: PORT for 7-10 only, NRATE for 1 only. -/
def candWord1 (c : Nat) (v : Word) : Word :=
  let v := setBits (setBits (setBits v 31 26 0) 15 13 0) 7 3 0
  let v := if 7 ≤ c then v else setBits v 12 8 0
  if c = 1 then v else setBits v 2 0 7

/-- New words of a candidate take effect: its window count restarts where EN, TOL or WTR change. The caller makes the choice. -/
def State.setCandWords (s : State) (c : Nat) (w0 w1 : Word) : State :=
  let o0 := s.reg (REF_XCAND.adr c)
  let o1 := s.reg (REF_XCAND.adr c + 4)
  let s := (s.setReg (REF_XCAND.adr c) w0).setReg (REF_XCAND.adr c + 4) w1
  let x := s.candOf c
  let s := if bitOf o0 31 != bitOf w0 31 || bitsOf o0 12 0 != bitsOf w0 12 0 || bitsOf o1 25 16 != bitsOf w1 25 16 then
      s.setCand c { x with good := 0, bad := 0, ever := if bitOf w0 31 && !bitOf o0 31 then false else x.ever }
    else s
  if !bitOf w0 31 then
    if c = s.refCur ∧ c ≠ 0 then s.disqBit c 2 else s.setCandBit REF_CSTAT.QUALIFIED c false
  else if c = 0 then s.setCandBit REF_CSTAT.QUALIFIED 0 true else s

/-- The effect of a write of word `w` of REF_XCANDc. -/
def State.xcandWrite (s : State) (c w : Nat) (v : Word) : State :=
  let off := REF_XCAND.adr c + 4 * w
  if w = 0 then
    if bitsOf v 12 0 = 0 ∨ 5000 < bitsOf v 12 0 then s.refRefuse c off 1
    else (s.setCandWords c (candWord0 c v) (s.reg (REF_XCAND.adr c + 4))).refSelect
  else
    let v := candWord1 c v
    if bitsOf v 25 16 = 0 ∨ 600 < bitsOf v 25 16 ∨ s.nrateBad (bitsOf v 2 0) then s.refRefuse c off 1
    else (s.setCandWords c (s.reg (REF_XCAND.adr c)) v).refSelect

/-- REF_XCAND_WRITE. -/
def execRefXcandWrite (c : Fin 11) (w : Fin 2) (v : Word) (s : State) : Host.Outcome State Fault Refusal :=
  .next (s.hostWrite (REF_XCAND.adr c.val + 4 * w.val) (fun s => s.xcandWrite c.val w.val v))

/-- The Expert registers as REF_SEL sets them (R322). -/
def State.refBasic (s : State) : State :=
  let v := s.reg REF_SEL.adr
  let s := s.setReg REF_XSEL.adr (BitVec.ofNat 32 (2 ^ 29 + bitsOf v 9 8 * 2 ^ 8 + bitsOf v 3 0))
  let s := (s.setReg REF_XLOOP.adr (regReset REF_XLOOP.adr)).setReg REF_XHOLD.adr (regReset REF_XHOLD.adr)
  let s := (List.range 11).foldl (fun s c =>
    let w0 := regReset (REF_XCAND.adr c)
    let w1 := regReset (REF_XCAND.adr c + 4)
    let w0 := if c = 7 then setBits w0 31 31 (b2n (bitsOf v 3 0 == 7)) else w0
    let w1 := if c = 1 then setBits w1 2 0 (bitsOf v 18 16) else if c = 7 then setBits w1 12 8 (bitsOf v 14 10) else w1
    s.setCandWords c w0 w1) s
  s.refSelect

/-- The effect of a write of REF_SEL. -/
def State.refSel (s : State) (v : Word) : State :=
  let v := setBits (setBits (setBits v 31 19 0) 15 15 0) 7 4 0
  if 11 ≤ bitsOf v 3 0 then s.refRefuse (bitsOf v 3 0) REF_SEL.adr 2
  else if bitsOf v 9 8 = 3 ∨ s.nrateBad (bitsOf v 18 16) then s.refRefuse (bitsOf v 3 0) REF_SEL.adr 1
  else (s.setReg REF_SEL.adr v).refBasic

/-- REF_SEL_WRITE. -/
def execRefSelWrite (v : Word) (s : State) : Host.Outcome State Fault Refusal :=
  .next (s.hostWrite REF_SEL.adr (fun s => s.refSel v))

/-- Writes to the other Expert registers of the block (R322, R323). -/
def State.refRegWrite (s : State) (off : Nat) (v : Word) : Option State :=
  if off = REF_XSEL.adr then
    some (if 11 ≤ bitsOf v 3 0 then s.refRefuse (bitsOf v 3 0) off 2
    else if bitsOf v 9 8 = 3 then s.refRefuse (bitsOf v 3 0) off 1
    else (s.setReg off (setBits (setBits v 28 10 0) 7 4 0)).refSelect)
  else if off = REF_XLOOP.adr then
    some (if bitsOf v 30 19 = 0 ∨ 3600 < bitsOf v 30 19 ∨ bitsOf v 13 0 = 0 ∨ 10000 < bitsOf v 13 0 then s.refRefuse s.refCur off 1
    else s.setReg off (setBits v 18 14 0))
  else if off = REF_XHOLD.adr then
    some (if bitsOf v 31 16 = 0 then s.refRefuse s.refCur off 1 else (s.setReg off (setBits v 15 8 0)).advertise)
  else if off = REF_XDCO_HI.adr then
    let x := toSigned 40 ((s.reg REF_XDCO_LO.adr).toNat + 2 ^ 32 * bitsOf v 7 0)
    some (if x < -500000000 ∨ 500000000 < x then s.refRefuse 15 off 1 else s.setReg off (setBits v 31 8 0))
  else none

end Sys2Proof.Machine
end

