-- ==== Sys2Proof/Machine/RouteKerf.lean ====
section
/-! DEFINITION. Routes and route kerfs: table writes, route commands, their application, and the ends of kerfs
(R144-R150, R161, R170-R175). -/

namespace Sys2Proof.Machine

/-! Words -/

/-- The source in force of an entry without a kerf. -/
def State.srcInForce (s : State) (i : Nat) : Nat := Tbl.get (fun _ => silence) s.lnd.inForce i
def State.setInForce (s : State) (i src : Nat) : State :=
  { s with lnd := { s.lnd with inForce := Tbl.put (fun _ => silence) s.lnd.inForce i src } }

/-- The kerf of an entry. -/
def State.kerfOf (s : State) (i : Nat) : Option RKerf := Tbl.find s.lnd.kerfs i
def State.setKerf (s : State) (i : Nat) (k : RKerf) : State :=
  { s with lnd := { s.lnd with kerfs := Tbl.insert s.lnd.kerfs i k } }
def State.dropKerf (s : State) (i : Nat) : State := { s with lnd := { s.lnd with kerfs := Tbl.erase s.lnd.kerfs i } }

/-- The non-silent sources of a kerf with their weights at sample `n`: before its start the weights frozen there, else
those of R162 and R170. -/
def RKerf.weights (k : RKerf) (n : Nat) : List (Nat × Int) :=
  if n < k.s then (if k.arrFrozen = 0 then [] else [(k.arr, k.arrFrozen)]) ++ k.leave
  else
    let num := n - k.s + 1
    let d := shapeDown k.curve num k.span
    let u := shapeUp k.curve num k.span
    (if k.arr = silence then [] else [(k.arr, u + fxMul k.arrFrozen d)]) ++ k.leave.map (fun p => (p.1, fxMul p.2 d))

/-- The mix a sink receives at sample `n` (R170, R46). -/
def RKerf.mix (k : RKerf) (snap : Tbl Int) (n : Nat) : Int :=
  satS 40 (rneShift ((k.weights n).foldl (fun a p => a + p.2 * wordOf snap p.1) 0) 96)

/-- The word that entry `i` gives its sink for the current sample (R143). -/
def State.routeWord (s : State) (i : Nat) : Int :=
  match s.kerfOf i with
  | some k => k.mix s.lnd.snap s.sidx
  | none => wordOf s.lnd.snap (s.srcInForce i)

/-- The sink of an entry. -/
def State.sinkOf (s : State) (i : Nat) : Nat := s.fld (LND_RT_CFG.SINK i)

/-- Entry `i` gives its sink a new word at once. -/
def State.refreshSink (s : State) (i : Nat) : State := s.setSink (s.sinkOf i) (s.routeWord i)

/-- Every sink of an enabled route gets its word from the one snapshot; every other sink receives 0 (R133, R143, R144). -/
def State.landingPass (s : State) : State :=
  let s := ({ s with lnd := { s.lnd with snk := [] } }).clearRows
  (keysOf (s.lnd.inForce.filter (fun p => !(s.lnd.kerfs.any (fun q => q.1 == p.1)))) ++ keysOf s.lnd.kerfs).foldl State.refreshSink s

/-! Status -/

/-- Entry `i` waits in the queue or is held. -/
def State.routeQueued (s : State) (i : Nat) : Bool := s.lnd.queue.any (fun c => c.entry == i)
def State.routeHeld (s : State) (i : Nat) : Bool := s.lnd.held.any (fun c => c.entry == i)

/-- Entry `i` owns its sink (LND_SD). -/
def State.owns (s : State) (i : Nat) : Bool :=
  s.flag (LND_RT_CFG.EN i) || (s.kerfOf i).isSome || s.routeQueued i || s.routeHeld i

/-- LND_RT_STAT and the sink directory follow entry `i` (R145). -/
def State.showRoute (s : State) (i : Nat) : State :=
  let k := s.kerfOf i
  let q := s.routeQueued i || s.routeHeld i
  let from_ : Nat := match k with
    | some k => k.src0
    | none => 0
  let t := s.setReg (LND_RT_STAT.adr i) (BitVec.ofNat 32 (b2n k.isSome * 2 ^ 31 + b2n q * 2 ^ 30 + from_))
  let own : Word := BitVec.ofNat 32 (2 ^ 31 + i)
  let sd := LND_SD.adr (s.sinkOf i)
  if s.owns i then t.setReg sd own else if t.reg sd = own then t.setReg sd 0 else t

/-- The owner of a sink. -/
def State.ownerOf (s : State) (sink : Nat) : Option Nat :=
  if s.flag (LND_SD.OWNED sink) then some (s.fld (LND_SD.ENTRY sink)) else none

/-! Completion of a change (R149, R388) -/

/-- DETAIL1 of a route command. -/
def routeD1 (i : Nat) (retargeted held : Bool) : Nat := b2n retargeted * 2 ^ 31 + b2n held * 2 ^ 30 + i

/-- The command behind a kerf completes: SIDX its start, DETAIL0 its queueing delay. -/
def State.kerfDone (s : State) (i : Nat) (k : RKerf) (retargeted : Bool) : State :=
  s.opDone k.handle k.s stOk (min (k.s - k.applied) 65535) (routeD1 i retargeted k.held) (k.s - k.applied)

/-- A queued or held change that another change replaces (R172-R174). -/
def State.changeAborted (s : State) (c : RChange) : State := s.opDone c.handle c.applied stAborted 0 (routeD1 c.entry false c.held) 0

/-! Kerfs (R170-R175) -/

/-- A kerf from the source in force starts now in a free place. -/
def State.startKerf (s : State) (c : RChange) : State :=
  let src := s.srcInForce c.entry
  let k : RKerf :=
    { s := s.sidx, span := c.span, curve := c.curve, arr := c.src, arrFrozen := if src = c.src ∧ src ≠ silence then fx1 else 0,
      leave := if src = silence ∨ src = c.src then [] else [(src, fx1)], src0 := src, handle := c.handle,
      applied := c.applied, held := c.held }
  let s := (s.setInForce c.entry silence).setKerf c.entry k
  let d := s.sidx - c.applied
  (if s.fld KRF_QMAX.MAX < d then s.setFld KRF_QMAX.MAX d else s).showRoute c.entry

/-- A free place among the 1,024. -/
def State.kerfPlace (s : State) : Bool := s.lnd.kerfs.length < 1024

/-- A kerf joins the queue: the counter, and KRF_QUEUE_ACTIVE when the queue was empty (R173, R183). -/
def State.joinQueue (s : State) (c : RChange) : State :=
  let first := s.lnd.queue.isEmpty
  let s := { s with lnd := { s.lnd with queue := s.lnd.queue ++ [c] } }
  let s := (s.bump KRF_QUEUED_CNT.adr).showRoute c.entry
  if first then s.raiseN2 0x42 0 (s.sinkOf c.entry) c.entry else s

/-- Queued kerfs start in queue order while places are free; the fuel is the length of the queue. -/
def State.startQueued : Nat → State → State
  | 0, s => s
  | n + 1, s =>
    match s.lnd.queue with
    | [] => s
    | c :: t => if s.kerfPlace then
        State.startQueued n ((({ s with lnd := { s.lnd with queue := t } }).startKerf c).refreshSink c.entry)
      else s

/-- A held change whose sink's kerf has ended starts, or joins the queue, or stays held (R172). -/
def State.startHeld (s : State) (c : RChange) : State :=
  if (s.kerfOf c.entry).isSome then s
  else
    let drop : State := { s with lnd := { s.lnd with held := s.lnd.held.filter (fun x => x.entry != c.entry) } }
    if s.kerfPlace then (drop.startKerf c).refreshSink c.entry
    else if s.lnd.queue.length < 4096 then drop.joinQueue c
    else s

/-- Free places and room in the queue are filled: the queue first, then held changes in the order in which they were held
(R172, R173). -/
def State.fillPlaces (s : State) : State :=
  let s := State.startQueued s.lnd.queue.length s
  s.lnd.held.foldl State.startHeld s

/-- The kerf of entry `i` ends: its target is in force, its command completes, and a clear releases the sink (R147, R161). -/
def State.endKerf (s : State) (i : Nat) : State :=
  match s.kerfOf i with
  | none => s
  | some k => (((s.dropKerf i).setInForce i k.arr).kerfDone i k false).showRoute i

/-- Kerfs that have run their span. -/
def State.dueKerfs (s : State) : List Nat :=
  keysOf (s.lnd.kerfs.filter (fun p => decide (p.2.s + p.2.span ≤ s.sidx)))

/-- Every kerf that is over ends, and what waits takes its place. -/
def State.endDueKerfs (s : State) : State := ((s.dueKerfs).foldl State.endKerf s).fillPlaces

/-- ROUTE_KERF_END: one kerf ends; what waits takes the free places once the last kerf due at this sample has ended. -/
def execRouteKerfEnd (i : Fin 16384) (s : State) : Host.Outcome State Fault Refusal :=
  .next (if i.val ∈ s.dueKerfs then
    let s := (s.endKerf i).refreshSink i
    if s.dueKerfs.isEmpty then s.fillPlaces else s
  else s)

/-! Changes (R147, R148, R171-R175) -/

/-- The sources of a kerf that a change at sample `n` leaves. -/
def RKerf.left (k : RKerf) (n : Nat) : List (Nat × Int) := k.weights (n - 1)

/-- Retargets the kerf of entry `i` (R171). -/
def State.retarget (s : State) (i : Nat) (k : RKerf) (c : RChange) : State :=
  let old := k.left s.sidx
  let frozen := ((old.find? (fun p => p.1 == c.src)).map (fun p => p.2)).getD 0
  let k' : RKerf :=
    { s := s.sidx, span := c.span, curve := c.curve, arr := c.src, arrFrozen := frozen,
      leave := old.filter (fun p => p.1 != c.src), src0 := k.arr, handle := c.handle, applied := c.applied, held := false }
  (((s.setKerf i k').kerfDone i k true)).showRoute i

/-- Sources that a retarget of kerf `k` to `src` would hold, silence not counted (R170). -/
def State.sourcesAfter (s : State) (k : RKerf) (src : Nat) : Nat :=
  let old := k.left s.sidx
  old.length + (if src = silence ∨ old.any (fun p => p.1 == src) then 0 else 1)

/-- Drops queued and held changes of entry `i`, completing them with ABORTED. -/
def State.dropChanges (s : State) (i : Nat) : State :=
  let gone := (s.lnd.queue ++ s.lnd.held).filter (fun c => c.entry == i)
  let s := { s with lnd := { s.lnd with queue := s.lnd.queue.filter (fun c => c.entry != i),
                                        held := s.lnd.held.filter (fun c => c.entry != i) } }
  gone.foldl State.changeAborted s

/-- Replaces the change of an entry in a list of waiting changes (R174). -/
def replaceIn (l : List RChange) (c : RChange) : List RChange := l.map (fun x => if x.entry = c.entry then c else x)

/-- The effective target of entry `i` changes to `c.src` now: a step, a retarget, a hold, a replacement or a new kerf. The
Bool says that the queue was full (R175): nothing has changed then. -/
def State.moveRoute (s : State) (c : RChange) : State × Bool :=
  let i := c.entry
  if c.span = 0 then
    let s := match s.kerfOf i with
      | some k => (s.dropKerf i).kerfDone i k false
      | none => s
    let s := ((s.dropChanges i).setInForce i c.src).showRoute i
    ((s.opDone c.handle s.sidx stOk 0 (routeD1 i false false) 0).fillPlaces, false)
  else match s.kerfOf i with
  | some k =>
    let s := s.dropChanges i
    if s.sourcesAfter k c.src ≤ 4 then (s.retarget i k c, false)
    else
      let s := { s with lnd := { s.lnd with held := s.lnd.held ++ [{ c with held := true }] } }
      ((s.bump KRF_HELD_CNT.adr).showRoute i, false)
  | none =>
    if s.routeQueued i then
      let old := s.lnd.queue.filter (fun x => x.entry == i)
      let s := { s with lnd := { s.lnd with queue := replaceIn s.lnd.queue c } }
      (old.foldl State.changeAborted s, false)
    else if s.routeHeld i then
      let old := s.lnd.held.filter (fun x => x.entry == i)
      let s := { s with lnd := { s.lnd with held := replaceIn s.lnd.held { c with held := true } } }
      (old.foldl State.changeAborted (s.bump KRF_HELD_CNT.adr), false)
    else if s.kerfPlace then (s.startKerf c, false)
    else if s.lnd.queue.length < 4096 then (s.joinQueue c, false)
    else (s, true)

/-- What becomes of a change that a command or an action makes: its status, and the details of a refusal (R383). -/
structure Verdict where
  status : Nat
  d0 : Nat
  d1 : Nat

/-- The change is taken. -/
def Verdict.ok : Verdict := ⟨stOk, 0, 0⟩

/-- The INDEX of a refusal: the entry, or the sink before one was chosen (R149). -/
def refuseIndex (sink : Nat) (i : Option Nat) : Nat := i.getD (0x8000 + sink)

/-- Refusal of a route change (R148, R149, R158, R175): `i` is the entry, if one was chosen. -/
def State.routeRefuse (s : State) (cause sink : Nat) (i : Option Nat) : State :=
  let s := s.lndRefuse 0 cause (refuseIndex sink i)
  if cause = 6 then
    let a1 : Nat := match i with
      | some i => i
      | none => 2 ^ 31
    (s.bump KRF_QFULL_CNT.adr).raiseN2 0x43 0 sink a1
  else s

/-- Writes entry `i` with configuration `v` and runs the change it makes (R147). -/
def State.routeWrite (s : State) (i : Nat) (v : Word) (span curve : Nat) (h : Option Nat) : State × Verdict :=
  let cur := s.reg (LND_RT_CFG.adr i)
  let n := s.sidx
  let target (w : Word) : Nat := if bitOf w 31 then bitsOf w 14 0 else silence
  if v = cur then (s.opDone h n stOk 0 (routeD1 i false false) 0, Verdict.ok)
  else
    let t := (s.setReg (LND_RT_CFG.adr i) v).setReg (LND_RT_APPL.adr i) (lo32 n)
    if !bitOf v 31 && !bitOf cur 31 then
      ((t.showRoute i).opDone h n stOk 0 (routeD1 i false false) 0, Verdict.ok)
    else
      let c : RChange := { entry := i, src := target v, span := span, curve := curve, handle := h, applied := n, held := false }
      match t.moveRoute c with
      | (_, true) => (s.routeRefuse 6 (bitsOf v 30 16) (some i), ⟨stNoResource, 6, i⟩)
      | (t, false) => (t.refreshSink i, Verdict.ok)

/-- A table write that applies now (R146-R148). -/
def State.routeTable (s : State) (i : Nat) (v : Word) : State :=
  let sink := bitsOf v 30 16
  let a := s.addrCause true sink
  let b := s.addrCause false (bitsOf v 14 0)
  if a = 1 ∨ b = 1 then s.routeRefuse 1 sink (some i)
  else if a = 2 ∨ b = 2 then s.routeRefuse 2 sink (some i)
  else if bitOf v 31 ∧ (s.ownerOf sink).isSome ∧ s.ownerOf sink ≠ some i then s.routeRefuse 3 sink (some i)
  else if sink ≠ s.sinkOf i ∧ s.owns i then s.routeRefuse 4 sink (some i)
  else (s.routeWrite i v (s.fld LND_KDEF.SPAN) (s.fld LND_KDEF.CURVE) none).1

/-- The first number that a sorted list leaves out, from `n` on. -/
def firstGap : Nat → List Nat → Nat
  | n, [] => n
  | n, a :: t => if a = n then firstGap (n + 1) t else if a < n then firstGap n t else n

/-- The lowest-numbered free route entry (R149). -/
def State.freeEntry (s : State) : Option Nat :=
  let k := firstGap 0 s.routesInUse
  if k < 16384 then some k else none

/-- A ROUTE_SET, ROUTE_CLEAR or scene route action that applies now (R149, R150, R187): on OK its handle completes now or
with its kerf; a refusal is for the caller to report. -/
def State.routeCmd (s : State) (clear : Bool) (sink src span curve : Nat) (h : Option Nat) : State × Verdict :=
  let a := s.addrCause true sink
  let b := if clear then 0 else s.addrCause false src
  if a = 1 ∨ b = 1 then (s.routeRefuse 1 sink none, ⟨stBadArg, 1, refuseIndex sink none⟩)
  else if a = 2 ∨ b = 2 then (s.routeRefuse 2 sink none, ⟨stBadArg, 2, refuseIndex sink none⟩)
  else match s.ownerOf sink with
  | some i =>
    let cur := s.reg (LND_RT_CFG.adr i)
    s.routeWrite i (if clear then setBits cur 31 31 0 else BitVec.ofNat 32 (2 ^ 31 + sink * 2 ^ 16 + src)) span curve h
  | none =>
    if clear then (s.opDone h s.sidx stOk 0 0 0, Verdict.ok)
    else match s.freeEntry with
      | some i => s.routeWrite i (BitVec.ofNat 32 (2 ^ 31 + sink * 2 ^ 16 + src)) span curve h
      | none => ((s.bump LND_ALLOCF_CNT.adr).raiseN2 0x41 0 sink 0, ⟨stNoResource, 0, 0⟩)

/-- A route command that applies now and reports its own refusal. -/
def State.routeRun (s : State) (clear : Bool) (sink src span curve : Nat) (h : Nat) : State :=
  let (t, v) := s.routeCmd clear sink src span curve (some h)
  if v.status = stOk then t else t.opDone (some h) t.sidx v.status v.d0 v.d1 0

/-! Commands -/

/-- ROUTE_TABLE_WRITE (R29, R146). -/
def execRouteTableWrite (i : Fin 16384) (v : Word) (s : State) : Host.Outcome State Fault Refusal :=
  .next (s.hostWrite (LND_RT_CFG.adr i) (fun s => s.stage (LND_RT_CFG.adr i) (v &&& 0xFFFF7FFF)))

/-- Route entries whose staged write is due, in ascending order. -/
def State.dueEntries (s : State) : List Nat :=
  s.stgAt.filterMap (fun p =>
    if 0x210000 ≤ p.1 ∧ p.1 < 0x250000 ∧ p.2 < s.sidx then some ((p.1 - 0x210000) / 16) else none)

/-- No table write and no immediate route command is still to apply at this sample: what comes after them in the order of R201
may apply (R146). -/
def State.routesApplied (s : State) : Bool := s.dueEntries.isEmpty && !(s.lnd.reqs.any (fun r => decide (r.reach < s.sidx)))

/-- ROUTE_CHANGE_APPLY: kerfs that are over end; then the next change in the order of R201 applies: table writes, then
immediate route commands in order of acceptance. -/
def execRouteChangeApply (s : State) : Host.Outcome State Fault Refusal :=
  .next (match s.dueEntries, s.lnd.reqs with
    | i :: _, _ =>
      let t := s.endDueKerfs
      match s.due (LND_RT_CFG.adr i) with
      | some v => (t.unstage (LND_RT_CFG.adr i)).routeTable i v
      | none => t
    | [], r :: rest =>
      if r.reach < s.sidx then
        let t := s.endDueKerfs
        ({ t with lnd := { t.lnd with reqs := rest } }).routeRun r.clear r.sink r.src r.span r.curve r.handle
      else s
    | [], [] => s)

/-- Span and curve of a route command (R149, R385). -/
def KerfWord.route (k : KerfWord) : Nat × Nat := k.withDefault 64 curveEqp

/-- ROUTE_SET and ROUTE_CLEAR once accepted (R149, R199). -/
def State.routeSubmit (s : State) (c : Ctx) (clear : Bool) : State :=
  let sink := c.abits 0 30 16
  let src := c.abits 0 14 0
  let (span, curve) := (kerfWord (c.arg 1)).route
  let a := s.addrCause true sink
  let b := if clear then 0 else s.addrCause false src
  if a = 1 ∨ b = 1 then (s.routeRefuse 1 sink none).single c stBadArg 1 (refuseIndex sink none)
  else if a = 2 ∨ b = 2 then (s.routeRefuse 2 sink none).single c stBadArg 2 (refuseIndex sink none)
  else match c.sched with
  | some blk => s.schedule c blk
  | none =>
    let s := s.accept c (s.sidx + 1) 0 false 0
    let r : RouteReq :=
      { reach := s.sidx, handle := c.handle, clear := clear, sink := sink, src := src, span := span, curve := curve }
    { s with lnd := { s.lnd with reqs := s.lnd.reqs ++ [r] } }

/-- ROUTE_SET. -/
def execRouteSet (src : Fin 128) (tag : Word) (args : List Word) (s : State) : Host.Outcome State Fault Refusal :=
  .next (s.runCmd src.val 0x0301 false tag args (fun s c => s.routeSubmit c false))

/-- ROUTE_CLEAR. -/
def execRouteClear (src : Fin 128) (tag : Word) (args : List Word) (s : State) : Host.Outcome State Fault Refusal :=
  .next (s.runCmd src.val 0x0302 false tag args (fun s c => s.routeSubmit c true))

end Sys2Proof.Machine
end

