-- ==== Sys2Proof/Machine/Scenes.lean ====
section
/-! DEFINITION. Scene buffers, arming, disarming, committing, and the cancelling of scheduled commands (R184-R195, R200). -/

namespace Sys2Proof.Machine

/-! Buffers (R184, R185) -/

/-- States of a scene buffer. -/
def bufEmpty : Nat := 0
def bufStaged : Nat := 1
def bufArming : Nat := 2
def bufArmed : Nat := 3
def bufCommitted : Nat := 4

/-- Sets the state of buffer `b`, and SCN_STAT while it is ARMING, ARMED or COMMITTED. -/
def State.setBuf (s : State) (b st : Nat) : State :=
  let s := s.setFld (SCN_BUF.STATE b) st
  if 2 ≤ st then (s.setFld SCN_STAT.STATE st).setFld SCN_STAT.BUF b
  else (s.setFld SCN_STAT.STATE 0).setFld SCN_STAT.BUF 0

/-- Word `w` of a descriptor written with `v`: refused while the buffer is in use, and for a count above CAP (R185). -/
def State.bufWrite (s : State) (n w : Nat) (v : Word) : State :=
  let off := SCN_BUF.adr n + 4 * w
  if 2 ≤ s.fld (SCN_BUF.STATE n) then s.lndRefuse 3 5 (0x8000 + (off - 0x300000))
  else match w with
  | 0 => s.setReg off v
  | 1 => s.setReg off (v &&& 0xFF)
  | 2 => s.setReg off (v &&& 0x1FFFF)
  | _ =>
    if s.fld (SCN_BUF.CAP n) < bitsOf v 16 0 then s.lndRefuse 3 5 (0x8000 + (off - 0x300000))
    else s.setReg off (BitVec.ofNat 32 ((if bitsOf v 16 0 = 0 then bufEmpty else bufStaged) * 2 ^ 29 + bitsOf v 16 0))

/-- SCN_BUF_WRITE. -/
def execScnBufWrite (n : Fin 64) (w : Fin 4) (v : Word) (s : State) : Host.Outcome State Fault Refusal :=
  .next (s.hostWrite (SCN_BUF.adr n + 4 * w) (fun s => s.bufWrite n w v))

/-- The descriptor of buffer `n` after reset and after a Basic reset of SCN: its far address and capacity (R184). -/
def State.bufDefault (s : State) (n : Nat) : Nat × Nat :=
  if n < 16 then (0x1F00000 + 0x10000 * n, 4096)
  else if s.sdrCap = 0 then (0, 0)
  else (sdrBase + s.sdrCap - 0x3000000 + 0x100000 * (n - 16), 65536)

/-- Buffer `n` takes its reset descriptor, when it is EMPTY or STAGED: it is EMPTY (R184). -/
def State.bufRestore (s : State) (n : Nat) : State :=
  if 2 ≤ s.fld (SCN_BUF.STATE n) then s
  else
    let (a, cap) := s.bufDefault n
    ((((s.setReg (SCN_BUF.adr n) (lo32 a)).setReg (SCN_BUF.adr n + 4) (hi32 a)).setFld (SCN_BUF.CAP n) cap).setReg
      (SCN_BUF.adr n + 12) 0)

/-! Actions (R186, R187, R189) -/

/-- Type and kerf fields of an action. -/
def SceneAct.type (a : SceneAct) : Nat := bitsOf a.w0 31 28
def SceneAct.curve (a : SceneAct) : Nat := bitsOf a.w0 27 26
def SceneAct.span (a : SceneAct) : Nat := bitsOf a.w0 16 0

/-- TDMn_SYNC, TDMn_LEVEL and DAC_LEVEL: RW registers without a plain RW field. OUT_LEVEL belongs to its window as a whole, not
to the OUT function (R28): DEDUCED. -/
def regActionOnly (off : Nat) : Bool :=
  (0x400000 ≤ off && off < 0x420000 && (off % 0x1000 == 0x00C || off % 0x1000 == 0x0FC)) || off == 0xE000FC

/-- A register that a REG action or REG_WRITE may name: an RW or RW-S register of a TDM port window, of the OUT function
or of the DAC window (R187). -/
def regActionOk (off : Nat) : Bool :=
  off % 4 == 0 &&
  ((0x400000 ≤ off && off < 0x420000) || (0xE00000 ≤ off && off < 0xF00000) ||
    (0x380000 ≤ off && off < 0x400000 && (owner off).any (fun o => o.bit == 0))) &&
  (regActionOnly off || (match findRow off with
   | some (r, _) => r.rw != 0 && !r.ctr
   | none => false))

/-- Fields that R186 shows as 0. -/
def SceneAct.reservedBad (a : SceneAct) : Bool :=
  match a.type with
  | 1 => bitsOf a.w0 22 17 != 0 || bitsOf a.w1 27 12 != 0 || a.w3 != 0
  | 2 => bitsOf a.w0 25 17 != 0 || bitOf a.w1 15 || a.w2 != 0 || a.w3 != 0
  | 3 => bitsOf a.w0 25 17 != 0 || bitsOf a.w1 31 4 != 0 || a.w2 != 0 || a.w3 != 0
  | 4 => bitsOf a.w0 27 0 != 0 || bitsOf a.w1 31 26 != 0
  | _ => true

/-- What an action names: two actions of one scene may not name the same (R189). -/
def SceneAct.target (a : SceneAct) : Nat × Nat :=
  (a.type, match a.type with
    | 1 => a.w1.toNat
    | 2 => bitsOf a.w1 30 16
    | _ => a.w1.toNat)

/-- The status with which arming fails at this action, `before` being the actions before it (R189). -/
def State.actionFails (s : State) (before : List SceneAct) (a : SceneAct) : Option Nat :=
  if a.reservedBad ∨ (a.type ≠ 4 ∧ 65536 < a.span) then some stBadArg
  else if before.any (fun b => b.target == a.target) then some stBadArg
  else match a.type with
  | 1 => if paramBad (bitsOf a.w0 24 23) a.curve a.w2 then some stBadArg else none
  | 2 =>
    if s.addrCause true (bitsOf a.w1 30 16) ≠ 0 ∨ (!bitOf a.w1 31 ∧ s.addrCause false (bitsOf a.w1 14 0) ≠ 0) then some stBadArg
    else if 5120 ≤ (before.filter (fun b => b.type == 2)).length then some stNoResource
    else none
  | 3 => s.progBad (bitsOf a.w1 3 0)
  | _ => if regActionOk a.w1.toNat then none else some stBadArg

/-- The first failing action: index and status. -/
def State.armCheck (s : State) : Nat → List SceneAct → List SceneAct → Option (Nat × Nat)
  | _, _, [] => none
  | i, before, a :: t =>
    match s.actionFails before a with
    | some st => some (i, st)
    | none => State.armCheck s (i + 1) (before ++ [a]) t

/-- The far address of a buffer. -/
def State.bufAddr (s : State) (b : Nat) : Nat := s.fld (SCN_BUF.BASE_LO b) + 2 ^ 32 * s.fld (SCN_BUF.BASE_HI b)

/-- The actions of buffer `b`, and the index at which a matrix error was met. -/
def State.readActions (s : State) (b : Nat) : State × Option Nat × List SceneAct :=
  let n := s.fld (SCN_BUF.CNT b)
  let a := s.bufAddr b
  let bad := (List.range (16 * n)).find? (fun i => s.farResp mCE (a + i) != respOk)
  let (t, _, bs) := s.farRead s.readReg mCE a (16 * n)
  (t, bad.map (fun i => i / 16),
    (List.range n).map (fun i => ⟨wordAt bs (4 * i), wordAt bs (4 * i + 1), wordAt bs (4 * i + 2), wordAt bs (4 * i + 3)⟩))

/-- Arming starts: the status that refuses it, or OK (R188). -/
def State.armStart (s : State) (b : Nat) : Nat :=
  if s.fld SCN_STAT.STATE ≠ 0 ∧ s.fld SCN_STAT.BUF ≠ b then stBusy
  else if s.fld (SCN_BUF.CAP b) = 0 then stNoResource
  else if s.fld (SCN_BUF.STATE b) ≠ bufStaged then stBadArg
  else stOk

/-- SCENE_ARM once accepted. -/
def State.sceneArm (s : State) (c : Ctx) : State :=
  let b := c.abits 0 5 0
  let st := s.armStart b
  if st ≠ stOk then s.single c st 0 0
  else
    let s := (s.accept c s.sidx 0 false 0).setBuf b bufArming
    { s with scn := { s.scn with armCmd := some c.handle } }

/-- SCENE_ARM. -/
def execSceneArm (src : Fin 128) (tag : Word) (args : List Word) (s : State) : Host.Outcome State Fault Refusal :=
  .next (s.runCmd src.val 0x0401 false tag args State.sceneArm)

/-! Committing (R192-R195) -/

/-- A commit that names an armed buffer, reaching the scene unit now (R193-R195). -/
def State.commitArmed (s : State) (c : Ctx) (b : Nat) : State :=
  match c.args with
  | [_, w0, w1, w2, w3] =>
    let k := schedOf w0 w1 w2 w3
    let prog := s.scn.acts.any (fun a => a.type == 3)
    let (st, req) := s.requested k
    let idx := s.roundProg k.sys prog req
    let (s, room) := if st = stOk ∧ k.sys ∧ k.when_ = 2 then s.raftCommitOut b idx k.policy (bitOf (c.arg 0) 31) else (s, true)
    if st ≠ stOk then s.single c st 0 0
    else if !room then s.single c stBusy 0 0
    else
      let now := s.sidx + 1
      if idx < now ∧ s.rejectsLate k.sys k.policy then
        (s.scnRejected b c.handle (now - req)).single c stRejectedLate 0 0
      else
        let eff := if idx < now then s.roundProg k.sys prog now else idx
        let rounding := if idx < now then eff - now else eff - req
        let late := if idx < now then eff - req else 0
        let s := if idx < now then s.scnLate b c.handle late else s
        let s := (s.accept c eff (rounding * 2 ^ 10) true late).setBuf b bufCommitted
        let (s, order) := s.nextOrder
        let k : SceneCommit :=
          { handle := c.handle, idx := eff, req := req, late := late, rounding := rounding, time := k.time, sys := k.sys,
            policy := k.policy, order := order }
        { s with scn := { s.scn with commit := some k } }
  | _ => s.single c stBadArg 0 0

/-- SCENE_COMMIT once accepted: with AUTOARM a STAGED buffer is armed first (R192). -/
def State.sceneCommit (s : State) (c : Ctx) : State :=
  let b := c.abits 0 5 0
  if s.fld (SCN_BUF.STATE b) = bufArmed then s.commitArmed c b
  else if bitOf (c.arg 0) 31 ∧ s.armStart b = stOk then
    let s := s.setBuf b bufArming
    { s with scn := { s.scn with auto := some ⟨c.src, c.cring, c.handle, c.tag, c.args⟩ } }
  else s.single c stBadArg 0 0

/-- SCENE_COMMIT. -/
def execSceneCommit (src : Fin 128) (tag : Word) (args : List Word) (s : State) : Host.Outcome State Fault Refusal :=
  .next (s.runCmd src.val 0x0403 false tag args State.sceneCommit)

/-- The command behind an AUTOARM. -/
def AutoArm.ctx (a : AutoArm) : Ctx := ⟨a.src, a.cring, a.handle, 0x0403, a.tag, a.args⟩

/-- Arming of the buffer in ARMING ends: `fail` is the first failing action with its status (R188, R189, R192). -/
def State.armEnd (s : State) (acts : List SceneAct) (fail : Option (Nat × Nat)) : State :=
  let b := s.fld SCN_STAT.BUF
  let cmd := s.scn.armCmd
  let auto := s.scn.auto
  let s := { s with scn := { s.scn with armCmd := none, auto := none } }
  match fail with
  | some (i, st) =>
    let s := s.setBuf b bufStaged
    let s := match cmd with
      | some h => s.finish h st 0 i
      | none => s
    match auto with
    | some a => s.single a.ctx stBadArg 0 0
    | none => s
  | none =>
    let s := ({ s with scn := { s.scn with acts := acts } }).setBuf b bufArmed
    let s := match cmd with
      | some h => s.finish h stOk acts.length 0
      | none => s
    match auto with
    | some a => s.commitArmed a.ctx b
    | none => s

/-- SCENE_ARM_DONE. -/
def execSceneArmDone (s : State) : Host.Outcome State Fault Refusal :=
  .next (if s.fld SCN_STAT.STATE = bufArming then
    let (t, bad, acts) := s.readActions (s.fld SCN_STAT.BUF)
    let first := match bad with
      | some i => acts.take i
      | none => acts
    let fail := match t.armCheck 0 [] first, bad with
      | some f, _ => some f
      | none, some i => some (i, stHwFault)
      | none, none => none
    t.armEnd acts fail
  else s)

/-! Disarming and cancelling (R191, R200) -/

/-- The armed scene goes; a pending commit completes with ABORTED and the buffer returns to STAGED. Arming in progress
ends without a scene. -/
def State.disarm (s : State) : State :=
  if s.fld SCN_STAT.STATE = 0 then s
  else
    let b := s.fld SCN_STAT.BUF
    let arm := s.scn.armCmd
    let auto := s.scn.auto
    let commit := s.scn.commit
    let s := ({ s with scn := { s.scn with acts := [], armCmd := none, auto := none, commit := none } }).setBuf b bufStaged
    let s := match arm with
      | some h => s.finish h stAborted 0 0
      | none => s
    let s := match auto with
      | some a => s.single a.ctx stAborted 0 0
      | none => s
    match commit with
    | some k => s.finish k.handle stAborted 0 0
    | none => s

/-- SCENE_DISARM once accepted. -/
def State.sceneDisarm (s : State) (c : Ctx) : State :=
  if s.fld SCN_STAT.STATE < bufArmed then s.single c stBadArg 0 0
  else s.disarm.single c stOk (s.fld SCN_STAT.BUF) (b2n s.scn.commit.isSome)

/-- SCENE_DISARM. -/
def execSceneDisarm (src : Fin 128) (tag : Word) (args : List Word) (s : State) : Host.Outcome State Fault Refusal :=
  .next (s.runCmd src.val 0x0402 false tag args State.sceneDisarm)

/-- A pending scheduled command goes and completes with a status. -/
def State.dropSched (s : State) (h status : Nat) : State :=
  ({ s with scn := { s.scn with sched := s.scn.sched.filter (fun i => i.handle != h) } }).finish h status 0 0

/-- Every pending scheduled command completes with ABORTED (R25, R200). -/
def State.abortSched (s : State) : State := s.scn.sched.foldl (fun s i => s.dropSched i.handle stAborted) s

/-- SCHED_CANCEL once accepted. -/
def State.schedCancel (s : State) (c : Ctx) : State :=
  let h := (c.arg 0).toNat
  if s.scn.sched.any (fun i => i.handle == h) then (s.dropSched h stAborted).single c stOk 0 0
  else s.single c stBadArg 0 0

/-- SCHED_CANCEL. -/
def execSchedCancel (src : Fin 128) (tag : Word) (args : List Word) (s : State) : Host.Outcome State Fault Refusal :=
  .next (s.runCmd src.val 0x0404 false tag args State.schedCancel)

/-- What a conversion under a new mapping gives an item: the requested index, the index in force, its lateness and its
rounding (R193, R202). -/
structure Remapped where
  req : Nat
  idx : Nat
  late : Nat
  rounding : Nat
  deriving DecidableEq, Repr

/-- SCN_REMAPPED: a commit carries its buffer in SOURCE and bits [31:0] of the old and new indices; a scheduled command (no
buffer) carries its handle in ARG0 and bits [15:0] of the old and new indices in ARG1. The places, and that the indices are
cut to fit, are a DESIGN CHOICE (log entry 10). -/
def State.scnRemapped (s : State) (buf : Option Nat) (h old new : Nat) : State :=
  match buf with
  | some b => s.raise 0x47 b (lo32 old) (lo32 new)
  | none => s.raiseN2 0x47 0 h (old % 65536 * 65536 + new % 65536)

/-- One item given by system time `t` is converted again: SCN_REMAPPED with its old and new index and, when the new one is
late (`first` being the first index on time), its policy (R202); none when it is rejected. -/
def State.remapOne (s : State) (t : ReqTime) (sys prog : Bool) (policy : Nat) (buf : Option Nat) (h oldIdx first : Nat) :
    State × Option Remapped :=
  let req := s.sampleOfTime t.sec t.ns
  let idx := s.roundProg sys prog req
  let now := s.sidx + 1
  let late := decide (idx < first)
  let eff := if late then s.roundProg sys prog now else idx
  let s := s.scnRemapped buf h oldIdx idx
  if late ∧ s.rejectsLate sys policy then (s.scnRejected (buf.getD 0) h (now - req), none)
  else if late then (s.scnLate (buf.getD 0) h (eff - req), some ⟨req, eff, eff - req, eff - now⟩)
  else (s, some ⟨req, eff, 0, eff - req⟩)

/-- The record of a pending command takes a new index and lateness. -/
def State.cmdMoved (s : State) (h idx late : Nat) : State := s.updCmd h (fun c => { c with sidx := idx, late := late })

/-- Every pending item given by system time is converted against the new mapping (R202). -/
def State.remapAll (s : State) : State :=
  let s := s.scn.sched.foldl (fun s i =>
    match i.time with
    | none => s
    | some t =>
      let (s, r) := s.remapOne t i.sys (i.opcode == 0x0204) i.policy none i.handle i.idx (s.onTime i.opcode)
      match r with
      | none => s.dropSched i.handle stRejectedLate
      | some m =>
        let move (j : SchedItem) : SchedItem :=
          if j.handle = i.handle then { j with idx := m.idx, req := m.req, late := m.late, rounding := m.rounding } else j
        ({ s with scn := { s.scn with sched := s.scn.sched.map move } }).cmdMoved i.handle m.idx m.late) s
  match s.scn.commit with
  | none => s
  | some k => match k.time with
    | none => s
    | some t =>
      let b := s.fld SCN_STAT.BUF
      let (s, r) := s.remapOne t k.sys (s.scn.acts.any (fun a => a.type == 3)) k.policy (some b) k.handle k.idx (s.sidx + 1)
      match r with
      | none => (({ s with scn := { s.scn with commit := none } }).setBuf b bufArmed).finish k.handle stRejectedLate 0 0
      | some m =>
        let k := { k with idx := m.idx, req := m.req, late := m.late, rounding := m.rounding }
        ({ s with scn := { s.scn with commit := some k } }).cmdMoved k.handle m.idx m.late

end Sys2Proof.Machine
end

