-- ==== Sys2Proof/Machine/Clock.lean ====
section
/-! DEFINITION. The time counter, its servo and steps, the system grid, captures and PPS (R325-R337). -/

namespace Sys2Proof.Machine

/-- A change of network time beside its registers. -/
def State.onTim (s : State) (f : TimSt → TimSt) : State := { s with tim := f s.tim }

/-- Servo states (TIM_STAT.STATE). -/
def timUnset : Nat := 0
def timTracking : Nat := 1
def timDiverged : Nat := 2
def timNoMaster : Nat := 3
def timManual : Nat := 4
def State.timState (s : State) : Nat := s.fld TIM_STAT.STATE
def State.timSrc (s : State) : Nat := s.fld TIM_XSERVO.SRC

/-- A state with its DIV bit (R328). -/
def State.setTim (s : State) (st : Nat) : State :=
  (s.setFld TIM_STAT.STATE st).setFld TIM_STAT.DIV (b2n (st == timUnset || st == timDiverged))

/-- The counter after a number of TCLK edges (R325). -/
def State.timeAfter (s : State) (edges : Nat) : Time := Time.ofUnits (s.time.units + edges * s.tim.inc)

/-- PPS_OUT follows the counter (R336). -/
def State.ppsOn (s : State) : Bool := s.mode != 0 && s.flag TIM_XPPS.EN && (s.timState != timUnset || s.flag TIM_XPPS.FREE)

/-- The level of PPS_OUT (R336): low wherever it does not follow the counter. -/
def State.ppsOut (s : State) : Bool := s.ppsOn && s.tim.ppsHigh

/-- The counter moves on by the TCLK edges of a sample; a second boundary on the way is noted (R325, R336). -/
def State.runTime (s : State) (edges : Nat) : State :=
  let t := s.timeAfter edges
  let carry := t.sec != s.time.sec
  let s := ({ s with time := t }).onTim (fun x => { x with secEdge := carry })
  if s.tim.ppsHigh && (!s.ppsOn || (match s.tim.ppsAt with
      | some n => decide (n * 1000 + s.fld TIM_XPPS.WIDTH * s.fs ≤ s.sidx * 1000)
      | none => true)) then s.onTim (fun x => { x with ppsHigh := false }) else s

/-- The five words of a time value (R326). -/
def timeWords (t : Time) (epoch : Nat) : List Word :=
  [lo32 t.sec, hi32 t.sec, BitVec.ofNat 32 t.ns, lo32 (t.frac / 256), BitVec.ofNat 32 (t.frac % 256 * 2 ^ 24 + epoch)]

/-- Words stored at consecutive registers. -/
def State.putRegs (s : State) (off : Nat) (ws : List Word) : State :=
  ((List.range ws.length).zip ws).foldl (fun s p => s.setReg (off + 4 * p.1) p.2) s

/-- The block tick's pair is latched and published (R331): sequence before and after. -/
def State.latchMap (s : State) : State :=
  let s := s.setReg TIM_MSEQ.adr (s.reg TIM_MSEQ.adr + 1)
  let s := s.onTim (fun x => { x with mapS := s.sidx, mapT := s.time, mapE := s.epoch })
  let s := s.putRegs (TIM_MAP.adr 0) [lo32 s.sidx, hi32 s.sidx, lo32 s.time.sec]
  s.setReg TIM_MSEQ.adr (s.reg TIM_MSEQ.adr + 1)

/-- A read of word 0: words 1-4 of a time value are latched (R326); TIM_NOW also shows the time of the read, `edges` TCLK
edges after the sample's tick. -/
def State.timeRead (s : State) (r : TimeReg) (edges : Nat) : State :=
  match r with
  | .now => s.putRegs (TIM_NOW.adr 0) (timeWords (s.timeAfter edges) s.epoch)
  | .map => s.putRegs (TIM_MAP.adr 2) (timeWords s.tim.mapT s.tim.mapE)
  | .ppsIn =>
    match s.tim.ppsIn with
    | some (t, e) => s.putRegs (TIM_PPSIN.adr 0) (timeWords t e)
    | none => s

/-- TIME_WORD0_READ. -/
def execTimeWord0Read (r : TimeReg) (edges : BitVec 24) (s : State) : Host.Outcome State Fault Refusal :=
  .next (s.timeRead r edges.toNat)

/-! The servo (R328, R329) -/

/-- TIM_REFUSED with the offset and cause 1 (R337). -/
def State.timRefuse (s : State) (off : Nat) : State := s.raiseN2 0xB8 0 off 1

/-- The rate limit: an increment within 4.0 ns by RATEMAX ppm (R325, R327). -/
def State.incLimit (s : State) : Nat := 4 * 2 ^ 40 * s.fld TIM_XSERVO.RATEMAX / 1000000
def State.incOk (s : State) (inc : Nat) : Bool :=
  decide (4 * 2 ^ 40 ≤ inc + s.incLimit ∧ inc ≤ 4 * 2 ^ 40 + s.incLimit)

/-- The increment in force, shown in TIM_XINC. -/
def State.setInc (s : State) (inc : Nat) : State :=
  ((s.onTim (fun x => { x with inc := inc })).setReg TIM_XINC_LO.adr (BitVec.ofNat 32 inc)).setReg TIM_XINC_HI.adr
    (BitVec.ofNat 32 (inc / 2 ^ 32 % 2 ^ 12))

/-- The servo steers towards an increment, within its limits. -/
def State.steer (s : State) (inc : Nat) : State :=
  s.setInc (max (4 * 2 ^ 40 - s.incLimit) (min (4 * 2 ^ 40 + s.incLimit) inc))

/-- An offset measurement in the states that take one (R328): `inc` is the increment that the servo then asks for. -/
def State.measured (s : State) (off : Int) (inc : Nat) : State :=
  let far := decide (s.fld TIM_XSERVO.THRESH * 1000000 < off.natAbs)
  let s := if s.timState = timNoMaster then s.setTim timTracking else s
  if s.timState = timTracking then
    if far then
      let s := ((s.setTim timDiverged).onTim (fun x => { x with within := 0 })).bump TIM_JUMP_CNT.adr
      s.raise 0xB1 0 (lo32 (ofSigned 64 off)) (hi32 (ofSigned 64 off))
    else s.steer inc
  else if s.timState = timDiverged then
    let n := if far then 0 else s.tim.within + 1
    let s := s.onTim (fun x => { x with within := n })
    if 8 ≤ n then (s.setTim timTracking).raise 0xB2 0 0 0 else s
  else s

/-- TIM_XORIGIN in units of 2^-40 ns. -/
def State.origin (s : State) : Nat :=
  timeUnits ((s.reg (TIM_XORIGIN.adr 0)).toNat + 2 ^ 32 * (s.reg (TIM_XORIGIN.adr 1)).toNat) (bitsOf (s.reg (TIM_XORIGIN.adr 2)) 29 0) 0

/-- One second in units of 2^-40 ns. -/
def secUnits : Nat := 1000000000 * 2 ^ 40

/-- The offset of the pair latched at the last block tick from the sample grid (R329), in ns. -/
def State.gridOffset (s : State) : Int :=
  rneDiv ((((s.origin + (s.tim.mapS * secUnits + s.fs / 2) / s.fs : Nat)) : Int) - ((s.tim.mapT.units : Nat) : Int)) (2 ^ 40)

/-- TIM_OFFSET_MEASUREMENT: an offset in ns whose timestamps carry `epoch`, from a grandmaster of identity `gm` and clockClass
`cls`; under SRC = SAMPLE the offset is that of the latched pair from the sample grid. -/
def execTimOffsetMeasurement (offset : BitVec 64) (epoch : BitVec 16) (gm : BitVec 64) (cls : BitVec 8) (inc : BitVec 44) (s : State) :
    Host.Outcome State Fault Refusal :=
  let off := if s.timSrc = 1 then s.gridOffset else offset.toInt
  .next (if epoch.toNat ≠ s.epoch ∨ s.timSrc = 2 then s
  else
    let s := if s.timSrc = 0 then
        let changed := match s.tim.gm with
          | some g => g.1 != gm.toNat
          | none => false
        let s := s.onTim (fun x => { x with gm := some (gm.toNat, cls.toNat) })
        if changed then s.raise 0xB4 0 (lo32 gm.toNat) (hi32 gm.toNat) else s
      else s
    let sat := max (-2147483647) (min 2147483647 off)
    let s := (s.onTim (fun x => { x with offset := some off })).setReg TIM_OFFSET.adr (BitVec.ofNat 32 (ofSigned 32 sat))
    if s.timSrc = 1 ∧ s.refCur = 4 then s.setFld TIM_STAT.SRCERR 1
    else
      let s := s.setFld TIM_STAT.SRCERR 0
      if s.timState = timUnset then
        if s.timSrc = 0 ∧ s.tim.step.isNone then
          (s.onTim (fun x => { x with step := some ⟨off, false, none, s.sidx⟩ })).setFld TIM_STAT.STEPPEND 1
        else s
      else s.measured off inc.toNat)

/-- The MAC that is the PTP port (R333): the primary one, or the backup where it has taken over and is in use. -/
def State.ptpMac (s : State) : Nat :=
  if s.tim.backup && s.flag TIM_XPTP.BEN then s.fld TIM_XPTP.BMAC else s.fld TIM_XPTP.MAC

/-- The ordinary clock of the control firmware (R333). -/
def State.ptpClock (s : State) : PtpClock :=
  { profile := s.fld TIM_XPTP.PROFILE, domain := s.fld TIM_XPTP.DOMAIN, slaveOnly := s.flag TIM_XPTP.SLAVEONLY
    prio1 := s.fld TIM_XPTP.PRIO1, prio2 := 128, clockClass := s.fld TIM_XPTP.CLASS }

/-- TIM_MASTER_LOST: announceReceiptTimeout has expired on both MACs (R328). -/
def execTimMasterLost (s : State) : Host.Outcome State Fault Refusal :=
  .next (if s.timSrc = 0 ∧ (s.timState = timTracking ∨ s.timState = timDiverged) then
    ((s.setTim timNoMaster).onTim (fun x => { x with gm := none })).raise 0xB3 0 0 0
  else s.onTim (fun x => { x with gm := none }))

/-- ANNOUNCE_RECEIPT_TIMEOUT on the primary MAC: the backup MAC takes over where it is in use (R333). -/
def execAnnounceReceiptTimeout (s : State) : Host.Outcome State Fault Refusal :=
  .next (if s.flag TIM_XPTP.BEN then s.onTim (fun x => { x with backup := true }) else s)

/-! Steps (R328, R330) -/

/-- TIME_STEP once accepted. -/
def State.timeStepCmd (s : State) (c : Ctx) : State :=
  let meas := bitOf (c.arg 0) 31
  let arg := toSigned 64 ((c.arg 1).toNat + 2 ^ 32 * (c.arg 2).toNat)
  if s.tim.step.isSome then s.single c stBusy 0 0
  else if s.epoch = 65535 then (s.raise 0xB7 0 0 0).single c stNoResource 0 0
  else if meas ∧ (s.tim.offset.isNone ∨ arg ≠ 0) then s.single c stBadArg 0 0
  else
    let off := if meas then s.tim.offset.getD 0 else arg
    ((s.accept c s.sidx 0 false 0).onTim (fun x => { x with step := some ⟨off, false, some c.handle, s.sidx⟩ })).setFld TIM_STAT.STEPPEND 1

/-- TIME_STEP. -/
def execTimeStep (src : Fin 128) (tag : Word) (args : List Word) (s : State) : Host.Outcome State Fault Refusal :=
  .next (s.runCmd src.val 0x0801 false tag args State.timeStepCmd)

/-- The step that the servo makes by itself under SRC = SAMPLE (R328). -/
def State.gridStep (s : State) : Option StepPend :=
  if s.timSrc = 1 ∧ s.timState = timUnset ∧ (s.flag TIM_STAT.JOINED ∨ s.raftState = raftRun) ∧ s.refCur ≠ 4 then
    some ⟨0, true, none, 0⟩ else none

/-- The counter steps at this block tick, and a new epoch opens. -/
def State.stepNow (s : State) (p : StepPend) : State :=
  let u := s.time.units
  let tgt : Int := if p.grid then ((s.origin + (s.sidx * secUnits + s.fs / 2) / s.fs : Nat) : Int)
    else ((u : Nat) : Int) + p.offset * ((2 ^ 40 : Nat) : Int)
  let wrapped : Nat := (tgt % (((2 ^ 64 * secUnits : Nat)) : Int)).toNat
  let off := (tgt - ((u : Nat) : Int)) / ((2 ^ 40 : Nat) : Int)
  let s := { s with time := Time.ofUnits wrapped }
  let s := (s.setFld TIM_STAT.EPOCH (s.epoch + 1)).setFld TIM_STAT.STEPPEND 0
  let s := (s.setTim timTracking).onTim (fun x => { x with step := none, within := 0, secEdge := false })
  let s := (s.latchMap).remapAll
  let s := s.raise 0xB0 0 (lo32 (ofSigned 64 off)) (BitVec.ofNat 32 s.epoch)
  match p.handle with
  | some h => s.finishAt h s.sidx stOk s.epoch (ofSigned 32 off)
  | none => s

/-- TIM_STEPPED. -/
def execTimStepped (s : State) : Host.Outcome State Fault Refusal :=
  .next (if !s.atBoundary then s
  else match s.tim.step with
    | some p => if p.asked < s.sidx then s.stepNow p else s
    | none =>
      match s.gridStep with
      | some p => s.stepNow p
      | none => s)

/-! Joining the system grid (R332) -/

/-- The conditions of TIME_JOIN. -/
def State.joinOk (s : State) : Bool :=
  s.mode == 1 && (!s.flag RAFT_CTL.EN || s.isMaster) && s.dpll == dpllLocked && s.refCur == 4 && !s.flag REF_STAT.PULLIN &&
  s.timState == timTracking

/-- TIME_JOIN once accepted. -/
def State.timeJoinCmd (s : State) (c : Ctx) : State :=
  if !s.joinOk then s.single c stWrongMode 0 0
  else if s.tim.join.isSome then s.single c stBusy 0 0
  else (s.accept c s.sidx 0 false 0).onTim (fun x => { x with join := some (c.handle, s.sidx) })

/-- TIME_JOIN. -/
def execTimeJoin (src : Fin 128) (tag : Word) (args : List Word) (s : State) : Host.Outcome State Fault Refusal :=
  .next (s.runCmd src.val 0x0802 false tag args State.timeJoinCmd)

/-- The multiple of 64 that this tick qualifies for: (T - ORIGIN) x fs within 1/64 sample of it. -/
def State.joinIndex (s : State) : Option Nat :=
  let x : Int := (((s.time.units : Nat) : Int) - ((s.origin : Nat) : Int)) * ((s.fs : Nat) : Int)
  let m := rneDiv x (64 * secUnits)
  if 0 ≤ m ∧ 64 * (x - m * ((64 * secUnits : Nat) : Int)).natAbs ≤ secUnits then some (m.toNat * 64) else none

/-- TIM_JOINED: at the first qualifying tick in SETUP the sample counter is loaded (R39); a master's raft re-forms. -/
def execTimJoined (s : State) : Host.Outcome State Fault Refusal :=
  .next (if s.mode ≠ 1 then s else match s.tim.join, s.joinIndex with
  | some (h, _), some m =>
    let s := (s.loadCounter m).onTim (fun x => { x with join := none })
    let s := (s.setFld TIM_STAT.JOINED 1).raise 0xB6 0 (lo32 m) (hi32 m)
    let s := if s.isMaster ∧ s.raftUp then s.setFld RAFT_STAT.STATE raftForming else s
    s.finishAt h m stOk 0 0
  | _, _ => s)

/-- TIME_JOIN_TIMEOUT: no tick qualified within 2 s. -/
def execTimeJoinTimeout (s : State) : Host.Outcome State Fault Refusal :=
  .next (match s.tim.join with
  | some (h, n) =>
    if n + 2 * s.fs ≤ s.sidx then (s.onTim (fun x => { x with join := none })).finish h stAborted 0 0 else s
  | none => s)

/-! Captures (R334, R335) -/

/-- D_RX and D_TX in TCLK edges by speed and FEC (R334). -/
def ptpDelay (speed fec : Nat) : Nat × Nat :=
  if speed = 0 then (if fec = 1 then (93, 37) else (41, 35))
  else if fec = 1 then (48, 25) else if fec = 2 then (95, 33) else (27, 23)

/-- A received PTP event frame latches the time, `edges` TCLK edges after the sample's tick (R334, R335). -/
def State.rxCapture (s : State) (mac tag edges : Nat) : State :=
  let s := if s.flag (NET_IRQ_TIME.VALID mac) then s.bump TIM_RXOVW_CNT.adr else s
  let cap := some (tag, s.timeAfter edges, s.epoch)
  (s.onTim (fun x => { x with irq := Tbl.insert x.irq mac cap })).setReg (NET_IRQ_TIME.adr mac) (BitVec.ofNat 32 (2 ^ 31 + tag))

/-- A read of word 0: words 1-5 are latched and VALID clears. -/
def State.irqRead (s : State) (n : Nat) : State :=
  match (Tbl.find s.tim.irq n).join with
  | some (_, t, e) => (s.putRegs (NET_IRQ_TIME.adr n + 4) (timeWords t e)).setFld (NET_IRQ_TIME.VALID n) 0
  | none => s

/-- NET_IRQ_TIME_READ. -/
def execNetIrqTimeRead (n : Fin 4) (s : State) : Host.Outcome State Fault Refusal := .next (s.irqRead n)

/-- A transmitted PTP event frame's time, less D_TX, enters the queue of 16 of its MAC (R334, R335). -/
def State.txCapture (s : State) (mac tag edges : Nat) : State :=
  let q := Tbl.get (fun _ => []) s.tim.txq mac
  let d := (ptpDelay (s.fld (NET_MXCFG.SPEED mac)) (s.fld (NET_MXCFG.FEC mac))).2
  if 16 ≤ q.length then (s.bump TIM_TXQ_OVF_CNT.adr).raiseN2 0xB5 mac mac tag
  else
    let t := Time.ofUnits ((s.timeAfter edges).units + d * 4 * 2 ^ 40)
    s.onTim (fun x => { x with txq := Tbl.put (fun _ => []) x.txq mac (q ++ [(tag, t, s.epoch)]) })

/-- A read of word 0: one capture is popped. -/
def State.txqRead (s : State) (n : Nat) : State :=
  match Tbl.get (fun _ => []) s.tim.txq n with
  | [] => s.setReg (TIM_TXQ.adr n) 0
  | (tag, t, e) :: l =>
    let s := s.onTim (fun x => { x with txq := Tbl.put (fun _ => []) x.txq n l })
    s.putRegs (TIM_TXQ.adr n) (BitVec.ofNat 32 (2 ^ 31 + l.length * 2 ^ 16 + tag) :: timeWords t e)

/-- TIM_TXQ_READ. -/
def execTimTxqRead (n : Fin 4) (s : State) : Host.Outcome State Fault Refusal := .next (s.txqRead n)

/-! PPS (R336) -/

/-- PPS_OUT_PULSE: a second boundary of the counter lies in this sample. -/
def execPpsOutPulse (s : State) : Host.Outcome State Fault Refusal :=
  let far := match s.tim.ppsAt with
    | some n => decide (n * 2 + s.fs ≤ s.sidx * 2)
    | none => true
  .next (if s.ppsOn && s.tim.secEdge && far then s.onTim (fun x => { x with ppsAt := some s.sidx, ppsHigh := true, secEdge := false })
  else s)

/-- PPS_IN_EDGE: the edge is latched, `edges` TCLK edges after the sample's tick. -/
def execPpsInEdge (edges : BitVec 24) (s : State) : Host.Outcome State Fault Refusal :=
  let t := s.timeAfter edges.toNat
  .next ((s.onTim (fun x => { x with ppsIn := some (t, s.epoch) })).setReg (TIM_PPSIN.adr 0) (lo32 t.sec))

/-! Registers (R325, R332, R337) -/

/-- SRC takes effect: MANUAL under NONE; out of MANUAL the servo starts again. -/
def State.srcApplied (s : State) : State :=
  if s.timSrc = 2 then s.setTim timManual
  else if s.timState = timManual then s.setTim (if s.epoch = 0 then timUnset else timTracking) else s

/-- The Expert registers as TIM_CTL sets them. -/
def State.timBasic (s : State) : State :=
  let v := s.reg TIM_CTL.adr
  let s := s.setReg TIM_XSERVO.adr (setBits (regReset TIM_XSERVO.adr) 31 30 (bitsOf v 31 30))
  let s := s.setReg TIM_XPPS.adr (setBits (regReset TIM_XPPS.adr) 31 31 (bitsOf v 29 29))
  (s.setReg TIM_XPTP.adr (setBits (regReset TIM_XPTP.adr) 23 16 (bitsOf v 7 0))).srcApplied

/-- TIM_XINC_HI_WRITE: both words are committed. -/
def State.xincHi (s : State) (v : Word) : State :=
  let inc := (s.reg TIM_XINC_LO.adr).toNat + bitsOf v 11 0 * 2 ^ 32
  if s.timSrc ≠ 2 ∨ !s.incOk inc then s.timRefuse TIM_XINC_HI.adr else s.setInc inc
def execTimXincHiWrite (v : Word) (s : State) : Host.Outcome State Fault Refusal :=
  .next (s.hostWrite TIM_XINC_HI.adr (fun s => s.xincHi v))

/-- Writes to the other registers of the block. -/
def State.timRegWrite (s : State) (off : Nat) (v : Word) : Option State :=
  if off = TIM_CTL.adr then
    some (if 2 ≤ bitsOf v 31 30 then s.timRefuse off else (s.setReg off (setBits v 28 8 0)).timBasic)
  else if off = TIM_XSERVO.adr then
    some (if bitsOf v 31 30 = 3 ∨ bitsOf v 29 20 = 0 ∨ 1000 < bitsOf v 29 20 ∨ bitsOf v 19 12 = 0 ∨ 200 < bitsOf v 19 12 then
      s.timRefuse off else (s.setReg off (setBits v 11 0 0)).srcApplied)
  else if off = TIM_XINC_LO.adr then some (if s.timSrc ≠ 2 then s.timRefuse off else s.setReg off v)
  else if off = TIM_XINC_HI.adr then some (s.xincHi v)
  else if off = TIM_XORIGIN.adr 0 ∨ off = TIM_XORIGIN.adr 1 then some (if s.flag TIM_STAT.JOINED then s.timRefuse off else s.setReg off v)
  else if off = TIM_XORIGIN.adr 2 then
    let ns := bitsOf v 29 0
    some (if s.flag TIM_STAT.JOINED ∨ ns % 10000000 ≠ 0 ∨ 1000000000 ≤ ns then s.timRefuse off else s.setReg off (setBits v 31 30 0))
  else if off = TIM_XPPS.adr then
    some (if bitsOf v 9 0 = 0 ∨ 900 < bitsOf v 9 0 then s.timRefuse off else s.setReg off (setBits v 29 10 0))
  else if off = TIM_XPTP.adr then some (if 2 ≤ bitsOf v 31 30 then s.timRefuse off else s.setReg off v)
  else none

end Sys2Proof.Machine
end

