-- ==== Sys2Proof/Machine/Fuse.lean ====
section
/-! DEFINITION. Lifetime settings: arming, burning and interruptions (R391, R466-R470). -/

namespace Sys2Proof.Machine

/-- Changes the fuses. -/
def State.onFuse (s : State) (f : FuseSt → FuseSt) : State := { s with fuse := f s.fuse }

/-- Slots of setting `k`, the consumed ones, and those left (R466). -/
def slotsOf (k : Nat) : Nat := [8, 8, 4, 4, 1].getD k 0
def State.consumed (s : State) (k : Nat) : List (Bool × Nat) := Tbl.get (fun _ => []) s.fuse.arr k
def State.slotsLeft (s : State) (k : Nat) : Nat := slotsOf k - (s.consumed k).length

/-- The value in force: that of the highest-numbered valid slot. -/
def State.fuseValue (s : State) (k : Nat) : Option Nat := ((s.consumed k).reverse.find? (fun p => p.1)).map (fun p => p.2)

/-- FUSE_SLOTS and FUSE_STAT.WRITTEN follow the array. -/
def State.showFuses (s : State) : State :=
  let s := ((s.setFld FUSE_SLOTS.NODE (s.slotsLeft 0)).setFld FUSE_SLOTS.SIDE (s.slotsLeft 1)).setFld FUSE_SLOTS.KEY (s.slotsLeft 2)
  let s := (s.setFld FUSE_SLOTS.DAC (s.slotsLeft 3)).setFld FUSE_SLOTS.DBG (s.slotsLeft 4)
  s.setFld FUSE_STAT.WRITTEN ((List.range 5).foldl (fun m k => if (s.fuseValue k).isSome then m + 2 ^ k else m) 0)

/-- A slot of setting `k` is consumed. -/
def State.consume (s : State) (k : Nat) (valid : Bool) (v : Nat) : State :=
  (s.onFuse (fun f => { f with arr := Tbl.insert f.arr k (s.consumed k ++ [(valid, v)]) })).showFuses

/-- An arming opens or ends. -/
def State.setArmed (s : State) (a : Option (Nat × Nat × Nat)) : State :=
  let s := s.onFuse (fun f => { f with armed := a })
  (s.setFld FUSE_STAT.ARMED (b2n a.isSome)).setFld FUSE_STAT.ARMSET ((a.map (fun t => t.1)).getD 0)

/-- A burn starts or ends. -/
def State.setBurn (s : State) (b : Option (Nat × Nat × Nat)) : State :=
  let s := s.onFuse (fun f => { f with burn := b })
  ({ s with glb := { s.glb with burning := b.isSome } }).setFld FUSE_STAT.BURNING (b2n b.isSome)

/-- A burn is interrupted (R470): its slot is consumed if START has begun to burn. -/
def State.fuseAbort (s : State) (status : Nat) (begun : Bool) : State :=
  match s.fuse.burn with
  | none => s
  | some (h, k, v) =>
    let slot := (s.consumed k).length
    let s := s.setBurn none
    let s := if begun then s.consume k false v else s
    let s := s.finish h status 0 (s.slotsLeft k)
    s.raiseN2 0x0F k slot status

/-- The value that FUSE_ARM's arguments name, as one number; none for arguments it refuses (R391). -/
def armValue (args : List Word) : Option Nat :=
  let k := bitsOf (args.getD 0 0) 2 0
  let a (i : Nat) : Nat := (args.getD i 0).toNat
  let n := args.length
  if k = 0 then (if n = 2 ∧ a 1 < 2 ^ 14 then some (a 1) else none)
  else if k = 1 then (if n = 2 ∧ a 1 < 2 then some (a 1) else none)
  else if k = 2 then (if n = 9 then some ((List.range 8).foldl (fun m i => m + a (1 + i) * 2 ^ (32 * i)) 0) else none)
  else if k = 3 then
    (if n = 10 ∧ (List.range 8).all (fun i => decide (a (1 + i) < 2 ^ 24)) ∧ a 9 < 256 then
      some ((List.range 8).foldl (fun m i => m + a (1 + i) * 2 ^ (24 * i)) (a 9 * 2 ^ 192)) else none)
  else if k = 4 then (if n = 1 then some 0 else none)
  else none

/-- A rail is below its warning threshold. -/
def State.railsLow (s : State) : Bool := s.flag SUP_STAT.WARN

/-- FUSE_ARM (R468): any FUSE_ARM ends an arming that was open; the code is fresh and non-zero. -/
def State.fuseArm (s : State) (c : Ctx) : State :=
  let k := c.abits 0 2 0
  match armValue c.args with
  | none => (s.setArmed none).single c stBadArg 0 0
  | some v =>
    if s.fuse.burn.isSome then s.single c stBusy 0 0
    else
      let s := s.setArmed none
      if s.railsLow then s.single c stSupply 0 (s.slotsLeft k)
      else if s.slotsLeft k = 0 then s.single c stFuseExhausted 0 0
      else
        let (s, r) := s.draw
        let code := 1 + r.toNat % 65535
        (s.setArmed (some (k, v, code))).single c stOk code (s.slotsLeft k)

def execFuseArm (src : Fin 128) (tag : Word) (args : List Word) (s : State) : Host.Outcome State Fault Refusal :=
  .next (s.runCmd src.val 0x0105 false tag args State.fuseArm)

/-- FUSE_WRITE (R468, R469). -/
def State.fuseWrite (s : State) (c : Ctx) : State :=
  let k := c.abits 0 2 0
  if s.fuse.burn.isSome then s.single c stBusy 0 (s.slotsLeft k)
  else match s.fuse.armed with
    | some (ak, v, code) =>
      if ak ≠ k ∨ code ≠ c.abits 1 15 0 then (s.setArmed none).single c stBadArg 0 (s.slotsLeft k)
      else if s.railsLow then s.single c stSupply 0 (s.slotsLeft k)
      else ((s.accept c s.sidx 0 false 0).setArmed none).setBurn (some (c.handle, k, v))
    | none => s.single c stBadArg 0 (s.slotsLeft k)

def execFuseWrite (src : Fin 128) (tag : Word) (args : List Word) (s : State) : Host.Outcome State Fault Refusal :=
  .next (s.runCmd src.val 0x0106 false tag args State.fuseWrite)

/-- The burn ends: `ok` is false when a bit still reads 0 after 3 pulses (R469, R470). -/
def State.fuseEnd (s : State) (ok : Bool) : State :=
  match s.fuse.burn with
  | none => s
  | some (h, k, v) =>
    if !ok then s.fuseAbort stHwFault true
    else
      let slot := (s.consumed k).length
      let s := (s.setBurn none).consume k true v
      let s := s.setFld FUSE_STAT.PEND (Nat.lor (s.fld FUSE_STAT.PEND) (2 ^ k))
      let s := if k = 4 then s.setFld FUSE_STAT.DBGLOCK 1 else s
      (s.finish h stOk slot (s.slotsLeft k)).raiseN2 0x0E k slot 0

/-- FUSE_WRITTEN. -/
def execFuseWritten (ok : Bool) (s : State) : Host.Outcome State Fault Refusal := .next (s.fuseEnd ok)

/-- FUSE_ARM_EXPIRY: 10 s have passed. -/
def execFuseArmExpiry (s : State) : Host.Outcome State Fault Refusal := .next (s.setArmed none)

/-- The registers and reset values that come from the array at the release of PORST_N (R420, R427, R467). -/
def State.loadFuses (s : State) : State :=
  let s := s.showFuses
  let node := s.fuseValue 0
  let side := s.fuseValue 1
  let s := (s.setFld FUSE_NODE.NVALID (b2n node.isSome)).setFld FUSE_NODE.NODE (node.getD 0)
  let s := (s.setFld FUSE_NODE.SVALID (b2n side.isSome)).setFld FUSE_NODE.SIDE (side.getD 0)
  let key := s.fuseValue 2
  let s := s.setFld GLB_BOOT.KEYOPEN (b2n key.isNone)
  let s := (List.range 8).foldl (fun (s : State) w => s.setReg (FUSE_KEYHASH.adr w) (BitVec.ofNat 32 (key.getD 0 / 2 ^ (32 * w)))) s
  let s := s.setFld FUSE_STAT.DBGLOCK (b2n (s.fuseValue 4).isSome)
  let dac := (s.fuseValue 3).getD 0
  (List.range 8).foldl (fun (s : State) d =>
    let code := dac / 2 ^ (24 * d) % 2 ^ 24
    let g := dac / 2 ^ (192 + d) % 2
    let s := (s.setFld (DAC_CLRCODE.CODE d) code).setFld (DAC_XCLRCODE.CODE d) code
    (s.setReg DAC_CTL.adr (setBits (s.reg DAC_CTL.adr) (8 + d) (8 + d) g)).setFld (DAC_XCH.GAIN d) g) s

end Sys2Proof.Machine
end

