-- ==== Sys2Proof/Machine/Asrc.lean ====
section
/-! DEFINITION. The rate conversion pool (R248-R256). -/

namespace Sys2Proof.Machine

/-- ASRC_REFUSED with the channel or group and the cause (R254, R256). -/
def State.asrcRefuse (s : State) (n cause : Nat) : State := s.raiseN2 0x76 n cause 0

/-! Streams -/

/-- A stream publishes records: a port or a flow in RUN (R232, R291). -/
def State.publishes (s : State) (kind id : Nat) : Bool :=
  if kind = 1 then s.tdmState id == tdmRun else if kind = 2 then s.fld (NET_RXS.STATE id) == 2 else false

/-- A stream is lost: a port in FAULT or OFF, a flow without a record for 2 blocks, or one that is not there (R251). -/
def State.streamLost (s : State) (kind id : Nat) : Bool :=
  if kind = 1 then s.tdmState id == tdmFault || s.tdmState id == tdmOff
  else s.fld (NET_RXS.STATE id) != 2 && ((s.rxOf id).heard.isEmpty || decide (2 ≤ (s.rxOf id).blind))

/-- The rate of a stream in Hz: measured at a port, declared for a flow. -/
def State.streamRate (s : State) (kind id : Nat) : Nat :=
  if kind = 1 then s.fld (TDM_MEAS.FRATE id) else rateHz (s.fld (NET_RXF.RATE id))

/-- The ratio of a stream's rate to the internal rate lies within 0.25-4.0 (R251). -/
def State.ratioOk (s : State) (kind id : Nat) : Bool :=
  let r := s.streamRate kind id
  decide (s.fs ≤ 4 * r ∧ r ≤ 4 * s.fs)

/-- Streams with a heard channel in group `g`. -/
def State.groupStreams (s : State) (g : Nat) : List (Nat × Nat) :=
  (keysOf s.str.ch).foldl (fun l c =>
    let w := (s.chOf c).heard
    if (s.chOf c).fade.isSome && chIn w && chGroup w == g && !(l.contains (chKind w, chId w)) then l ++ [(chKind w, chId w)] else l) []

/-! Groups -/

def State.gState (s : State) (g : Nat) : Nat := s.fld (ASRC_GSTAT.STATE g)
def State.gPilot (s : State) (g : Nat) : Nat × Nat := (s.fld (ASRC_GSTAT.PKIND g), s.fld (ASRC_GSTAT.PID g))
def State.setPilot (s : State) (g : Nat) (p : Nat × Nat) : State :=
  (s.setFld (ASRC_GSTAT.PKIND g) p.1).setFld (ASRC_GSTAT.PID g) p.2

/-- A group changes state; its ratio reads 0 in IDLE and ACQUIRE. -/
def State.setGState (s : State) (g st : Nat) : State :=
  let was := s.gState g == gLock
  let n := s.fld ASRC_STAT.LOCKED
  let s := s.setFld (ASRC_GSTAT.STATE g) st
  let s := s.setFld ASRC_STAT.LOCKED (n + b2n (st == gLock) - b2n was)
  if st = gIdle ∨ st = gAcquire then s.setReg (ASRC_RATIO.adr g) 0 else s

/-- The channels of a group fade in or out (R250, R251). -/
def State.fadeGroup (s : State) (g : Nat) (on : Bool) : State :=
  let x := s.grpOf g
  if !on && x.fade.isNone then s
  else
    let mode := if on then s.fld (ASRC_XGRP.MODE g) else x.mode
    s.setGrp g { x with fade := turnFade 0 x.fade on s.sidx, switch := none, mode := mode }

/-- A stream of a group is found lost or stray: its channels fade out (R251, R252). -/
def State.loseStream (s : State) (g : Nat) (t : Nat × Nat) : State :=
  let x := s.grpOf g
  if x.lost.any (fun l => l.1 == t.1 && l.2.1 == t.2) then s
  else s.setGrp g { x with lost := x.lost ++ [(t.1, t.2, s.sidx)] }

/-- A stream is back. -/
def State.findStream (s : State) (g : Nat) (t : Nat × Nat) : State :=
  let x := s.grpOf g
  s.setGrp g { x with lost := x.lost.filter (fun l => !(l.1 == t.1 && l.2.1 == t.2)) }

/-- The line of a group is to start afresh from sample `n` (R251). -/
def State.restartLine (s : State) (g n : Nat) : State := s.setGrp g { s.grpOf g with start := some n, good := 0, far := 0 }

/-! The fitted line (R250, R252) -/

/-- The latest timing record of a stream: its own index, and the time in units of 2^-40 sample (R232, R291). -/
def State.recordOf (s : State) (kind id : Nat) : Option (Int × Int) :=
  if !s.publishes kind id then none
  else if kind = 1 then
    let r := (s.tdmOf id).pub
    if r.2.2.2 = 0 then none else some ((r.2.2.1 : Int), ((r.1 * 65536 + r.2.1 : Nat) : Int) * 16777216)
  else (s.rxOf id).record

/-- A stream's entry as its records begin: its frames are matched to the nearest places of the line. -/
def GrpSt.enter (g : GrpSt) (kind id : Nat) (i t : Int) : GrpMem :=
  let off := g.idx + rneDiv (t - g.time) g.per - i
  { kind := kind, id := id, live := true, off := off, idx := i, time := t, per := none, err := t - g.timeOf (i + off), stray := 0 }

/-- An entry takes the next record: its error against the line, and the period since the last record. -/
def GrpMem.track (m : GrpMem) (g : GrpSt) (i t : Int) : GrpMem :=
  let e := t - g.timeOf (i + m.off)
  { m with idx := i, time := t, per := some ((t - m.time) / (i - m.idx)).toNat, err := e,
           stray := if g.per < 2 * e.natAbs then m.stray + 1 else 0 }

/-- The group's entry of a stream. -/
def GrpSt.putMem (g : GrpSt) (m : GrpMem) : GrpSt :=
  { g with mems := g.mems.filter (fun y => !(y.kind == m.kind && y.id == m.id)) ++ [m] }

/-- A stream is checked against the line at a block tick; one that has stopped, or whose index starts again, is matched afresh as it
resumes. -/
def State.trackStream (s : State) (x : GrpSt) (t : Nat × Nat) : GrpSt :=
  if !s.publishes t.1 t.2 then { x with mems := x.mems.map (fun m => if m.kind == t.1 && m.id == t.2 then { m with live := false } else m) }
  else match s.recordOf t.1 t.2, x.memOf t.1 t.2 with
    | none, _ => x
    | some r, some m =>
      if !m.live || decide (r.1 < m.idx) then x.putMem (x.enter t.1 t.2 r.1 r.2)
      else if r.1 = m.idx then x else x.putMem (m.track x r.1 r.2)
    | some r, none => x.putMem (x.enter t.1 t.2 r.1 r.2)

/-- A line through a first record, with the period of the pilot's measured rate. -/
def GrpSt.begin_ (g : GrpSt) (p : Nat × Nat) (r : Int × Int) (per : Nat) : GrpSt :=
  let x := { g with idx := r.1, time := r.2, per := per, start := none, good := 0, far := 0, pers := [], mems := [] }
  x.putMem (x.enter p.1 p.2 r.1 r.2)

/-- The line after a record of the pilot at an operating point: a second-order loop with the free gains of Config, DESIGN CHOICE
(log entry 45). The counts of R251 follow the error. -/
def GrpSt.fit (g : GrpSt) (m : GrpMem) (op n fs : Nat) : GrpSt :=
  let i := m.idx + m.off
  let per := (((g.per : Nat) : Int) + rneShift ((Config.freeLoop op).2 * m.err) 31).toNat
  { g with idx := i, time := g.timeOf i + rneShift ((Config.freeLoop op).1 * m.err) 31, per := max 1 per,
           good := if 100 * m.err.natAbs < g.per then g.good + 1 else 0, far := if g.per < 2 * m.err.natAbs then g.far + 1 else 0,
           pers := (n, max 1 per) :: g.pers.filter (fun p => decide (n < p.1 + fs)) }

/-- The operating point of a group in ACQUIRE or LOCK (R250). -/
def State.loopPoint (s : State) (g : Nat) : Nat :=
  if s.gState g = gAcquire then 0 else if s.sidx < (s.grpOf g).lockAt + 2 * s.fs then 1 else 2

/-- The line of group `g` at a block tick: begun, or held against its streams and, but for HOLD, fitted to the pilot's new
record. -/
def State.groupFit (s : State) (g : Nat) : State :=
  let x := s.grpOf g
  let p := s.gPilot g
  let rate := s.streamRate p.1 p.2
  match x.start with
  | some n =>
    match s.recordOf p.1 p.2 with
    | some r => if n ≤ s.sidx ∧ rate ≠ 0 then s.setGrp g (x.begin_ p r (s.fs * 2 ^ 40 / rate)) else s
    | none => s
  | none =>
    if x.per = 0 then s
    else
      let y := (p :: (s.groupStreams g).filter (fun t => t != p)).foldl s.trackStream x
      match y.memOf p.1 p.2 with
      | some m =>
        if (s.gState g = gAcquire ∨ s.gState g = gLock) ∧ x.memOf p.1 p.2 ≠ some m then
          s.setGrp g (y.fit m (s.loopPoint g) s.sidx s.fs)
        else s.setGrp g y
      | none => s.setGrp g y

/-- A stream whose stamps lie within 0.5 sample of the line (R251). -/
def State.onLine (s : State) (g : Nat) (t : Nat × Nat) : Bool :=
  s.publishes t.1 t.2 && ((s.grpOf g).memOf t.1 t.2).any (fun m => m.live && decide (2 * m.err.natAbs ≤ (s.grpOf g).per))

/-- A stream that has resumed, its period known; and its ratio within 100 ppm of the held one (R251). -/
def State.resumed (s : State) (g : Nat) (t : Nat × Nat) : Bool :=
  s.publishes t.1 t.2 && (s.groupStreams g).contains t && ((s.grpOf g).memOf t.1 t.2).any (fun m => m.live && m.per.isSome)
def State.nearHeld (s : State) (g : Nat) (t : Nat × Nat) : Bool :=
  ((s.grpOf g).memOf t.1 t.2).any (fun m => m.per.any (fun q =>
    decide ((((q : Nat) : Int) - (((s.grpOf g).per : Nat) : Int)).natAbs * 10000 ≤ (s.grpOf g).per)))

/-- A stream that can take over as pilot: another member in RUN on the line, not lost (R251). -/
def State.qualifies (s : State) (g : Nat) (t : Nat × Nat) : Bool :=
  t != s.gPilot g && (s.groupStreams g).contains t && s.onLine g t && !((s.grpOf g).lost.any (fun l => l.1 == t.1 && l.2.1 == t.2))

/-- A step: the error above 0.5 input sample in 4 blocks in a row, or the ratio moved by more than 2,000 ppm within 1 s (R251). -/
def State.stepped (s : State) (g : Nat) : Bool :=
  let x := s.grpOf g
  decide (4 ≤ x.far) || x.pers.any (fun p => decide (500 * (((p.2 : Nat) : Int) - ((x.per : Nat) : Int)).natAbs > x.per))

/-- A stream named by an operand. -/
def streamOf (flow : Bool) (id : Nat) : Nat × Nat := (if flow then 2 else 1, id)

/-- An event of group `g`. -/
def State.gEvent (s : State) (code g : Nat) : State := s.raise code g (BitVec.ofNat 32 g) 0

/-- A group enters LOCK. -/
def State.lockGroup (s : State) (g : Nat) : State :=
  let s := s.setGState g gLock
  (s.setGrp g { s.grpOf g with lockAt := s.sidx }).gEvent 0x70 g

/-- ASRC_LOCKED: from ACQUIRE on a position error below 0.01 input sample for 32 blocks, or at a block boundary from HOLD as a
member resumes on the held line, which becomes the pilot (R251; the boundary and the pilot are DEDUCED, log entry 45). `hold` says
which. -/
def execAsrcLocked (g : Fin 64) (hold : Bool) (flow : Bool) (id : Fin 4096) (s : State) : Host.Outcome State Fault Refusal :=
  let g := g.val
  let t := streamOf flow id.val
  .next (if !hold ∧ s.gState g = gAcquire ∧ 32 ≤ (s.grpOf g).good ∧ (s.grpOf g).start = none then
    (s.lockGroup g).fadeGroup g true
  else if hold ∧ s.atBoundary ∧ s.gState g = gHold ∧ s.resumed g t ∧ s.onLine g t ∧ s.nearHeld g t then
    ((s.setPilot g t).findStream g t).lockGroup g
  else s)

/-- A step of a group back to ACQUIRE: its channels fade out before the line starts afresh (R251). -/
def State.stepGroup (s : State) (g : Nat) : State :=
  ((((s.setGState g gAcquire).fadeGroup g false).restartLine g (s.sidx + 64)).bump (ASRC_STEP_CNT.adr g)).gEvent 0x71 g

/-- ASRC_STEP: a step in LOCK, or a member that resumes off the held line in HOLD (R251). -/
def execAsrcStep (g : Fin 64) (flow : Bool) (id : Fin 4096) (s : State) : Host.Outcome State Fault Refusal :=
  let g := g.val
  let t := streamOf flow id.val
  .next (if s.gState g = gLock then if s.stepped g then s.stepGroup g else s
  else if s.atBoundary ∧ s.gState g = gHold ∧ s.resumed g t ∧ !(s.onLine g t && s.nearHeld g t) then
    ((s.setPilot g t).findStream g t).stepGroup g
  else s)

/-- ASRC_RANGE: the initial ratio is out of range (R251). -/
def execAsrcRange (g : Fin 64) (s : State) : Host.Outcome State Fault Refusal :=
  let p := s.gPilot g.val
  .next (if s.gState g.val = gAcquire ∧ !s.ratioOk p.1 p.2 then (s.setGState g.val gRange).gEvent 0x75 g.val else s)

/-- ASRC_PILOT_CHANGED: at a block boundary another member takes over from a lost pilot; ratio and phase stay (R251). -/
def execAsrcPilotChanged (g : Fin 64) (flow : Bool) (id : Fin 4096) (s : State) : Host.Outcome State Fault Refusal :=
  let g := g.val
  let t := streamOf flow id.val
  let p := s.gPilot g
  .next (if s.atBoundary ∧ s.gState g = gLock ∧ s.streamLost p.1 p.2 ∧ s.qualifies g t then
    (((s.loseStream g p).setPilot g t).bump (ASRC_LOSS_CNT.adr g)).gEvent 0x77 g
  else s)

/-- ASRC_SOURCE_LOST: the pilot is lost and no member qualifies (R251). -/
def execAsrcSourceLost (g : Fin 64) (s : State) : Host.Outcome State Fault Refusal :=
  let g := g.val
  let p := s.gPilot g
  .next (if s.gState g = gLock ∧ s.streamLost p.1 p.2 ∧ !((s.groupStreams g).any (s.qualifies g)) then
    let s := (s.loseStream g p).setGState g gHold
    ((s.setGrp g { s.grpOf g with holdAt := s.sidx }).bump (ASRC_LOSS_CNT.adr g)).gEvent 0x72 g
  else s)

/-- ASRC_HOLD_EXPIRED: HOLDMAX, in units of 100 ms, has elapsed (R251). -/
def execAsrcHoldExpired (g : Fin 64) (s : State) : Host.Outcome State Fault Refusal :=
  let g := g.val
  .next (if s.gState g = gHold ∧ (s.grpOf g).holdAt * 10 + s.fld (ASRC_XGRP.HOLDMAX g) * s.fs ≤ s.sidx * 10 then
    ((s.setGState g gIdle).fadeGroup g false).gEvent 0x73 g
  else s)

/-- ASRC_STRAY: a member's error has exceeded 0.5 sample in 4 blocks in a row (R252). -/
def execAsrcStray (g : Fin 64) (flow : Bool) (id : Fin 4096) (s : State) : Host.Outcome State Fault Refusal :=
  let g := g.val
  let t := streamOf flow id.val
  .next (if (s.gState g = gLock ∨ s.gState g = gHold) ∧ t ≠ s.gPilot g ∧ (s.groupStreams g).contains t ∧
      ((s.grpOf g).memOf t.1 t.2).any (fun m => decide (4 ≤ m.stray)) ∧
      !((s.grpOf g).lost.any (fun l => l.1 == t.1 && l.2.1 == t.2)) then
    ((s.loseStream g t).bump (ASRC_STRAY_CNT.adr g)).gEvent 0x74 g
  else s)

/-- ASRC_STREAM_REJOIN: at a block boundary a lost stream is back in RUN on the line (R251). -/
def execAsrcStreamRejoin (g : Fin 64) (flow : Bool) (id : Fin 4096) (s : State) : Host.Outcome State Fault Refusal :=
  let t := streamOf flow id.val
  .next (if s.atBoundary ∧ (s.gState g.val = gLock ∨ s.gState g.val = gHold) ∧ t ≠ s.gPilot g.val ∧ s.onLine g.val t then
      s.findStream g.val t
    else s)

/-! Group registers -/

/-- The effect of a write of word `w` of ASRC_XGRPg. -/
def State.xgrpWrite (s : State) (g w : Nat) (v : Word) : State :=
  let off := ASRC_XGRP.adr g + 4 * w
  if w = 1 then s.stage off (setBits v 31 16 0)
  else
    let v := setBits v 27 12 0
    let old := s.lastWritten off
    if (s.flag (ASRC_XGRP.EN g) || bitOf old 31) && (bitsOf old 29 28 != bitsOf v 29 28 || bitsOf old 11 0 != bitsOf v 11 0) then
      s.asrcRefuse g 6
    else if bitsOf v 29 28 == 1 && decide (32 ≤ bitsOf v 11 0) then s.asrcRefuse g 1
    else s.stage off v

/-- ASRC_XGRP_WRITE. -/
def execAsrcXgrpWrite (g : Fin 64) (w : Fin 2) (v : Word) (s : State) : Host.Outcome State Fault Refusal :=
  .next (s.hostWrite (ASRC_XGRP.adr g.val + 4 * w.val) (fun s => s.xgrpWrite g.val w.val v))

/-- A group's configuration takes effect, and its state follows at a block boundary (R251, R253). -/
def State.groupApply (s : State) (g : Nat) : State :=
  let off := ASRC_XGRP.adr g
  let s := if (s.due off).isSome then s.commitStg off else s
  let s := if (s.due (off + 4)).isSome then s.commitStg (off + 4) else s
  let st := s.gState g
  let pk := s.fld (ASRC_XGRP.KIND g)
  let pid := s.fld (ASRC_XGRP.PILOT g)
  if !s.flag (ASRC_XGRP.EN g) then
    if st = gIdle then s else ((s.setGState g gIdle).fadeGroup g false)
  else
    let s :=
      if st = gIdle ∧ s.publishes pk pid then
        let s := (s.setGState g gAcquire).setPilot g (pk, pid)
        (s.setGrp g { s.grpOf g with lost := [] }).restartLine g s.sidx
      else if st = gRange ∧ s.ratioOk (s.gPilot g).1 (s.gPilot g).2 then (s.setGState g gAcquire).restartLine g s.sidx
      else s
    let x := s.grpOf g
    if x.mode = s.fld (ASRC_XGRP.MODE g) ∨ x.switch.isSome then s
    else if fadedOut x.fade s.sidx then s.setGrp g { x with mode := s.fld (ASRC_XGRP.MODE g) }
    else s.setGrp g { x with switch := some s.sidx, fade := turnFade 0 x.fade false s.sidx }

/-- ASRC_GROUP_APPLY. -/
def execAsrcGroupApply (g : Fin 64) (s : State) : Host.Outcome State Fault Refusal :=
  .next (if s.atBoundary then s.groupApply g.val else s)

/-! Channels (R254) -/

/-- Offset of a channel entry, and the channels named by listed registers. -/
def chOff (c : Nat) : Nat := 0x501000 + 4 * c
def State.chanKeys (s : State) : List Nat :=
  (s.regs.map (fun p => p.1) ++ s.stg.map (fun p => p.1) ++ s.stgB.map (fun p => p.1)).filterMap (fun off =>
    if 0x501000 ≤ off ∧ off < 0x502000 then some ((off - 0x501000) / 4) else none)

/-- A channel is held: enabled, written or in force, or fading. -/
def State.chanHeld (s : State) (c : Nat) : Bool :=
  bitOf (s.lastWritten (chOff c)) 31 || bitOf (s.reg (chOff c)) 31 || (s.chOf c).fade.isSome

/-- Two entries name the same slot and direction of a stream. -/
def chanSame (w v : Word) : Bool := chDir w == chDir v && chKind w == chKind v && chId w == chId v && chSlot w == chSlot v

/-- The cause that refuses channel entry `v`; 0 none. A channel that fades out still has its slot. -/
def State.chanCause (s : State) (c : Nat) (v : Word) : Nat :=
  let old := s.lastWritten (chOff c)
  let kind := chKind v
  if s.chanHeld c && setBits old 31 31 0 != setBits v 31 31 0 then 3
  else if kind = 3 ∨ (kind = 0 ∧ bitOf v 31) ∨ (kind = 1 ∧ (32 ≤ chId v ∨ 32 ≤ chSlot v)) then 1
  else if !bitOf v 31 then 0
  else if s.chanKeys.any (fun j => j != c && s.chanHeld j && chanSame (s.lastWritten (chOff j)) v) then 2
  else if chIn v && (List.range 16).any (fun b => (List.range 16).any (fun m =>
      s.memEntry b m == (kind, chId v) && (s.boomGroups b m).any (fun g => g != chGroup v))) then 4
  else 0

/-- The effect of a write of ASRC_XCHc. -/
def State.xchWrite (s : State) (c : Nat) (v : Word) : State :=
  let v := setBits v 9 6 0
  let cause := s.chanCause c v
  if cause ≠ 0 then s.asrcRefuse c cause else s.stage (chOff c) v

/-- ASRC_XCH_WRITE. -/
def execAsrcXchWrite (c : Fin 1024) (v : Word) (s : State) : Host.Outcome State Fault Refusal :=
  .next (s.hostWrite (chOff c.val) (fun s => s.xchWrite c.val v))

/-- A channel entry takes effect. -/
def State.chanApply (s : State) (c : Nat) : State :=
  let was := bitOf (s.reg (chOff c)) 31
  let s := s.commitStg (chOff c)
  let w := s.reg (chOff c)
  let x := s.chOf c
  let n := s.fld ASRC_STAT.CHANNELS
  if bitOf w 31 && !was then
    (s.setFld ASRC_STAT.CHANNELS (n + 1)).setCh c { fade := turnFade 0 x.fade true s.sidx, heard := w }
  else if was && !bitOf w 31 then
    (s.setFld ASRC_STAT.CHANNELS (n - 1)).setCh c { x with fade := turnFade 0 x.fade false s.sidx }
  else s

/-- ASRC_CHANNEL_APPLY. -/
def execAsrcChannelApply (c : Fin 1024) (s : State) : Host.Outcome State Fault Refusal :=
  .next (if s.atBoundary && (s.due (chOff c.val)).isSome then s.chanApply c.val else s)

/-! The Basic page (R255) -/

/-- A channel entry for a slot of a stream. -/
def chWord (dir g kind id slot : Nat) : Word :=
  BitVec.ofNat 32 (2 ^ 31 + dir * 2 ^ 30 + g * 2 ^ 24 + kind * 2 ^ 22 + id * 2 ^ 10 + slot)

/-- The lowest-numbered free channels, `n` of them; fewer where the pool has fewer. -/
def State.freeChans (s : State) (n : Nat) : List Nat := ((List.range 1024).filter (fun c => !s.chanHeld c)).take n

/-- Entries for a list of channels, if each is acceptable: the entries, or the cause with the channel refused (none for cause
5). -/
def State.chanPlan (s : State) (want : List Word) : List (Nat × Word) × Nat × Option Nat :=
  let free := s.freeChans want.length
  if free.length < want.length then ([], 5, none)
  else
    let l := free.zip want
    match l.find? (fun p => s.chanCause p.1 p.2 != 0) with
    | some p => ([], s.chanCause p.1 p.2, some p.1)
    | none => (l, 0, none)

/-- The channels that a stream has, as last written. -/
def State.chansOf (s : State) (kind id : Nat) : List Nat :=
  (s.chanKeys.filter (fun c =>
    let w := s.lastWritten (chOff c)
    bitOf w 31 && chKind w == kind && chId w == id)).eraseDups

/-- Channels are disabled and freed. -/
def State.dropChans (s : State) (l : List Nat) : State :=
  l.foldl (fun s c => s.stageBasic (chOff c) (setBits (s.lastWritten (chOff c)) 31 31 0)) s

/-- Groups that Basic ports name, with the lowest-numbered port of each. -/
def State.basicGroups (s : State) : List (Nat × Nat) :=
  (List.range 32).foldl (fun l p =>
    let w := s.reg (ASRC_BPORT.adr p)
    if bitOf w 31 && !(l.any (fun t => t.1 == bitsOf w 5 0)) then l ++ [(bitsOf w 5 0, p)] else l) []

/-- The Basic page sets the groups that it names. -/
def State.setBasicGroups (s : State) : State :=
  s.basicGroups.foldl (fun s t =>
    let w : Word := BitVec.ofNat 32 (2 ^ 31 + bitsOf (s.reg ASRC_BCFG.adr) 0 0 * 2 ^ 30 + 2 ^ 28 + t.2)
    (s.stageBasic (ASRC_XGRP.adr t.1) w).stageBasic (ASRC_XGRP.adr t.1 + 4) 100) s

/-- The effect of a write of ASRC_BPORTp. A refusal carries the channel that an entry is refused for, else the group (R256). -/
def State.bportWrite (s : State) (p : Nat) (v : Word) : State :=
  let off := ASRC_BPORT.adr p
  let v := setBits v 30 6 0
  let old := s.reg off
  let g := bitsOf v 5 0
  if !bitOf v 31 then (s.setReg off v).dropChans (if bitOf old 31 then s.chansOf 1 p else [])
  else if bitOf old 31 then if v = old then s.setBasicGroups else s.asrcRefuse g 3
  else
    let slots := cfgSlots (s.lastWritten (TDM_XCTL.adr p))
    let want := (List.range slots).flatMap (fun k => [chWord 0 g 1 p k, chWord 1 g 1 p k])
    let (l, cause, c) := s.chanPlan want
    if cause ≠ 0 then s.asrcRefuse (c.getD g) cause
    else (l.foldl (fun s t => s.stageBasic (chOff t.1) t.2) (s.setReg off v)).setBasicGroups

/-- ASRC_BPORT_WRITE. -/
def execAsrcBportWrite (p : Fin 32) (v : Word) (s : State) : Host.Outcome State Fault Refusal :=
  .next (s.hostWrite (ASRC_BPORT.adr p.val) (fun s => s.bportWrite p.val v))

/-- A write of ASRC_BCFG sets the mode of the Basic groups. -/
def State.asrcBcfg (s : State) (v : Word) : State :=
  let s := s.setReg ASRC_BCFG.adr (setBits v 31 1 0)
  s.basicGroups.foldl (fun s t =>
    s.stageBasic (ASRC_XGRP.adr t.1) (setBits (s.lastWritten (ASRC_XGRP.adr t.1)) 30 30 (bitsOf v 0 0))) s

/-! Ticks -/

/-- rho as unsigned Q3.29, saturated (R255). -/
def ratioWord (per : Nat) : Nat := if per = 0 then 0 else min 0xFFFFFFFF (2 ^ 69 / per)

/-- At a block tick the line follows the records, streams other than the pilot are found lost, and the ratio is published (R250,
R251, R255). In RANGE it is that of the measured rate. -/
def State.groupTick (s : State) (g : Nat) : State :=
  let s := s.groupFit g
  let st := s.gState g
  let s := if st = gLock ∨ st = gHold then
      ((s.groupStreams g).filter (fun t => t != s.gPilot g)).foldl (fun s t =>
        if s.streamLost t.1 t.2 && !((s.grpOf g).lost.any (fun l => l.1 == t.1 && l.2.1 == t.2)) then
          (s.loseStream g t).bump (ASRC_LOSS_CNT.adr g) else s) s
    else s
  if st = gLock ∨ st = gHold then s.setReg (ASRC_RATIO.adr g) (BitVec.ofNat 32 (ratioWord (s.grpOf g).per))
  else if st = gRange then
    s.setReg (ASRC_RATIO.adr g) (BitVec.ofNat 32 (min 0xFFFFFFFF (s.streamRate (s.gPilot g).1 (s.gPilot g).2 * 2 ^ 29 / s.fs)))
  else s

/-- At a block tick. -/
def State.asrcBlockTick (s : State) : State := (List.range 64).foldl (fun s g => if s.gState g = gIdle then s else s.groupTick g) s

/-- At a sample tick: mode switches follow their fades, and faded channels are freed (R253, R254). -/
def State.asrcSampleTick (s : State) : State :=
  let s := (keysOf s.str.grp).foldl (fun s g =>
    let x := s.grpOf g
    match x.switch with
    | some t =>
      if t + 64 ≤ s.sidx then
        let on := s.gState g == gLock || s.gState g == gHold
        s.setGrp g { x with switch := none, mode := s.fld (ASRC_XGRP.MODE g), fade := if on then some (true, s.sidx) else none }
      else s
    | none => if x.fade.isSome && fadedOut x.fade s.sidx then s.setGrp g { x with fade := none } else s) s
  (keysOf s.str.ch).foldl (fun s c =>
    let x := s.chOf c
    if x.fade.isSome && fadedOut x.fade s.sidx then s.setCh c ChSt.reset else s) s

end Sys2Proof.Machine
end

