-- ==== Sys2Proof/Machine/NetFlow.lean ====
section
/-! DEFINITION. The flow tables: checks, staging, application, and the flow commands (R287-R289, R295, R297, R300, R301,
R305). -/

namespace Sys2Proof.Machine

/-! Entries -/

/-- Offset of word `w` of an entry. -/
def flowOff (tx : Bool) (f w : Nat) : Nat := (if tx then 0x730000 else 0x710000) + 32 * f + 4 * w

/-- An entry in force, and as last written. -/
def State.flowReg (s : State) (tx : Bool) (f : Nat) : List Word := (List.range 8).map (fun w => s.reg (flowOff tx f w))
def State.flowLast (s : State) (tx : Bool) (f : Nat) : List Word := (List.range 8).map (fun w => s.lastWritten (flowOff tx f w))

/-- Fields of an entry. -/
def flW (e : List Word) (w : Nat) : Word := e.getD w 0
def flEn (e : List Word) : Bool := bitOf (flW e 0) 31
def flMac (e : List Word) : Nat := bitsOf (flW e 0) 30 29
def flL16 (e : List Word) : Bool := bitOf (flW e 0) 28
def flUnl (e : List Word) : Bool := bitOf (flW e 0) 27
def flRate (e : List Word) : Nat := bitsOf (flW e 0) 26 24
def flCh (e : List Word) : Nat := bitsOf (flW e 0) 21 16 + 1
def flSpp (e : List Word) : Nat := bitsOf (flW e 0) 15 8
def flBase (tx : Bool) (e : List Word) : Nat := bitsOf (flW e (if tx then 6 else 5)) 12 0
def flMcoff (tx : Bool) (e : List Word) : Nat := (flW e (if tx then 5 else 4)).toNat
def flBytes (e : List Word) : Nat := if flL16 e then 2 else 3
def flPayload (e : List Word) : Nat := flCh e * flSpp e * flBytes e
/-- Fields of a receive entry. -/
def flClaims (e : List Word) : Bool := bitsOf (flW e 0) 23 22 == 1
def flLoff (e : List Word) : Nat := bitsOf (flW e 5) 31 16
def flJbuf (e : List Word) : Nat := bitsOf (flW e 6) 19 0
def flJsdr (e : List Word) : Bool := bitOf (flW e 6) 31
def flAlt (e : List Word) : Nat := bitsOf (flW e 7) 11 0

/-- A flow that converts (R294). -/
def State.flConv (s : State) (e : List Word) : Bool := flUnl e || flRate e != s.fld GLB_RATE.RATE

/-- Flows of a direction that are enabled as last written. -/
def State.flowKeys (s : State) (tx : Bool) : List Nat :=
  let base := flowOff tx 0 0
  ((s.regs.map (fun p => p.1) ++ s.stg.map (fun p => p.1) ++ s.stgB.map (fun p => p.1)).filterMap (fun off =>
    if base ≤ off ∧ off < base + 0x20000 ∧ off % 32 = 0 ∧ bitOf (s.lastWritten off) 31 then some ((off - base) / 32)
    else none)).eraseDups

/-! Checks (R288, R297, R300, R301) -/

/-- NET_FLOW_REFUSED: `table` 0 receive flow, 1 transmit flow, 2 register. -/
def State.netRefuse (s : State) (table cause index : Nat) : State :=
  let w : Word := BitVec.ofNat 32 (table * 2 ^ 30 + cause * 2 ^ 24 + index % 4096)
  (s.setReg NET_REFUSE.adr w).raise 0xA2 0 w 0

/-- The reserved bits of a word read 0. -/
def flowMask (tx : Bool) (w : Nat) (v : Word) : Word :=
  if w = 0 then setBits v 7 0 0
  else if tx then (if w = 3 then setBits v 9 8 0 else if w = 6 then setBits v 24 13 0 else if w = 7 then 0 else v)
  else if w = 3 then setBits v 14 12 0 else if w = 5 then setBits v 15 13 0 else if w = 6 then setBits v 30 20 0
  else if w = 7 then setBits v 31 12 0 else v

/-- What of a word may change while EN = 1 is taken out: EN and LOFF; PCP, DSCP and TTL of a transmit flow (R300). -/
def flowFixed (tx : Bool) (w : Nat) (v : Word) : Word :=
  if w = 0 then setBits v 31 31 0
  else if tx then (if w = 3 then setBits (setBits (setBits v 30 28 0) 15 10 0) 7 0 0 else v)
  else if w = 5 then setBits v 31 16 0 else v

/-- A word with a field out of range. -/
def flowWordBad (tx : Bool) (w : Nat) (v : Word) : Bool :=
  if w = 0 then
    6 ≤ bitsOf v 26 24 || bitsOf v 15 8 == 0 || decide (192 < bitsOf v 15 8) || (!tx && decide (2 ≤ bitsOf v 23 22))
  else if tx then w == 3 && bitsOf v 7 0 == 0
  else (w == 5 && bitsOf v 31 16 == 0) || (w == 6 && bitsOf v 19 0 % 16 != 0)

/-- Two receive entries name each other as partners of a claim pair. -/
def claimPartners (f g : Nat) (e d : List Word) : Bool :=
  f != g && flClaims e && flClaims d && flAlt e == g && flAlt d == f

/-- The entries of a pair agree (R297). -/
def claimAgree (e d : List Word) : Bool :=
  flRate e == flRate d && flL16 e == flL16 d && flCh e == flCh d && flSpp e == flSpp d &&
  flBase false e == flBase false d && flUnl e == flUnl d

/-- The least common multiple of the packet lengths, so that packet rates add exactly. -/
def sppLcm : Nat := (List.range 192).foldl (fun l k => Nat.lcm l (k + 1)) 1

/-- Packet rate times `sppLcm`. -/
def flPps (e : List Word) : Nat := rateHz (flRate e) * (sppLcm / flSpp e)

/-- Packet rates and line load of R288 for the entries of one direction; the limits are those of MAC `mac`. -/
def State.flowRatesOk (s : State) (es : List (List Word)) (mac : Nat) : Bool :=
  let mine := es.filter (fun e => flMac e == mac)
  let sum (l : List (List Word)) (k : List Word → Nat) : Nat := l.foldl (fun n e => n + flPps e * k e) 0
  let line := if s.flag (NET_MXCFG.SPEED mac) then 23750000000 else 9500000000
  decide (sum es (fun _ => 1) ≤ 16000000 * sppLcm) && decide (sum mine (fun _ => 1) ≤ 4000000 * sppLcm) &&
  decide (sum mine (fun e => (flPayload e + 90) * 8) ≤ line * sppLcm)

/-- The cause that refuses entry `e` for enabled flow `f`; 0 none. Of several causes the lowest number is reported. -/
def State.enableCause (s : State) (tx : Bool) (f : Nat) (e : List Word) : Nat :=
  let others := ((s.flowKeys tx).filter (fun g => g != f)).map (fun g => (g, s.flowLast tx g))
  let pair (p : Nat × List Word) : Bool := !tx && claimPartners f p.1 e p.2
  let last := 0x2000 + flBase tx e + flCh e - 1
  if (List.range 8).any (fun w => flowWordBad tx w (flW e w)) ||
      (!tx && (decide (flJbuf e < flLoff e) || (!flJsdr e && decide (s.fs < 50 * flJbuf e)))) ||
      decide (0x4000 ≤ last) || s.addrCause tx last != 0 then 1
  else if 1440 < flPayload e then 2
  else if others.any (fun p =>
      (decide (flBase tx e < flBase tx p.2 + flCh p.2 ∧ flBase tx p.2 < flBase tx e + flCh e) && !pair p) ||
      (!tx && flMac e == flMac p.2 && flW e 1 == flW p.2 1 && flW e 2 == flW p.2 2 &&
        bitsOf (flW e 3) 31 16 == bitsOf (flW p.2 3) 31 16 && bitsOf (flW e 3) 11 0 == bitsOf (flW p.2 3) 11 0)) then 3
  else if !s.flowRatesOk (e :: others.map (fun p => p.2)) (flMac e) then 6
  else if others.any (fun p => pair p && !claimAgree e p.2) then 7
  else if !s.flag (NET_MXCFG.EN (flMac e)) then 8
  else 0

/-- The cause that refuses a write of word `w`. -/
def State.flowCause (s : State) (tx : Bool) (f w : Nat) (v : Word) : Nat :=
  let old := s.flowLast tx f
  let new := old.set w v
  if (flEn old || flEn (s.flowReg tx f)) && flowFixed tx w (flW old w) != flowFixed tx w v then 4
  else if flowWordBad tx w v then 1
  else if flEn new then s.enableCause tx f new else 0

/-- The effect of a write of word `w` of a flow entry. -/
def State.flowWrite (s : State) (tx : Bool) (f w : Nat) (v : Word) : State :=
  let v := flowMask tx w v
  let off := flowOff tx f w
  let cause := s.flowCause tx f w v
  if cause ≠ 0 then s.netRefuse (b2n tx) cause f else s.stage off v

/-- NET_FLOW_WRITE. -/
def execNetFlowWrite (tx : Bool) (f : Fin 4096) (w : Fin 8) (v : Word) (s : State) : Host.Outcome State Fault Refusal :=
  .next (s.hostWrite (flowOff tx f.val w.val) (fun s => s.flowWrite tx f.val w.val v))

/-! Jitter buffers (R295) -/

/-- The first place of `need` bytes in a pool beside the ranges in use. -/
def firstFit (base len need : Nat) (used : List (Nat × Nat)) : Option Nat :=
  let fits (c : Nat) : Bool :=
    decide (base ≤ c ∧ c + need ≤ base + len) && used.all (fun u => decide (c + need ≤ u.1 ∨ u.1 + u.2 ≤ c))
  ((base :: used.map (fun u => u.1 + u.2)).filter fits).foldl (fun b c => some (match b with
    | some x => min x c
    | none => c)) none

/-- A buffer for `n` bytes of flow `f` in units of 4 KiB, in the yard pool or the SDRAM region. -/
def State.jitterFit (s : State) (f : Nat) (sdr : Bool) (n : Nat) : Option (Nat × Nat × Bool) :=
  let used := s.net.rx.filterMap (fun p =>
    if p.1 = f then none else p.2.buf.bind (fun b => if b.2.2 = sdr then some (b.1, b.2.1) else none))
  let base := (s.reg (if sdr then NET_XJSDR_BASE.adr else NET_XJPOOL_BASE.adr)).toNat
  let len := (s.reg (if sdr then NET_XJSDR_LEN.adr else NET_XJPOOL_LEN.adr)).toNat
  let need := roundUp n 4096
  (firstFit base len need used).map (fun a => (a, need, sdr))

/-- The buffer that an entry needs. -/
def State.flowFit (s : State) (f : Nat) (e : List Word) : Option (Nat × Nat × Bool) :=
  s.jitterFit f (flJsdr e) (flCh e * flJbuf e * 4)

/-! The control firmware's frames (R303, R304) -/

/-- A frame enters the control transmit queue of a MAC. -/
def State.queueCtl (s : State) (mac : Nat) (x : CtlFrame) : State :=
  { s with net := { s.net with ctx := Tbl.put (fun _ => []) s.net.ctx mac (Tbl.get (fun _ => []) s.net.ctx mac ++ [x]) } }

/-- A multicast group address. -/
def isGroup (a : Word) : Bool := bitsOf a 31 28 == 14

/-- The membership of a group that the enabled receive flows of a MAC need: none; EXCLUDE mode without sources; or INCLUDE mode for
their sources. -/
def State.igmpWant (s : State) (mac : Nat) (group : Word) : Option (Option (List Word)) :=
  let l := (keysOf s.net.rx).filter (fun f =>
    let e := s.flowReg false f
    flEn e && flMac e == mac && flW e 1 == group)
  if l.isEmpty || !isGroup group then none
  else if l.any (fun f => flW (s.flowReg false f) 2 == 0) then some none
  else some (some ((l.map (fun f => flW (s.flowReg false f) 2)).eraseDups))

/-- A membership that has changed is reported; that of a group with no flow left is left. -/
def State.igmpUpdate (s : State) (mac : Nat) (group : Word) (before : Option (Option (List Word))) : State :=
  let now := s.igmpWant mac group
  if now = before then s else s.queueCtl mac (.igmpReport group (now.getD (some [])))

/-- A query is answered for each membership that it asks for; address 0 asks for all. -/
def State.igmpAnswer (s : State) (mac : Nat) (group : Word) : State :=
  let gs := ((keysOf s.net.rx).filterMap (fun f =>
    let e := s.flowReg false f
    if flEn e && flMac e == mac && isGroup (flW e 1) && (group == 0 || flW e 1 == group) then some (flW e 1) else none)).eraseDups
  gs.foldl (fun s g => match s.igmpWant mac g with
    | some l => s.queueCtl mac (.igmpReport g l)
    | none => s) s

/-! Receive flows: enable, disable, change (R291, R297, R300) -/

/-- The partner of flow `f`, both enabled. -/
def State.claimMate (s : State) (f : Nat) : Option Nat :=
  let e := s.flowReg false f
  let g := flAlt e
  if flEn e && flEn (s.flowReg false g) && claimPartners f g e (s.flowReg false g) then some g else none

/-- The gain of a half of a claim pair at sample `n`, in 32nds (R297). -/
def State.half32 (s : State) (f n : Nat) : Nat :=
  match (s.rxOf f).half with
  | some h => fadeSteps 32 h n
  | none => 32

/-- The selection of a pair moves from `old` to `new`: the old half fades out from where it stands, and the new one fades in after
that; where the old half is silent the new one turns back in from where it stands. The two are never mixed (R297). -/
def State.claimSwitch (s : State) (old new : Nat) : State :=
  let n := s.sidx
  let a := s.half32 old (n - 1)
  let b := s.half32 new (n - 1)
  let s := s.setRx old { s.rxOf old with half := some (false, n - (32 - a)) }
  let s := s.setRx new { s.rxOf new with half := some (true, if a = 0 then n - b else n + a) }
  let s := (s.setFld (NET_RXS.SEL old) 1).setFld (NET_RXS.SEL new) 0
  s.raiseN2 0xA7 (min old new) (min old new) (s.fld (NET_RXS.CLAIM old) * 2 ^ 16 + s.fld (NET_RXS.CLAIM new))

/-- The channels of a flow's conversion entries: receive entries for a receive flow, transmit entries for a transmit flow. -/
def State.flowChans (s : State) (tx : Bool) (f : Nat) : List Nat :=
  (s.chansOf 2 f).filter (fun c => chDir (s.lastWritten (chOff c)) == b2n tx)

/-- Words that wait for flow `f` are gone. -/
def State.dropWords (s : State) (f : Nat) : State :=
  let rest : Tbl (Tbl Int) := s.str.inbox.map (fun p => (p.1, p.2.filter (fun q => !(streamAddrs 2 f).contains q.1)))
  { s with str := { s.str with inbox := rest.filter (fun p => !p.2.isEmpty) } }

/-- A disabled receive flow has faded out: its buffer is free, and its FLOW_CLEAR is done. -/
def State.rxFree (s : State) (f : Nat) : State :=
  let x := s.rxOf f
  let s := s.dropWords f
  let s := match s.memberOf 2 f with
    | some (b, m) => s.boomIncident b m.slot false
    | none => s
  let s := s.setRx f { RxSt.reset with cmd := x.cmd }
  match x.clr with
  | some h => s.finishAt h s.sidx stOk f (s.cmdD0 h)
  | none => s

/-- An enable of a receive flow is refused with cause 5: its command, if it has one, fails (R301). -/
def State.rxNoFit (s : State) (f : Nat) : State :=
  let cmd := (s.rxOf f).cmd
  let s := (s.dropChans (s.flowChans false f)).netRefuse 0 5 f
  (s.setRx f { s.rxOf f with cmd := none }).finishOpt cmd stBadArg 5 f

/-- A receive flow starts with its buffer: it fades in at its first word in time (R291, R300). -/
def State.rxStart (s : State) (f : Nat) (b : Nat × Nat × Bool) : State :=
  let e := s.flowReg false f
  let mate := (s.claimMate f).isSome
  let s := s.setRx f { RxSt.reset with
    mem := BoomMem.fresh 0 2 f, heard := e, used := s.sidx, loff := flLoff e, buf := some b,
    half := if mate then some (false, s.sidx - 32) else none }
  let s := match s.memberOf 2 f with
    | some (bm, m) => s.setMem bm m { m with seen := false, zeros := 0, passed := false, got := [], fade := none }
    | none => s
  ((s.setFld (NET_RXS.STATE f) 1).setFld (NET_RXS.CONV f) (b2n (s.flConv e))).setFld (NET_RXS.SEL f) (b2n mate)

/-- An enable of a receive flow takes effect; a flow that still fades out starts when that ends (R300). -/
def State.rxEnable (s : State) (f : Nat) (b : Nat × Nat × Bool) : State :=
  let x := s.rxOf f
  let s := s.setFld NET_STAT.RXF (s.fld NET_STAT.RXF + 1)
  let s := if x.heard.isEmpty then s.rxStart f b else (s.setRx f { x with again := true }).setFld (NET_RXS.STATE f) 1
  let s := s.setRx f { s.rxOf f with cmd := none }
  match x.cmd with
  | some h => s.finish h stOk f (s.cmdD0 h)
  | none => s

/-- A flow enabled again has faded out. -/
def State.rxAgain (s : State) (f : Nat) : State :=
  let s := s.rxFree f
  match s.flowFit f (s.flowReg false f) with
  | some b => s.rxStart f b
  | none =>
    let s := s.setFld NET_STAT.RXF (s.fld NET_STAT.RXF - 1)
    ((s.setFld (NET_RXF.EN f) 0).setFld (NET_RXS.STATE f) 0).rxNoFit f

/-- A disable of a receive flow takes effect: it fades out over 64 samples, and its partner takes over the pair. -/
def State.rxDisable (s : State) (f : Nat) : State :=
  let x := s.rxOf f
  let s := s.setFld NET_STAT.RXF (s.fld NET_STAT.RXF - 1)
  let g := flAlt x.heard
  let s := if flEn (s.flowReg false g) && claimPartners f g x.heard (s.flowReg false g) then
      (if s.flag (NET_RXS.SEL g) then s.claimSwitch f g else s) else s
  let s := (s.setFld (NET_RXS.STATE f) 0).setFld (NET_RXS.SEL f) 0
  s.setRx f { s.rxOf f with
    fade := if x.again then x.fade else turnFade 64 x.fade false s.sidx, mem := { x.mem with leaving := true }, moveAt := none,
    again := false }

/-- The words of a receive entry take effect; those that would enable a flow whose buffer does not fit are refused with cause 5
and leave the entry unchanged (R295, R300, R301). -/
def State.rxApply (s : State) (f : Nat) : State :=
  let old := s.flowReg false f
  let offs := ((List.range 8).map (flowOff false f)).filter (fun off => (s.due off).isSome)
  let t := offs.foldl State.commitStg s
  let e := t.flowReg false f
  let x := s.rxOf f
  let was (mac : Nat) (group : Word) := s.igmpWant mac group
  if flEn e && !flEn old then
    match t.flowFit f e with
    | none => (offs.foldl State.unstage s).rxNoFit f
    | some b => (t.rxEnable f b).igmpUpdate (flMac e) (flW e 1) (was (flMac e) (flW e 1))
  else if flEn old && !flEn e then (t.rxDisable f).igmpUpdate (flMac old) (flW old 1) (was (flMac old) (flW old 1))
  else if flEn old && flLoff e != x.loff then
    let inBoom := match t.memberOf 2 f with
      | some (b, _) => (t.boomOf b).en
      | none => false
    if inBoom then t.setRx f { x with loff := flLoff e }
    else if x.moveAt.isSome then t
    else t.setRx f { x with moveAt := some t.sidx, fade := turnFade 64 x.fade false t.sidx }
  else t

/-! Transmit flows (R298-R300) -/

/-- Where the frames of a unicast destination go: to it on the MAC's own network, else to the gateway (R304). -/
def State.nextHop (s : State) (mac : Nat) (a : Word) : Word :=
  let m := s.reg (NET_MASK.adr mac)
  if a &&& m = s.reg (NET_IP.adr mac) &&& m then a else s.reg (NET_GW.adr mac)

/-- The hardware address of an address in a MAC's cache. -/
def State.arpOf (s : State) (mac : Nat) (ip : Word) : Option ArpEnt := s.net.arp.find? (fun x => x.mac == mac && x.ip == ip)

/-- The unicast destination of an entry is unresolved. -/
def State.unresolved (s : State) (e : List Word) : Bool :=
  !isGroup (flW e 1) && (s.arpOf (flMac e) (s.nextHop (flMac e) (flW e 1))).isNone

/-- A flow is HELD: its MAC's link is down, or its unicast destination is unresolved (R299). -/
def State.txHeld (s : State) (f : Nat) : Bool :=
  let e := (s.txOf f).heard
  !s.flag (NET_MXCFG.EN (flMac e)) || !bitOf (s.reg NET_STAT.adr) (flMac e) || s.unresolved e

/-- NET_TXS shows whether a sending flow is held, and the flow notes since when it is unresolved. -/
def State.txShow (s : State) (f : Nat) : State :=
  let x := s.txOf f
  if !x.on then s
  else
    let s := s.setFld (NET_TXS.STATE f) (if s.txHeld f then 2 else 1)
    if s.unresolved x.heard then s.setTx f { x with unres := some (x.unres.getD s.sidx) }
    else
      let s := s.setTx f { x with unres := none }
      { s with net := { s.net with noArp := s.net.noArp.filter (fun g => g != f) } }

/-- A transmit flow starts with its entry: it sends from its first packet boundary on (R300). -/
def State.txStart (s : State) (f : Nat) (e : List Word) : State :=
  (s.setTx f { TxSt.reset with on := true, heard := e }).txShow f

/-- A transmit flow has stopped, and starts afresh where it is enabled again. -/
def State.txStop (s : State) (f : Nat) : State :=
  let x := s.txOf f
  let s := { s with net := { s.net with noArp := s.net.noArp.filter (fun g => g != f) } }
  let s := (s.setTx f TxSt.reset).setFld (NET_TXS.STATE f) 0
  let s := match x.clr with
    | some h => s.finishAt h s.sidx stOk f (s.cmdD0 h)
    | none => s
  if x.again then s.txStart f (s.flowReg true f) else s

/-- The words of a transmit entry take effect. -/
def State.txApply (s : State) (f : Nat) : State :=
  let was := flEn (s.flowReg true f)
  let s := (List.range 8).foldl (fun s w => if (s.due (flowOff true f w)).isSome then s.commitStg (flowOff true f w) else s) s
  let e := s.flowReg true f
  let x := s.txOf f
  if flEn e && !was then
    let s := s.setFld NET_STAT.TXF (s.fld NET_STAT.TXF + 1)
    let s := if x.on then s.setTx f { x with again := true, cmd := none } else s.txStart f e
    match x.cmd with
    | some h => s.finish h stOk f (s.cmdD0 h)
    | none => s
  else if was && !flEn e then
    let s := s.setFld NET_STAT.TXF (s.fld NET_STAT.TXF - 1)
    if x.rows.isEmpty then s.txStop f else s.setTx f { x with stop := true, again := false }
  else if was && !x.again then s.setTx f { x with heard := e } else s

/-- NET_FLOW_APPLY: at a block boundary the words written to an entry take effect together. -/
def execNetFlowApply (tx : Bool) (f : Fin 4096) (s : State) : Host.Outcome State Fault Refusal :=
  .next (if s.atBoundary && (List.range 8).any (fun w => (s.due (flowOff tx f.val w)).isSome) then
    (if tx then s.txApply f.val else s.rxApply f.val)
  else s)

/-! Flow commands (R305, R390) -/

/-- Samples per packet at a packet time and rate; 0 for the pairs that do not exist (R287). -/
def ptimeSpp (ptime rate : Nat) : Nat :=
  ([[6, 6, 11, 12, 22, 24], [11, 12, 22, 24, 44, 48], [15, 16, 29, 32, 59, 64], [44, 48, 88, 96, 176, 192],
    [176, 192, 0, 0, 0, 0]].getD ptime []).getD rate 0

/-- The entry that a flow command fills in (R305, R390). -/
def State.flowFill (s : State) (tx : Bool) (c : Ctx) : List Word :=
  let a := c.arg 0
  let rate := bitsOf a 22 20
  let w0 := 2 ^ 31 + bitsOf a 31 30 * 2 ^ 29 + s.fld NET_DEF.L16 * 2 ^ 28 + bitsOf a 29 29 * 2 ^ 27 + rate * 2 ^ 24 +
    (if tx then 2 ^ 23 + 2 ^ 22 else 0) + bitsOf a 19 14 * 2 ^ 16 + ptimeSpp (s.fld NET_DEF.PTIME) rate * 2 ^ 8
  let base := bitsOf a 12 0
  let loff := (rneDiv ((s.fld NET_DEF.LOFF_US * s.fs : Nat) : Int) 1000000).toNat
  if tx then
    [BitVec.ofNat 32 w0, c.arg 1, c.arg 2, BitVec.ofNat 32 (34 * 2 ^ 10 + 64), 0, c.arg 3, BitVec.ofNat 32 base, 0]
  else
    [BitVec.ofNat 32 w0, c.arg 1, c.arg 4, c.arg 2, c.arg 3, BitVec.ofNat 32 (loff * 2 ^ 16 + base),
     BitVec.ofNat 32 (roundUp (2 * loff) 16), 0]

/-- FLOW_RX_SET and FLOW_TX_SET once accepted. -/
def State.flowSetCmd (tx : Bool) (s : State) (c : Ctx) : State :=
  let keys := s.flowKeys tx
  match (List.range 4096).find? (fun f => !keys.contains f && !bitOf (s.reg (flowOff tx f 0)) 31) with
  | none => s.single c stNoResource 0 0
  | some f =>
    let e := s.flowFill tx c
    let cause := s.enableCause tx f e
    if cause ≠ 0 then (s.netRefuse (b2n tx) cause f).single c stBadArg cause f
    else
      let want := if c.abits 0 29 29 = 0 then []
        else (List.range (flCh e)).map (fun k => chWord (b2n tx) (c.abits 0 28 23) 2 f k)
      let (l, bad, chan) := s.chanPlan want
      if bad = 5 then (s.asrcRefuse (c.abits 0 28 23) 5).single c stNoResource 5 f
      else if bad ≠ 0 then (s.asrcRefuse (chan.getD 0) bad).single c stBadArg bad (chan.getD 0)
      else
        let s := (List.range 8).foldl (fun s w => s.stageBasic (flowOff tx f w) (flW e w)) s
        let s := l.foldl (fun s t => s.stageBasic (chOff t.1) t.2) s
        let s := (s.accept c (s.nextBoundary s.sidx) 0 false 0).updCmd c.handle (fun k => { k with d0 := want.length })
        if tx then s.setTx f { s.txOf f with cmd := some c.handle } else s.setRx f { s.rxOf f with cmd := some c.handle }

/-- FLOW_CLEAR once accepted. -/
def State.flowClearCmd (s : State) (c : Ctx) : State :=
  let tx := c.abits 0 31 31 == 1
  let f := c.abits 0 11 0
  let busy := if tx then (s.txOf f).cmd.isSome || (s.txOf f).clr.isSome else (s.rxOf f).cmd.isSome || (s.rxOf f).clr.isSome
  if busy then s.single c stBusy 0 0
  else
    let chans := s.flowChans tx f
    let s := s.dropChans chans
    if !flEn (s.flowLast tx f) && !flEn (s.flowReg tx f) then s.single c stOk f chans.length
    else
      let s := s.stageBasic (flowOff tx f 0) (setBits (s.lastWritten (flowOff tx f 0)) 31 31 0)
      let s := (s.accept c s.sidx 0 false 0).updCmd c.handle (fun k => { k with d0 := chans.length })
      if tx then s.setTx f { s.txOf f with clr := some c.handle } else s.setRx f { s.rxOf f with clr := some c.handle }

/-- FLOW_RX_SET. -/
def execFlowRxSet (src : Fin 128) (tag : Word) (args : List Word) (s : State) : Host.Outcome State Fault Refusal :=
  .next (s.runCmd src.val 0x0701 false tag args (State.flowSetCmd false))

/-- FLOW_TX_SET. -/
def execFlowTxSet (src : Fin 128) (tag : Word) (args : List Word) (s : State) : Host.Outcome State Fault Refusal :=
  .next (s.runCmd src.val 0x0702 false tag args (State.flowSetCmd true))

/-- FLOW_CLEAR. -/
def execFlowClear (src : Fin 128) (tag : Word) (args : List Word) (s : State) : Host.Outcome State Fault Refusal :=
  .next (s.runCmd src.val 0x0703 false tag args State.flowClearCmd)

/-! Registers (R295, R296, R305) -/

/-- FEC that a speed does not allow: the reserved code, and Clause 108 at 10 Gb/s. -/
def fecBad (fec speed : Nat) : Bool := fec == 3 || (fec == 2 && speed == 0)

/-- NET_CTL drives EN, SPEED and FEC of each NET_Mn_XCFG. -/
def State.netBasic (s : State) : State :=
  (List.range 4).foldl (fun s n =>
    let v := s.reg NET_CTL.adr
    s.setReg (NET_MXCFG.adr n) (setBits (setBits (setBits (s.reg (NET_MXCFG.adr n)) 31 31 (bitsOf v (4 * n + 3) (4 * n + 3)))
      30 30 (bitsOf v (4 * n + 2) (4 * n + 2))) 29 28 (bitsOf v (4 * n + 1) (4 * n)))) s

/-- A Basic reset of the function rewrites NET_Mn_XCFG from NET_CTL with its other fields at their defaults (R31, R305). The MAC and
IP addresses have no documented default and stay as written (DEDUCED, log entry 55). -/
def State.netReset (s : State) : State :=
  ((List.range 4).foldl (fun (s : State) n => s.setReg (NET_MXCFG.adr n) (regReset (NET_MXCFG.adr n))) s).netBasic

/-- A write of a network register that has checks of its own; none for the others. -/
def State.netRegWrite (s : State) (off : Nat) (v : Word) : Option State :=
  let refuse (cause : Nat) : State := s.netRefuse 2 cause (off % 4096)
  if off = NET_CTL.adr then
    some (if (List.range 4).any (fun n => fecBad (bitsOf v (4 * n + 1) (4 * n)) (bitsOf v (4 * n + 2) (4 * n + 2))) then refuse 8
      else (s.setReg off (setBits v 31 16 0)).netBasic)
  else if off = NET_DEF.adr then
    some (if 5 ≤ bitsOf v 15 13 then refuse 1 else s.setReg off (setBits v 11 0 0))
  else if off = NET_XCLAIM.adr then
    some (if bitsOf v 3 0 = 0 ∨ bitsOf v 3 0 = 15 then refuse 1 else s.setReg off (setBits v 31 4 0))
  else if NET_XJPOOL_BASE.adr ≤ off ∧ off ≤ NET_XJSDR_LEN.adr then
    some (if (s.flowKeys false) ≠ [] ∨ s.fld NET_STAT.RXF ≠ 0 then refuse 4 else s.setReg off v)
  else if (List.range 4).any (fun n => off == NET_MXCFG.adr n) then
    some (if fecBad (bitsOf v 29 28) (bitsOf v 30 30) then refuse 8 else s.setReg off (setBits v 27 13 0))
  else none

end Sys2Proof.Machine
end

