-- ==== Sys2Proof/Machine/Net.lean ====
section
/-! DEFINITION. Packets, control frames, links, and what the flows do at the ticks (R290-R294, R296-R299, R302-R304). -/

namespace Sys2Proof.Machine

/-! Media counts (R292) -/

/-- round(T0 * fs) of the latched pair, and its sample index. -/
def State.mediaBase (s : State) (fs : Nat) : Int := rneDiv ((s.mapPair.2 * fs : Nat) : Int) (1000000000 * 2 ^ 40)

/-- The media count, without the offset, at the start of sample `n`: R292's count counted on from S0. -/
def State.mediaAt (s : State) (fs n : Nat) : Int :=
  s.mediaBase fs + rneDiv (((n : Int) - s.mapPair.1) * fs) s.fs

/-- The distance of a timestamp from c0, unwrapped about the current count. -/
def State.mediaDist (s : State) (fs mcoff ts : Nat) : Int :=
  let c0 := s.mediaBase fs + mcoff
  let cur := s.mediaAt fs s.sidx + mcoff
  toSigned 32 (ofSigned 32 ((ts : Int) - cur)) + (cur - c0)

/-! Received packets (R290-R293, R296) -/

/-- The claim number of a packet: the element of that ID with four data bytes; 0 without one. -/
def claimOf (id : Nat) (exts : List RtpExt) : Nat :=
  match exts.find? (fun x => x.id.toNat == id && x.data.length == 4) with
  | some x => (x.data.getD 0 0).toNat * 256 + (x.data.getD 1 0).toNat
  | none => 0

/-- The value of big-endian bytes. -/
def beValue (bs : List Byte) : Nat := bs.foldl (fun n b => n * 256 + b.toNat) 0

/-- The word of sample `i`, channel `c` of a payload, in units of 2^-31 (R43). -/
def payloadWord (e : List Word) (bs : List Byte) (i c : Nat) : Int :=
  let b := flBytes e
  toSigned (8 * b) (beValue ((bs.drop ((i * flCh e + c) * b)).take b)) * ((2 ^ (32 - 8 * b) : Nat) : Int)

/-- The payload without RTP padding, whose last byte counts it (R286). -/
def rtpBody (p : UdpPkt) : List Byte :=
  if p.padded then p.payload.take (p.payload.length - (p.payload.getLastD 0).toNat) else p.payload

/-- A UDP packet on MAC `mac` belongs to enabled flow `f` (R290). -/
def State.flowMatches (s : State) (mac f : Nat) (p : UdpPkt) : Bool :=
  let e := s.flowReg false f
  flEn e && !(s.rxOf f).again && flMac e == mac && flW e 1 == p.daddr && bitsOf (flW e 3) 31 16 == p.dport.toNat &&
  (flW e 2 == 0 || flW e 2 == p.saddr) &&
  (!bitOf (flW e 3) 15 || (match p.vid with
    | some v => v.toNat == bitsOf (flW e 3) 11 0
    | none => false))

/-- A word for sample `k` arrives at the place of flow `f` that delivers: its entry of an enabled boom, or its own; and whether it is
kept (R239, R240, R293). -/
def State.flowArrive (s : State) (f jbuf : Nat) (k : Int) : State × Bool :=
  let own (s : State) : State × Bool :=
    let x := s.rxOf f
    if k < s.sidx then (s, false)
    else
      let (s, m, ok) := s.memArrive (.flow f) x.mem k.toNat jbuf
      (s.setRx f { s.rxOf f with mem := m }, ok)
  match s.memberOf 2 f with
  | some (b, m) =>
    let bx := s.boomOf b
    if !bx.en then own s
    else if k < s.sidx then (s.siteDrop (.boom b m.slot), false)
    else
      let (s, m', ok) := s.memArrive (.boom b m.slot) m k.toNat (min (bx.delay + 64) jbuf)
      (s.setMem b m m', ok)
  | none => own s

/-- One sample of a packet of grid index `j` goes to its source sample, a number that may lie before 0 (R239, R293). -/
def State.placeSample (s : State) (f : Nat) (e : List Word) (bs : List Byte) (i : Nat) (j : Int) : State :=
  let k := j + 1 + s.convDelay 2 f
  let (s, ok) := s.flowArrive f (flJbuf e) k
  if ok then (List.range (flCh e)).foldl (fun s c => s.deliver k.toNat (flowKey f c) (payloadWord e bs i c)) s else s

/-- One sample of a converting flow, of media count `m` and time `t`, is kept for the pool; one that lies too far ahead is dropped as
any early word (R240, R292, R294). -/
def State.keepSample (s : State) (f : Nat) (e : List Word) (bs : List Byte) (i : Nat) (m t : Int) : State :=
  let k := t / convUnit + 1 + s.convDelay 2 f
  let early : State × Bool := if s.sidx + (flJbuf e) < k then s.flowArrive f (flJbuf e) k else (s, true)
  let (s, ok) := early
  if !ok then s
  else
    let x := s.rxOf f
    let row := (List.range (flCh e)).map (fun c => payloadWord e bs i c)
    let keep := x.hist.filter (fun h => h.1 != m && decide (m < h.1 + 4 * (s.convDelay 2 f + 256)))
    s.setRx f { x with hist := (m, row) :: keep }

/-- A packet of flow `f` that is used. The flow's timing record is that of the packet's first sample (R291, R292). -/
def State.usePacket (s : State) (f : Nat) (p : UdpPkt) : State :=
  let e := s.flowReg false f
  let x := s.rxOf f
  let st := s.fld (NET_RXS.STATE f)
  let s := match x.seq with
    | some q => if p.seq.toNat = (q + 1) % 65536 then s else s.bump (NET_RXSEQ_CNT.adr f)
    | none => s
  let s := if x.seq.isSome ∧ s.reg (NET_RXS.adr f + 4) ≠ p.ssrc then s.raise 0xA5 f (BitVec.ofNat 32 f) p.ssrc else s
  let s := (s.setReg (NET_RXS.adr f + 4) p.ssrc).setFld (NET_RXS.CLAIM f) (claimOf (s.fld NET_XCLAIM.ID) p.exts)
  let s := if st = 3 then s.raiseN2 0xA4 f f (s.sidx - x.lostAt) else s
  let fs := rateHz (flRate e)
  let d : Int := s.mediaDist fs (flMcoff false e) p.ts.toNat
  let m : Int := s.mediaBase fs + ((flMcoff false e : Nat) : Int) + d
  let time (i : Nat) : Int := ((s.mapPair.1 : Nat) : Int) * convUnit + (d + (i : Int)) * ((s.fs : Nat) : Int) * convUnit / ((fs : Nat) : Int)
  let s := (s.setFld (NET_RXS.STATE f) 2).setRx f { s.rxOf f with
    seq := some p.seq.toNat, used := s.sidx, blind := 0, record := some (m, time 0) }
  if s.flConv e then (List.range (flSpp e)).foldl (fun s i => s.keepSample f e (rtpBody p) i (m + (i : Int)) (time i)) s
  else (List.range (flSpp e)).foldl (fun s i => s.placeSample f e (rtpBody p) i (((s.mapPair.1 : Nat) : Int) + d + (i : Int))) s

/-- A packet reaches a flow that it belongs to: it is used, or dropped and counted (R290). -/
def State.flowPacket (s : State) (mac : Nat) (p : UdpPkt) (f : Nat) : State :=
  if p.version.toNat = 2 ∧ (rtpBody p).length = flPayload (s.flowReg false f) then s.usePacket f p else s.bump (NET_RXDROP.adr mac)

/-! Control frames and the firmware's services (R303, R304) -/

/-- A frame enters control queue `q` of a MAC, or is dropped; `taken` frames have left the queue since its last frame (R303). What the
firmware does on it takes effect at once: DESIGN CHOICE (log entry 56). -/
def State.controlFrame (s : State) (mac q : Nat) (fr : NetFrame) (len taken : Nat) (eff : State → State) : State :=
  if 1536 < len then s.bump (NET_RXDROP.adr mac)
  else
    let k := 8 * mac + q
    let l := (Tbl.get (fun _ => []) s.net.cq k).drop taken
    if 8 ≤ l.length then
      let s := s.bump (NET_CQDROP.adr mac)
      if k ∈ s.net.cqOvf then s
      else ({ s with net := { s.net with cqOvf := s.net.cqOvf ++ [k] } }).raiseN2 0xA8 mac mac q
    else eff { s with net := { s.net with
      cq := Tbl.put (fun _ => []) s.net.cq k (l ++ [(fr, len)]), cqOvf := s.net.cqOvf.filter (fun j => j != k) } }

/-- An announcement is kept; a new one from the same source under the same hash takes the place of the old (R304, R390). -/
def State.sapHeard (s : State) (x : SapEnt) : State :=
  let rest := s.net.sap.filter (fun y => !(y.mac == x.mac && y.ws.getD 0 0 == x.ws.getD 0 0 && y.ws.getD 5 0 == x.ws.getD 5 0))
  { s with net := { s.net with sap := (x :: rest).take 1024 } }

/-- Every sending flow shows whether it is held. -/
def State.txShowAll (s : State) : State := (keysOf s.net.tx).foldl (fun s f => s.txShow f) s

/-- The sender of an ARP frame enters the cache of 256 entries of its MAC, the newest first; a request for the MAC's own address is
answered (R304). -/
def State.arpHeard (s : State) (mac : Nat) (request : Bool) (ip : Word) (hw : BitVec 48) (target : Word) : State :=
  let other := s.net.arp.filter (fun x => x.mac != mac)
  let mine := (⟨mac, ip, hw, s.sidx⟩ :: s.net.arp.filter (fun x => x.mac == mac && x.ip != ip)).take 256
  let asks := s.net.asks.filter (fun a => !(a.1 == mac && a.2.1 == ip))
  let s := ({ s with net := { s.net with arp := mine ++ other, asks := asks } }).txShowAll
  if request && target == s.reg (NET_IP.adr mac) then s.queueCtl mac (.arpAnswer ip hw) else s

/-- A UDP packet is RTCP: to the port above that of an enabled flow with its destination address (R286; the port is PRESUMED from RFC
3550, log entry 55). -/
def State.isRtcp (s : State) (mac : Nat) (p : UdpPkt) : Bool :=
  (keysOf s.net.rx).any (fun f =>
    let e := s.flowReg false f
    flEn e && flMac e == mac && flW e 1 == p.daddr && bitsOf (flW e 3) 31 16 + 1 == p.dport.toNat)

/-- A UDP packet that no flow uses (R286, R303). -/
def State.controlUdp (s : State) (mac : Nat) (p : UdpPkt) (len tag taken edges : Nat) : State :=
  let port := p.dport.toNat
  let mine := p.daddr == s.reg (NET_IP.adr mac)
  let fr := NetFrame.udp p
  if port = 319 then (s.rxCapture mac tag edges).controlFrame mac 1 fr len taken id
  else if port = 320 then s.controlFrame mac 2 fr len taken id
  else if port = 9875 then s.controlFrame mac 4 fr len taken id
  else if s.isRtcp mac p then s.bump (NET_RXDROP.adr mac)
  else if mine ∧ port = s.fld NET_XCQ.PORT then s.controlFrame mac 6 fr len taken id
  else if mine then s.controlFrame mac 7 fr len taken id
  else s.bump (NET_RXDROP.adr mac)

/-- A UDP packet with a right checksum goes to every flow that it belongs to, else to its class. -/
def State.udpFrame (s : State) (mac : Nat) (p : UdpPkt) (len tag taken edges : Nat) : State :=
  let fl := (keysOf s.net.rx).filter (fun f => s.flowMatches mac f p)
  if !p.sumOk then s.bump (NET_RXDROP.adr mac)
  else if fl.isEmpty then s.controlUdp mac p len tag taken edges
  else fl.foldl (fun s f => s.flowPacket mac p f) s

/-- The link of an enabled MAC is up. -/
def State.macUp (s : State) (mac : Nat) : Bool := s.flag (NET_MXCFG.EN mac) && bitOf (s.reg NET_STAT.adr) mac

/-- A frame with a right FCS at MAC `m`: what the device does not support is dropped and counted (R286, R303). -/
def State.goodFrame (s : State) (m : Nat) (frame : NetFrame) (len tag taken edges : Nat) : State :=
  match frame with
  | .badFcs => s
  | .macControl | .ipv6 | .fragment | .options | .multicast => s.bump (NET_RXDROP.adr m)
  | .udp p => s.udpFrame m p len tag taken edges
  | .sap src daddr dport format mcoff hash =>
    let e : SapEnt := ⟨[src, daddr, BitVec.ofNat 32 (dport.toNat * 2 ^ 16), setBits format 13 0 m, mcoff, BitVec.ofNat 32 hash.toNat], m, s.sidx⟩
    s.controlFrame m 4 frame len taken (fun s => s.sapHeard e)
  | .arp request ip hw target => s.controlFrame m 0 frame len taken (fun s => s.arpHeard m request ip hw target)
  | .igmpQuery group => s.controlFrame m 3 frame len taken (fun s => s.igmpAnswer m group)
  | .igmp => s.controlFrame m 3 frame len taken id
  | .echo ip id_ seq data => s.controlFrame m 5 frame len taken (fun s => s.queueCtl m (.echoReply ip id_ seq data))
  | .icmp => s.controlFrame m 5 frame len taken id
  | .other => s.controlFrame m 7 frame len taken id

/-- NET_PACKET_RX: a frame of `len` bytes at MAC `mac`, `edges` TCLK edges after the sample's tick; `tag` is what a PTP
capture carries. -/
def execNetPacketRx (mac : Fin 4) (frame : NetFrame) (len : BitVec 16) (tag : BitVec 16) (taken : Fin 9) (edges : BitVec 24)
    (s : State) : Host.Outcome State Fault Refusal :=
  let m := mac.val
  .next (if !s.macUp m then s
  else if frame = .badFcs then s.bump (NET_RXFCS.adr m)
  else (s.bump (NET_RXFRM.adr m)).goodFrame m frame len.toNat tag.toNat taken.val edges.toNat)

/-- NET_FLOW_LOST: no packet has been used for 2 * SPP stream samples and NB internal samples (R291). -/
def execNetFlowLost (f : Fin 4096) (s : State) : Host.Outcome State Fault Refusal :=
  let f := f.val
  let e := s.flowReg false f
  let fs := rateHz (flRate e)
  .next (if s.fld (NET_RXS.STATE f) = 2 ∧ (s.rxOf f).used * fs + 2 * flSpp e * s.fs + s.nb * fs ≤ s.sidx * fs then
    let s := (s.setFld (NET_RXS.STATE f) 3).setRx f { s.rxOf f with lostAt := s.sidx }
    s.raiseN2 0xA3 f f 0
  else s)

/-! Links and control frames (R302-R304) -/

/-- The link of a MAC goes down. -/
def State.netDown (s : State) (mac : Nat) : State :=
  if bitOf (s.reg NET_STAT.adr) mac then ((s.setBit16 NET_STAT.UP mac false).txShowAll).raiseN2 0xA1 mac mac 0 else s

/-- NET_LINK_DOWN. -/
def execNetLinkDown (mac : Fin 4) (s : State) : Host.Outcome State Fault Refusal := .next (s.netDown mac.val)

/-- NET_LINK_UP. -/
def execNetLinkUp (mac : Fin 4) (s : State) : Host.Outcome State Fault Refusal :=
  .next (if !bitOf (s.reg NET_STAT.adr) mac.val && s.flag (NET_MXCFG.EN mac.val) then
    ((s.setBit16 NET_STAT.UP mac.val true).txShowAll).raiseN2 0xA0 mac.val mac.val (s.fld (NET_MXCFG.SPEED mac.val))
  else s)

/-- NET_ARP_FAIL: a sending flow has been unresolved for 3 s; it stays HELD (R304). -/
def execNetArpFail (f : Fin 4096) (s : State) : Host.Outcome State Fault Refusal :=
  let f := f.val
  .next (if (s.txOf f).on ∧ ((s.txOf f).unres.any (fun n => decide (n + 3 * s.fs ≤ s.sidx))) ∧ !(s.net.noArp.contains f) then
    ({ s with net := { s.net with noArp := s.net.noArp ++ [f] } }).raise 0xA9 f (BitVec.ofNat 32 f) 0
  else s)

/-- A control frame leaves a MAC, with the tag of NET_Mn_XCFG (R303, R305). -/
def State.sendCtl (s : State) (mac : Nat) (x : CtlFrame) : State :=
  let vid := if s.flag (NET_MXCFG.CVLAN mac) then some (s.fld (NET_MXCFG.CVID mac)) else none
  ({ s with net := { s.net with ctl := s.net.ctl ++ [(mac, vid, x)] } }).bump (NET_TXFRM.adr mac)

/-- The control transmit queue of a MAC empties: onto the wire, or away where the link is down. -/
def State.drainCtl (s : State) (mac : Nat) : State :=
  let l := Tbl.get (fun _ => []) s.net.ctx mac
  let s := { s with net := { s.net with ctx := Tbl.put (fun _ => []) s.net.ctx mac [] } }
  if s.macUp mac then l.foldl (fun s x => s.sendCtl mac x) s else s

/-- CONTROL_FRAME_TX: the control engine sends a frame: a PTP event message of the PTP port, whose time is captured, or the next of its queue, or
with an empty queue another frame of the firmware (R303, R334). -/
def execControlFrameTx (mac : Fin 4) (ptp : Bool) (tag : BitVec 16) (edges : BitVec 24) (s : State) :
    Host.Outcome State Fault Refusal :=
  let m := mac.val
  .next (if !s.macUp m then s
  else if ptp then 
    if m = s.ptpMac then (s.sendCtl m (.firmware (some s.ptpClock))).txCapture m tag.toNat edges.toNat else s
  else match Tbl.get (fun _ => []) s.net.ctx m with
    | x :: l => ({ s with net := { s.net with ctx := Tbl.put (fun _ => []) s.net.ctx m l } }).sendCtl m x
    | [] => s.sendCtl m (.firmware none))

/-- The description of a transmit flow that its announcement carries (R304). -/
def State.sdpOf (s : State) (e : List Word) : Sdp :=
  { origin := s.reg (NET_IP.adr (flMac e)), daddr := flW e 1, dport := bitsOf (flW e 2) 31 16, l16 := flL16 e, rate := flRate e,
    chans := flCh e, spp := flSpp e, refclk := s.tim.gm.map (fun g => g.1), domain := s.fld TIM_XPTP.DOMAIN,
    mediaclk := flMcoff true e }

/-- SAP_ANNOUNCE: every 30 s an announcement is queued for each enabled transmit flow with SAP = 1 (R304). -/
def execSapAnnounce (s : State) : Host.Outcome State Fault Refusal :=
  .next (if s.net.sapAt.any (fun n => decide (s.sidx < n + 30 * s.fs)) then s
  else
    let s := { s with net := { s.net with sapAt := some s.sidx } }
    (keysOf s.net.tx).foldl (fun s f =>
      let e := (s.txOf f).heard
      if (s.txOf f).on && bitOf (flW e 0) 22 then s.queueCtl (flMac e) (.sap f (s.sdpOf e)) else s) s)

/-- An address is asked for on a MAC, at most once a second (R304). -/
def State.arpAsk (s : State) (mac : Nat) (ip : Word) : State :=
  if s.net.asks.any (fun a => a.1 == mac && a.2.1 == ip && decide (s.sidx < a.2.2 + s.fs)) then s
  else
    let asks := s.net.asks.filter (fun a => !(a.1 == mac && a.2.1 == ip)) ++ [(mac, ip, s.sidx)]
    ({ s with net := { s.net with asks := asks } }).queueCtl mac (.arpRequest ip)

/-- The addresses that a MAC resolves: its gateway, and the next hops of its sending flows to unicast addresses. -/
def State.arpWanted (s : State) (mac : Nat) : List Word :=
  let hops := (keysOf s.net.tx).filterMap (fun f =>
    let e := (s.txOf f).heard
    if (s.txOf f).on && flMac e == mac && !isGroup (flW e 1) then some (s.nextHop mac (flW e 1)) else none)
  ((s.reg (NET_GW.adr mac) :: hops).filter (fun a => a != 0)).eraseDups

/-- The ARP service of a MAC at a block tick: addresses not in its cache are asked for, and so are those last refreshed 60 s ago
(R304). -/
def State.arpTick (s : State) (mac : Nat) : State :=
  if !s.macUp mac then s
  else (s.arpWanted mac).foldl (fun s a =>
    match s.arpOf mac a with
    | some x => if x.at_ + 60 * s.fs ≤ s.sidx then s.arpAsk mac a else s
    | none => s.arpAsk mac a) s

/-- The record of an announcement; its age in whole seconds at the internal rate (R390). -/
def State.sapRecord (s : State) (x : SapEnt) : List Word :=
  (x.ws.set 2 (setBits (x.ws.getD 2 0) 15 0 (min 65535 ((s.sidx - x.at_) / s.fs)))) ++ [0, 0]

/-- SAP_LIST once accepted. -/
def State.sapListCmd (s : State) (c : Ctx) : State :=
  let a := (c.arg 0).toNat + 2 ^ 32 * (c.arg 1).toNat
  let l := s.net.sap.take (c.arg 2).toNat
  let s' := { s with host := { s.host with hostMem := writeHostWords s.host.hostMem a (l.flatMap (fun x => s.sapRecord x)) } }
  s'.single c stOk s.net.sap.length l.length

/-- SAP_LIST. -/
def execSapList (src : Fin 128) (tag : Word) (args : List Word) (s : State) : Host.Outcome State Fault Refusal :=
  .next (s.runCmd src.val 0x0704 false tag args State.sapListCmd)

/-! Reading the flows (R293, R294, R297) -/

/-- The gain of a stream as a member of a boom at sample `k`, in 64ths; the fades of a change of EN are those of the member on either
side of it (R242). -/
def State.boomGain64 (s : State) (kind id k : Nat) : Nat :=
  match s.memberOf kind id with
  | some (_, m) => m.gain64 k
  | none => 64

/-- The landing reads sample `k` of flow `f`: its words by source address. A converting flow has a word for every sample for which its
group gives one (R293, R294). -/
def State.flowRead (s : State) (f k : Nat) : State × Tbl Int :=
  let x := s.rxOf f
  if x.heard.isEmpty then (s, [])
  else
    let boom := match s.memberOf 2 f with
      | some (b, _) => (s.boomOf b).en
      | none => false
    let conv := s.flConv x.heard
    let mem := if conv && s.converts 2 f k && !(x.mem.got.contains k) then { x.mem with got := x.mem.got ++ [k] } else x.mem
    let (s, mem) : State × BoomMem := if boom then (s, x.mem) else s.memRead (.flow f) mem k
    let s := if boom then s else s.setRx f { s.rxOf f with mem := mem }
    let g := (if boom then 64 else mem.gain64 k) * s.boomGain64 2 f k * fade64 64 x.fade k * s.half32 f k
    (s, (List.range (flCh x.heard)).foldl (fun t c =>
      let w := if conv then s.slotRx 2 f c k else wordOf (s.inboxAt k) (flowKey f c)
      Tbl.put (fun _ => 0) t (0x2000 + flBase false x.heard + c) (rneDiv (w * ((g : Nat) : Int)) (64 * 64 * 64 * 32))) [])

/-- Words of two tables added address by address: of the halves of a claim pair one is silent. -/
def addWords (a b : Tbl Int) : Tbl Int := b.foldl (fun t p => Tbl.put (fun _ => 0) t p.1 (wordOf t p.1 + p.2)) a

/-- The network channels of sample `k`. -/
def State.netRead (s : State) (k : Nat) : State × Tbl Int :=
  (keysOf s.net.rx).foldl (fun (t : State × Tbl Int) f =>
    let (s, w) := t.1.flowRead f k
    (s, addWords t.2 w)) (s, [])

/-! Sending (R296, R298, R299) -/

/-- A flow is withheld in SHADOW: without the claim extension, or with NETWH = 1 (R299, R347). -/
def State.txWithheld (s : State) (e : List Word) : Bool := s.mode == 3 && (!bitOf (flW e 0) 23 || s.flag PAIR_XCFG.NETWH)

/-- The header extension of a packet under CLAIMX (R296): the one-byte form, two words, and one element of ID NET_XCLAIM.ID with
L = 3: the claim number and the node ID, most significant bytes first, and three bytes of padding. -/
def claimExt (id claim node : Nat) : List Byte :=
  [0xBE, 0xDE, 0, 2, BitVec.ofNat 8 (id * 16 + 3), BitVec.ofNat 8 (claim / 256), BitVec.ofNat 8 claim,
   BitVec.ofNat 8 (node / 256 % 64), BitVec.ofNat 8 node, 0, 0, 0]

/-- A packet is complete: it is sent, or held back with its number spent. -/
def State.txSend (s : State) (f : Nat) : State :=
  let x := s.txOf f
  let e := x.heard
  let out := !s.txHeld f && !s.txWithheld e
  let pkt : Pkt := ⟨flMac e, f, x.seq, x.first,
    if bitOf (flW e 0) 23 then claimExt (s.fld NET_XCLAIM.ID) x.claim s.nodeId else [], x.rows⟩
  let s := if out then { s with net := { s.net with wire := s.net.wire ++ [pkt] } } else s
  let s := if out then s.bump (NET_TXFRM.adr (flMac e)) else s
  let s := s.setFld (NET_TXS.SEQ f) x.seq
  let s := s.setTx f { x with seq := (x.seq + 1) % 65536, rows := [] }
  if x.stop then s.txStop f else s

/-- The row of flow `f` for sample `k`: the words of its sinks, muted with them (R216, R299); of a converting flow the converted words
of time `t` (R249). -/
def State.txRow (s : State) (f : Nat) (t : Int) : List Int :=
  let e := (s.txOf f).heard
  (List.range (flCh e)).map (fun c =>
    let a := 0x2000 + flBase true e + c
    let w := if s.flConv e then s.slotTx 2 f c (s.sentOf a) s.sidx t else wordOf s.out.words a
    (toBits (8 * flBytes e) (toBits 24 w 1).1 1).1)

/-- One stream sample of flow `f`, of media count `m` without the offset. Its time is that of the media count on the latched pair
(R249, R292; DEDUCED, log entry 45). -/
def State.txSample (s : State) (f : Nat) (m : Int) : State :=
  let x := s.txOf f
  let e := x.heard
  if !x.on || (x.rows.isEmpty && m % (flSpp e : Int) != 0) then s
  else
    let fs := rateHz (flRate e)
    let t := ((s.mapPair.1 : Nat) : Int) * convUnit + (m - s.mediaBase fs) * ((s.fs : Nat) : Int) * convUnit / ((fs : Nat) : Int)
    let row := s.txRow f t
    let x := if x.rows.isEmpty then { x with first := ofSigned 32 (m + flMcoff true e), claim := s.claimNow } else x
    let x := { x with rows := x.rows ++ [row] }
    let s := s.setTx f x
    if x.rows.length = flSpp e then s.txSend f else s

/-- Sample `k` has ended: control frames that wait leave, and then each flow takes its stream samples, in ascending flow order (R298,
R303). -/
def State.txTick (s : State) (k : Nat) : State :=
  let s := { s with net := { s.net with wire := [], ctl := [] } }
  let s := (keysOf s.net.ctx).foldl State.drainCtl s
  if s.mode = 0 then s
  else (keysOf s.net.tx).foldl (fun s f =>
    let e := (s.txOf f).heard
    if !(s.txOf f).on then s
    else if !s.flConv e then s.txSample f (s.mediaAt s.fs k)
    else
      let a := s.mediaAt (rateHz (flRate e)) k
      let b := s.mediaAt (rateHz (flRate e)) (k + 1)
      (List.range (b - a).toNat).foldl (fun s (i : Nat) => s.txSample f (a + (i : Int))) s) s

/-- Sinks that transmit channels convert: of ports, and of flows. -/
def State.txSinks (s : State) : List Nat :=
  (keysOf s.str.ch).filterMap (fun c =>
    let w := (s.chOf c).heard
    if chDir w = 0 then none
    else if chKind w = 1 then some (32 * chId w + chSlot w)
    else some (0x2000 + flBase true (s.txOf (chId w)).heard + chSlot w))

/-- The output words of the sample that has ended join those that the pool converts (R249). -/
def State.sentClose (s : State) : State :=
  let l := s.txSinks
  let t : Tbl Int := l.foldl (fun t a => Tbl.put (fun _ => 0) t a (wordOf s.out.words a)) []
  { s with out := { s.out with sent := if l.isEmpty then [] else (t :: s.out.sent).take 128 } }

/-! Ticks -/

/-- The tick that begins sample `sidx`: fade-outs end, and link offsets move (R300). -/
def State.netSampleTick (s : State) : State :=
  (keysOf s.net.rx).foldl (fun s f =>
    let x := s.rxOf f
    let s := match x.half with
      | some (true, t) => if t + 32 ≤ s.sidx then s.setRx f { x with half := none } else s
      | _ => s
    let x := s.rxOf f
    match x.moveAt with
    | some t =>
      if t + 64 ≤ s.sidx then
        let l := flLoff (s.flowReg false f)
        let s := s.moveWords (streamAddrs 2 f) (x.loff - 1) (l - 1)
        s.setRx f { x with
          mem := { (BoomMem.fresh 0 2 f) with got := x.mem.movedGot (x.loff - 1) (l - 1) s.sidx }, fade := none, moveAt := none, loff := l }
      else s
    | none =>
      if !fadedOut x.fade s.sidx || x.fade.isNone then s
      else if x.again then s.rxAgain f
      else if !flEn (s.flowReg false f) && !x.heard.isEmpty then s.rxFree f else s) s

/-- A block tick: a pair selects the half in RUN with the higher claim, and flows in RUN publish their records (R291,
R297). -/
def State.netBlockTick (s : State) : State :=
  let keys := keysOf s.net.rx
  let s := keys.foldl (fun s f =>
    match s.claimMate f with
    | some g =>
      if g < f then s
      else
        let (cur, alt) : Nat × Nat := if s.flag (NET_RXS.SEL f) then (g, f) else (f, g)
        let run (h : Nat) : Bool := s.fld (NET_RXS.STATE h) == 2
        if run alt && (!run cur || decide (s.fld (NET_RXS.CLAIM cur) < s.fld (NET_RXS.CLAIM alt))) then s.claimSwitch cur alt else s
    | none => s) s
  let s := keys.foldl (fun s f =>
    let x := s.rxOf f
    s.setRx f { x with blind := if s.fld (NET_RXS.STATE f) = 2 then 0 else x.blind + 1 }) s
  (List.range 4).foldl State.arpTick s

end Sys2Proof.Machine
end

