-- ==== Sys2Proof/Machine/Raft.lean ====
section
/-! DEFINITION. The raft: slot tables and their retiming, relay buses, frames, breaks, tokens, and formation (R257-R285). -/

namespace Sys2Proof.Machine

/-- A change of the raft port's state beside its registers. -/
def State.onRaft (s : State) (f : RaftSt → RaftSt) : State := { s with raft := f s.raft }

/-! Outputs and their retiming (R269-R273, R277) -/

/-- The output that an entry publishes: drop channel c at c, relay total b at 0x2000 + b. -/
def outKey (w : Word) : Option Nat :=
  if slotOp w = 2 ∨ slotOp w = 3 then some (slotCh w) else if slotOp w = 6 then some (0x2000 + slotCh w) else none

/-- The landing source address of an output. -/
def outAddr (key : Nat) : Nat := if key < 0x2000 then 0x4000 + key else 0x6000 + (key - 0x2000)

/-- Entries that publish an output. -/
def entriesFor (t : List (Nat × Nat × Word)) (key : Nat) : List (Nat × Nat × Word) :=
  t.filter (fun e => outKey e.2.2 == some key)

/-- The latency of an output by a table and the lost hops: A of a drop channel, L of a relay total. -/
def State.outLatency (s : State) (t : List (Nat × Nat × Word)) (lost : List Nat) (key : Nat) : Option Nat :=
  let ds := (entriesFor t key).filterMap (fun e => s.raftDelay lost e.1 (slotHead e.2.2))
  match ds with
  | [] => none
  | d :: l => some (l.foldl max d + (if key < 0x2000 then 0 else 1))

/-- Outputs of a table. -/
def tableKeys (t : List (Nat × Nat × Word)) : List Nat := (t.filterMap (fun e => outKey e.2.2)).eraseDups

/-- An output starts its retiming fade at `at_`, and fades in again from `inAt`. -/
def State.retime (s : State) (key at_ : Nat) (inAt : Option Nat) : State :=
  let o : ROut := match Tbl.find s.raft.outs key with
    | some o => ⟨min o.outAt at_, inAt⟩
    | none => ⟨at_, inAt⟩
  s.onRaft (fun x => { x with outs := Tbl.insert x.outs key o })

/-- The gain of an output for source sample `k`, in 64ths. -/
def State.outGain (s : State) (key k : Nat) : Nat :=
  match Tbl.find s.raft.outs key with
  | none => 64
  | some o =>
    if k < o.outAt then 64
    else match o.inAt with
      | none => 64 - min 64 (k + 1 - o.outAt)
      | some i => if k < i then 64 - min 64 (k + 1 - o.outAt) else min 64 (k + 1 - i)

/-- RAFT_RLAT and RAFT_DLAT show the latencies in force. -/
def State.showLatencies (s : State) : State :=
  let t := s.slotEntries
  let old := s.regs.filterMap (fun p => if 0x601000 ≤ p.1 ∧ p.1 < 0x60A000 then some p.1 else none)
  let s := old.foldl (fun s off => s.setReg off 0) s
  (tableKeys t).foldl (fun s key =>
    match s.outLatency t s.raft.detour key with
    | none => s
    | some l =>
      let es := entriesFor t key
      if key < 0x2000 then
        let head := (es.head?.map (fun e => slotHead e.2.2)).getD 0
        s.setReg (RAFT_DLAT.adr key) (BitVec.ofNat 32 (2 ^ 31 + head * 2 ^ 25 + l % 2 ^ 16))
      else
        s.setReg (RAFT_RLAT.adr (key - 0x2000)) (BitVec.ofNat 32 (2 ^ 31 + b2n (decide (2 ≤ es.length)) * 2 ^ 30 + l % 2 ^ 16))) s

/-! Applying slot tables (R272, R273, R275) -/

/-- Staged entries: ring, slot, word. -/
def State.stagedSlots (s : State) : List (Nat × Nat × Word) :=
  s.stg.filterMap (fun p => (slotOfOff p.1).map (fun t => (t.1, t.2, p.2)))

/-- The tables as they will be. -/
def State.newEntries (s : State) : List (Nat × Nat × Word) :=
  let st := s.stagedSlots
  s.slotEntries.filter (fun e => !(st.any (fun t => t.1 == e.1 && t.2.1 == e.2.1))) ++ st.filter (fun t => t.2.2 != 0)

/-- The hold-back store that a table needs (R272). -/
def State.storeNeed (s : State) (t : List (Nat × Nat × Word)) : Nat :=
  let entry := t.foldl (fun n e =>
    if slotOp e.2.2 = 5 ∨ slotOp e.2.2 = 6 then n + (s.raftDelay s.raft.detour e.1 (slotHead e.2.2)).getD 0 else n) 0
  let tails := (tableKeys t).filter (fun k => 0x2000 ≤ k)
  tails.foldl (fun n k =>
    match (entriesFor t k).filterMap (fun e => s.raftDelay s.raft.detour e.1 (slotHead e.2.2)) with
    | [a, b] => n + (max a b - min a b)
    | _ => n) entry

/-- The cause that refuses one staged entry of a table; 0 none (R273, R275). -/
def State.entryCause (s : State) (t : List (Nat × Nat × Word)) (e : Nat × Nat × Word) : Nat :=
  let op := slotOp e.2.2
  let bus := 4 ≤ op
  if op = 7 ∨ (bus ∧ 1024 ≤ slotCh e.2.2) then 1
  else if (op = 5 ∨ op = 6) ∧ (slotHead e.2.2 = s.raftPos ∨ (s.idxOf (slotHead e.2.2)).isNone) then 2
  else if bus ∧ t.any (fun x => x.1 == e.1 && x.2.1 != e.2.1 && decide (4 ≤ slotOp x.2.2) && slotCh x.2.2 == slotCh e.2.2) then 3
  else if op ≠ 0 ∧ (s.prot e.2.1 = 2 - e.1) then 7
  else 0

/-- The first staged entry that is refused: its slot and cause; the store is checked last. -/
def State.applyCheck (s : State) : Option (Nat × Nat) :=
  let t := s.newEntries
  let st := s.stagedSlots
  match st.find? (fun e => s.entryCause t e != 0) with
  | some e => some (e.2.1, s.entryCause t e)
  | none =>
    if 131072 < s.storeNeed t then (st.head?.map (fun e => (e.2.1, 4))) else none

/-- Outputs whose entries or latency change with the staged entries. -/
def State.changedKeys (s : State) : List Nat :=
  let old := s.slotEntries
  let new := s.newEntries
  ((tableKeys old ++ tableKeys new).eraseDups).filter (fun k =>
    entriesFor old k != entriesFor new k || s.outLatency old s.raft.detour k != s.outLatency new s.raft.detour k)

/-- The fades of an apply at X: each changed output fades out by X, and in again at X + L_new (R273). An output that is changed
after X - 64 fades out from then on. Where the check would refuse the entries as they stand, nothing fades. -/
def State.applyFades (s : State) (x : Nat) : State :=
  let new := s.newEntries
  if s.applyCheck.isSome then s
  else s.changedKeys.foldl (fun s k =>
    s.retime k (if (entriesFor s.slotEntries k).isEmpty then 0 else max (x - 64) s.sidx)
      ((s.outLatency new s.raft.detour k).map (fun l => x + l))) s

/-- The apply at X is refused: outputs that have faded out for it stay as they were, and fade in again from X. -/
def State.undoFades (s : State) (x : Nat) : State :=
  s.changedKeys.foldl (fun s k =>
    if (Tbl.find s.raft.outs k).isNone then s
    else if (entriesFor s.slotEntries k).isEmpty then s.onRaft (fun r => { r with outs := Tbl.erase r.outs k })
    else s.retime k x (some x)) s

/-- The staged entries take effect at X, or are all refused: the state, the entries applied, and the refusal. -/
def State.applySlots (s : State) (x : Nat) : State × Nat × Option (Nat × Nat) :=
  match s.applyCheck with
  | some (slot, cause) => ((s.undoFades x).raftRefuse 0 cause slot, 0, some (slot, cause))
  | none =>
    let st := s.stagedSlots
    ((st.foldl (fun s e => s.commitStg (slotOff e.1 e.2.1)) s).showLatencies, st.length, none)

/-! The words of a tick (R268-R271, R275, R276) -/

/-- The words in of ring `r` at tick `u`: received, or, while the port is wrapped, concealed and from X on turned words (R276);
a repaired link delivers again once the raft has unwrapped (R279). -/
def State.wordsIn (s : State) (r u : Nat) : Tbl Int :=
  let west := r == 0
  match s.raft.wraps.find? (fun w => w.west == west) with
    | none => if s.linkUp west then (s.ring r).win else []
    | some w =>
      let i := min 64 (u + 1 - w.from_)
      let keep : Tbl Int := if i = 64 then [] else (s.ring r).last.map (fun p => (p.1, satS 40 (rneDiv (p.2 * ((64 - i : Nat) : Int)) 64)))
      if w.x ≤ u then
        (s.ring (1 - r)).win.foldl (fun t p => if s.prot p.1 = r + 1 then Tbl.put (fun _ => 0) t p.1 p.2 else t) keep
      else keep

/-- Drop channels receive the words in of tick `sidx + 1`, as source words of the current sample (R268, R269). -/
def State.raftDrop (s : State) : State :=
  if !s.raftUp then s
  else
    let k := s.sidx
    s.slotEntries.foldl (fun s e =>
      let op := slotOp e.2.2
      if op = 2 ∨ op = 3 then
        let w := wordOf (s.wordsIn e.1 (k + 1)) e.2.1
        s.deliver k (0x4000 + slotCh e.2.2) (satS 40 (rneDiv (w * ((s.outGain (slotCh e.2.2) k : Nat) : Int)) 64))
      else s) s

/-- A relay addition, saturating at B40 (R46, R270). -/
def State.relayAdd (s : State) (b : Nat) (x y : Int) : State × Int :=
  let v := satS 40 (x + y)
  if v = x + y then (s, v)
  else
    let first := s.reg RAFT_RSAT_CNT.adr == 0
    let s := s.bump RAFT_RSAT_CNT.adr
    (if first then s.raise 0x8D b (BitVec.ofNat 32 b) 0 else s, v)

/-- The contribution of bus `b` held back by `a` samples; `hist` is newest first (R270). -/
def State.contribution (s : State) (b a : Nat) : Int := wordOf (s.raft.hist.getD a []) (0x6000 + b)

/-- The words out of ring `r` at tick `u` (R268), the contribution history being up to date. In SHADOW they are worked out in full,
and the words in go out unchanged (R347). In SAFE the words of add channels and
contributions have faded to zero at the output stage (R216, R275). -/
def State.wordsOut (s : State) (r u : Nat) : State × Tbl Int :=
  let ins := s.wordsIn r u
  let t := (s.slotEntries.filter (fun e => e.1 == r)).foldl (fun (t : State × Tbl Int) e =>
    let (s, out) := t
    let k := e.2.1
    let c := slotCh e.2.2
    let put (v : Int) : Tbl Int := Tbl.put (fun _ => 0) out k v
    match slotOp e.2.2 with
    | 1 => (s, put (wordOf s.out.words (0x4000 + c)))
    | 3 => (s, put 0)
    | 4 => (s, put (s.contribution c 0))
    | 5 =>
      match s.raftDelay s.raft.detour r (slotHead e.2.2) with
      | some a =>
        let (s, v) := s.relayAdd c (wordOf out k) (s.contribution c a)
        (s, put v)
      | none => (s, put 0)
    | 6 => (s, put 0)
    | _ => (s, out)) (s, ins)
  if s.mode = 3 then (t.1, ins) else t

/-- A word of a pair copy (R356): valid, its sequence count, and data, of which the spec gives no layout. -/
def copyWord (seq : Nat) (data : Word) : Int := toSigned 40 (2 ^ 39 + seq % 128 * 2 ^ 32 + data.toNat)

/-- The active chip of a pair drives the copy slots of ring `r` itself: valid words while it answers a copy, else none (R356). -/
def State.copySlots (s : State) (r : Nat) (out : Tbl Int) : State × Tbl Int :=
  if !(s.flag PAIR_CTL.EN && s.fld PAIR_STAT.ROLE == 2 && s.fld PAIR_XCOPY.RING == r) then (s, out)
  else (List.range (s.fld PAIR_XCOPY.SLOTS)).foldl (fun (t : State × Tbl Int) i =>
    let (s, out) := t
    let k := s.fld PAIR_XCOPY.BASE + i
    if s.pair.serve.isNone then (s, Tbl.put (fun _ => 0) out k 0)
    else
      let (s, d) := s.draw
      ({ s with pair := { s.pair with seq := s.pair.seq + 1 } }, Tbl.put (fun _ => 0) out k (copyWord s.pair.seq (d.setWidth 32)))) (s, out)

/-- The totals published at tick `u` for source sample `u` (R270, R271); `ins` are the words in of both rings. -/
def State.tails (s : State) (u : Nat) : State :=
  let t := s.slotEntries
  ((tableKeys t).filter (fun k => 0x2000 ≤ k)).foldl (fun s key =>
    let b := key - 0x2000
    let es := (entriesFor t key).filterMap (fun e => (s.raftDelay s.raft.detour e.1 (slotHead e.2.2)).map (fun a => (e.1, a)))
    match es with
    | [] => s
    | e :: l =>
      let a := l.foldl (fun m x => max m x.2) e.2
      let c := s.contribution b a
      let (s, v) := (e :: l).foldl (fun (t : State × Int) x =>
        t.1.relayAdd b t.2 (wordOf (s.raft.inHist.getD (a - x.2) []) (x.1 * 1024 + b))) (s, c)
      s.deliver u (0x6000 + b) (satS 40 (rneDiv (v * ((s.outGain key u : Nat) : Int)) 64))) s

/-- The histories take in the contributions of the sample that ended and the words in at tails. -/
def State.raftHist (s : State) (u : Nat) : State :=
  let c := s.out.words.filter (fun p => decide (0x6000 ≤ p.1 ∧ p.1 < 0x6400))
  let ins : Tbl Int := s.slotEntries.foldl (fun t e =>
    if slotOp e.2.2 = 6 then Tbl.put (fun _ => 0) t (e.1 * 1024 + slotCh e.2.2) (wordOf (s.wordsIn e.1 u) e.2.1) else t) []
  let depth := s.ringSum * 2 + 2
  s.onRaft (fun x => { x with hist := (c :: x.hist).take depth, inHist := (ins :: x.inHist).take depth })

/-! Frames sent (R261, R262, R274, R276, R280) -/

/-- The control word of the frame begun at tick `u` on ring `r`. -/
def State.controlWord (s : State) (r u : Nat) (tok : Option RTok) (aud : Nat × Bool × Bool × Nat) : Nat :=
  let mv := s.flag RAFT_STAT.MV
  let back := s.ring (1 - r)
  let t := tok.getD ⟨0, 0, 0, 0⟩
  let hi := 0xC5 * 2 ^ 248 + 1 * 2 ^ 245 + s.fld GLB_RATE.RATE * 2 ^ 242 + b2n mv * 2 ^ 241 + s.raft.mpos * 2 ^ 235 +
    (if mv then s.raft.qual else 0) * 2 ^ 227 + s.raftNo * 2 ^ 219 + s.raftPos * 2 ^ 213 + r * 2 ^ 212 +
    b2n (s.raftState == raftWrapped || !s.raft.wraps.isEmpty) * 2 ^ 211 + u % 2 ^ 64 * 2 ^ 147
  let mid := back.echo * 2 ^ 135 + back.lag * 2 ^ 117 + t.typ * 2 ^ 113 + t.orig * 2 ^ 107 + t.seq * 2 ^ 103 + t.pay % 2 ^ 64 * 2 ^ 39
  let lo := aud.1 * 2 ^ 24 + b2n aud.2.1 * 2 ^ 23 + b2n aud.2.2.1 * 2 ^ 22 + aud.2.2.2 * 2 ^ 16
  hi + mid + lo + cwCrc (hi + mid + lo)

/-- The audit field of the frame begun on ring `r` (R274): the master forwards the first lap and starts the next slot after
the second; other chips forward what they received. -/
def State.auditOut (s : State) (r : Nat) : State × (Nat × Bool × Bool × Nat) :=
  let x := s.ring r
  if s.raftState ≠ raftRun then (s, (0, false, false, 0))
  else match s.isMaster, x.aud with
    | true, some (k, false, v, o) => (s.setRing r { x with aud := none, audLast := k }, (k, true, v, o))
    | true, _ =>
      let k := (x.audLast + 1) % s.raftSlots
      (s.setRing r { x with aud := none, audLast := k }, (k, false, false, 0))
    | false, some a => (s.setRing r { x with aud := none }, a)
    | false, none => (s, (0, false, false, 0))

/-- The token of the frame begun on ring `r`: one to forward before an own one. -/
def State.tokenOut (s : State) (r : Nat) : State × Option RTok :=
  let x := s.ring r
  match x.fwd, x.tq with
  | t :: l, _ => (s.setRing r { x with fwd := l }, some t)
  | [], t :: l => (s.setRing r { x with tq := l }, some t)
  | [], [] => (s, none)

/-- One frame is begun on ring `r` at tick `u` with slot words `out`. -/
def State.sendFrame (s : State) (r u : Nat) (out : Tbl Int) : State :=
  if !(s.linkUp (r == 1) && s.raft.oriented) then s.setRing r { s.ring r with tx := none }
  else
    let (s, tok) := s.tokenOut r
    let (s, aud) := s.auditOut r
    let cw := s.controlWord r u tok aud
    let words := out.filter (fun p => p.2 != 0)
    s.setRing r { s.ring r with tx := some ⟨cw, words, slotCrc s.raftSlots words⟩ }

/-- Words turned onto the other ring at a wrapped end (R276): those of indices protected for the lost direction. -/
def State.turnWords (s : State) (out0 out1 : Tbl Int) : Tbl Int × Tbl Int :=
  let turn (a b : Tbl Int) (p : Nat) : Tbl Int :=
    let b := b.filter (fun q => s.prot q.1 != p)
    a.foldl (fun t q => if s.prot q.1 = p then Tbl.put (fun _ => 0) t q.1 q.2 else t) b
  let east := s.raft.wraps.any (fun w => !w.west)
  let west := s.raft.wraps.any (fun w => w.west)
  (if west then turn out1 out0 2 else out0, if east then turn out0 out1 1 else out1)

/-- The raft at tick `u`, after the sample before it has closed: totals, frames, histories. The lag of a neighbour's last frame
grows by one sample. -/
def State.raftForward (s : State) (u : Nat) : State :=
  if s.mode = 0 ∨ s.raftState = raftOff ∨ s.raftState = raftAlone then s
  else
    let (s, o0, o1) : State × Tbl Int × Tbl Int :=
      if s.raftUp then
        let s := (s.raftHist u).tails u
        let (s, o0) := s.wordsOut 0 u
        let (s, o1) := s.wordsOut 1 u
        let (o0, o1) := s.turnWords o0 o1
        let (s, o0) := s.copySlots 0 o0
        let (s, o1) := s.copySlots 1 o1
        (s, o0, o1)
      else (s, [], [])
    let s := (s.sendFrame 0 u o0).sendFrame 1 u o1
    let done (s : State) (r : Nat) : State :=
      let x := s.ring r
      s.setRing r { x with last := if s.linkUp (r == 0) then x.win else x.last, win := [], lag := min (2 ^ 18 - 1) (x.lag + 2 ^ 16) }
    done (done s 0) 1

/-- The delays of the hops as their reports now give them (R264). -/
def State.newHops (s : State) : State :=
  let s := (List.range s.ringN).foldl (fun s r =>
    match Tbl.find s.raft.reports (s.fld (RAFT_HOP.POS r)) with
    | some (d, t) => (s.setFld (RAFT_HOP.DHOP r) d).setFld (RAFT_HOP.T r) t
    | none => s) s
  s.setFld RAFT_STAT.SUM (s.hopsDelay (List.range s.ringN))

/-- A port that is down trains again (R259; DEDUCED: at the next tick, log entry 50). -/
def State.retrain (s : State) (west : Bool) : State :=
  if s.raftState ≠ raftOff ∧ s.fld (linkState west) = 0 then s.setFld (linkState west) 1 else s

/-- Fades that must begin, and those that have ended, at the tick that began sample `sidx`. -/
def State.raftPrepare (s : State) : State :=
  let s := (s.retrain false).retrain true
  let s := s.raft.applies.foldl (fun s a => if a.1 ≤ s.sidx + 64 then s.applyFades a.1 else s) s
  let s := s.onRaft (fun x => { x with applies := x.applies.map (fun a => (a.1, a.2.1, a.2.2 || decide (a.1 ≤ s.sidx + 64))) })
  let t := s.slotEntries
  let s := match s.raft.unwrap with
    | some (x, _, hops) =>
      if x ≤ s.sidx + 64 then
        let n := s.newHops
        let left := s.raft.lost.filter (fun h => !hops.contains h)
        ((tableKeys t).filter (fun k => s.outLatency t s.raft.detour k != n.outLatency t left k)).foldl (fun (s : State) k =>
          s.retime k (x - 64) ((n.outLatency t left k).map (fun l => x + l))) s
      else s
    | none => s
  let s := match s.raft.resetAt with
    | some (x, _) => if x ≤ s.sidx + 64 then (tableKeys t).foldl (fun (s : State) k => s.retime k (x - 64) none) s else s
    | none => s
  s.onRaft (fun x => { x with outs := x.outs.filter (fun o => match o.2.inAt with
    | some i => !decide (i + 64 ≤ s.sidx)
    | none => true) })

/-! Links and breaks (R259, R263-R267, R276-R279) -/

/-- The hop behind a role port. -/
def State.portHop (s : State) (west : Bool) : Nat :=
  if s.ringN = 0 then 0 else if west then (s.ringIdx + s.ringN - 1) % s.ringN else s.ringIdx

/-- The raft shows no master any more, and its quality is 0 (R262, R278). -/
def State.noMaster (s : State) : State := (s.setFld RAFT_STAT.MV 0).onRaft (fun x => { x with qual := 0 })

/-- The master itself has left (R278). -/
def State.masterGone (s : State) : State :=
  if s.flag RAFT_STAT.MV then s.noMaster.raise 0x8A s.raft.mpos (BitVec.ofNat 32 s.raft.mpos) 0 else s.noMaster

/-- The master lies in this chip's segment. -/
def State.masterNear (s : State) : Bool :=
  s.isMaster || (match s.idxOf s.raft.mpos with
    | some m => s.inSegment s.raft.lost m
    | none => true)

/-- The chip between two hops has left, and it is the master. -/
def State.masterLeft (s : State) (hops : List Nat) : Bool :=
  match s.idxOf s.raft.mpos with
  | some m => hops.contains m && hops.contains ((m + s.ringN - 1) % s.ringN)
  | none => false

/-- More hops are lost: WRAPPED, or SPLIT on a second break (R266, R278). A segment without the master shows none, and a follower
whose reference crossed the break moves to its other candidate (R277). -/
def State.loseHops (s : State) (hops : List Nat) : State :=
  let new := hops.filter (fun h => !s.raft.lost.contains h)
  if new.isEmpty then s
  else
    let second := s.raftState == raftWrapped || s.raftState == raftSplit
    let s := s.onRaft (fun x => { x with lost := x.lost ++ new })
    let mask := s.raft.lost.foldl (fun m h => m + 2 ^ h) 0
    let s := if second then (s.setFld RAFT_STAT.STATE raftSplit).raise 0x88 0 (lo32 mask) (hi32 mask)
      else s.setFld RAFT_STAT.STATE raftWrapped
    let s := if s.masterLeft hops then s.masterGone else if s.masterNear then s else s.noMaster
    s.refSelect

/-- Outputs whose path crosses a lost hop fade out from tick `u`, until X + L_new (R277). -/
def State.detourFades (s : State) (u x : Nat) : State :=
  let t := s.slotEntries
  ((tableKeys t).filter (fun k => s.outLatency t s.raft.detour k != s.outLatency t s.raft.lost k)).foldl (fun s k =>
    s.retime k u ((s.outLatency t s.raft.lost k).map (fun l => x + l))) s

/-- A link leaves UP with a cause; a refused link shows REFUSED (R263, R265, R266). -/
def State.dropLink (s : State) (west : Bool) (cause : Nat) (refused : Bool) : State :=
  let was := s.linkUp west
  let s := (s.setFld (linkState west) (if refused then 3 else 0)).setFld (linkCause west) cause
  let s := s.setReg (linkAdr west) (setBits (s.reg (linkAdr west)) 23 21 0)
  let s := if was then s.raiseN2 0x81 (b2n west) (b2n west) cause else s
  let s := if refused ∧ 7 ≤ cause ∧ cause ≤ 9 then s.raiseN2 0x89 (b2n west) (b2n west) cause else s
  let r := if west then 0 else 1
  let s := s.setRing r { s.ring r with win := [], badCw := 0, badFcs := 0, badIdx := 0, badT := 0, ahead := none }
  let s := s.onRaft (fun x => { x with upSince := none })
  if !was then s
  else if !s.linkUp west && !s.linkUp (!west) then
    if s.raftState = raftOff then s
    else
      let s := s.setFld RAFT_STAT.STATE raftAlone
      let nbr := if west then s.raft.nbrW else s.raft.nbrE
      let s := if s.isMaster then s else if cause = 10 ∧ nbr = s.raft.mpos then s.masterGone else s.noMaster
      s.onRaft (fun x => { x with lost := [], detour := [], wraps := [], brk := [], wrapAt := [] })
  else if s.raftUp then
    let hop := s.portHop west
    let hops := if cause = 10 ∧ s.ringN ≠ 0 then
        [hop, if west then (hop + s.ringN - 1) % s.ringN else (hop + 1) % s.ringN] else [hop]
    let s := s.onRaft (fun x => { x with brk := x.brk ++ [(west, s.sidx, hops)] })
    s.loseHops hops
  else s

/-- RAFT_LINK_DOWN. -/
def execRaftLinkDown (west : Bool) (cause : Fin 16) (s : State) : Host.Outcome State Fault Refusal :=
  let role := west != s.flag RAFT_STAT.ORIENT
  .next (if s.linkUp role then s.dropLink role cause.val false else s)

/-- RAFT_LINK_UP: the port has trained; `node` and `nside` are what the neighbour's training blocks carry, `inv` is INV0,
INV1 and SWAP in bits 2, 1, 0 (R258, R259, R285). -/
def execRaftLinkUp (west : Bool) (node : BitVec 14) (nside : Bool) (inv : BitVec 3) (miswired : Bool) (rate : Fin 6) (s : State) :
    Host.Outcome State Fault Refusal :=
  let role := west != s.flag RAFT_STAT.ORIENT
  let n := node.toNat
  .next (if s.raftState = raftOff ∨ s.linkUp role then s
  else if miswired then (s.setFld (linkState role) 1).setFld (linkCause role) 4
  else if rate.val ≠ s.fld GLB_RATE.RATE then (s.raiseN2 0x91 (b2n role) (b2n role) rate.val).dropLink role 7 true
  else if n / 64 ≠ s.raftNo ∨ n % 64 = s.raftPos then s.dropLink role 9 true
  else
    let s := s.setReg (linkAdr role) (BitVec.ofNat 32 (2 * 2 ^ 28 + inv.toNat * 2 ^ 21 + b2n nside * 2 ^ 20))
    let s := s.onRaft (fun x => if role then { x with nbrW := n % 64 } else { x with nbrE := n % 64 })
    let s := if s.raftState = raftAlone then s.setFld RAFT_STAT.STATE raftForming else s
    let s := if s.raft.wraps.any (fun w => w.west == role) then s.onRaft (fun x => { x with upSince := some s.sidx }) else s
    s.raiseN2 0x80 (b2n role) (b2n role) inv.toNat)

/-- RAFT_WRAP_START: the end of a break wraps at the coming tick s_d, the first after the detection (R276); its frames of that tick
carry the turned words, and the WRAP token where the queue lets it. -/
def execRaftWrapStart (s : State) : Host.Outcome State Fault Refusal :=
  .next (match s.raft.brk with
  | [] => s
  | (west, _, hops) :: l =>
    let u := s.sidx + 1
    let x := u + (s.ringSum - s.lostDelay s.raft.lost) + 64
    let s := s.onRaft (fun y => { y with
      brk := l, wraps := y.wraps.filter (fun w => w.west != west) ++ [⟨west, u, x, hops⟩], wrapAt := y.wrapAt ++ [x] })
    let s := (s.bump RAFT_WRAP_CNT.adr).detourFades u x
    s.sendTok (if west then 0 else 1) 5 (hops.headD 0 * 2 ^ 54 + hops.length * 2 ^ 52 + x % 2 ^ 48) none)

/-- RAFT_WRAP: at X the detours come into force (R277). -/
def execRaftWrap (s : State) : Host.Outcome State Fault Refusal :=
  .next (match s.raft.wrapAt with
  | [] => s
  | x :: l =>
    if s.sidx < x then s
    else
      let s := s.onRaft (fun y => { y with wrapAt := l.filter (fun z => z != x), detour := y.lost })
      (s.showLatencies).raise 0x86 ((s.raft.lost.getLast?).getD 0) (BitVec.ofNat 32 s.ringSum) (lo32 x))

/-- This chip, at the west end of a repaired hop, sends UNWRAP, which names the break as WRAP does (R279; DESIGN CHOICE, log
entry 51). -/
def State.sendUnwrap (s : State) (h : Option Nat) : State :=
  let x := s.sidx + s.ringSum + 64
  let hops := ((s.raft.wraps.find? (fun w => !w.west)).map (fun w => w.hops)).getD []
  let s := s.sendTok 1 6 (hops.headD 0 * 2 ^ 54 + hops.length * 2 ^ 52 + x % 2 ^ 48) none
  s.onRaft (fun y => { y with unwrap := some (x, h, hops), upSince := none })

/-- The repaired link is UP at this chip's wrapped east port. -/
def State.repaired (s : State) : Bool :=
  s.raft.upSince.isSome && s.linkUp false && s.raft.wraps.any (fun w => !w.west) && s.raft.unwrap.isNone

/-- RAFT_WTR_EXPIRY. -/
def execRaftWtrExpiry (s : State) : Host.Outcome State Fault Refusal :=
  let w := s.fld RAFT_XCFG.WTR
  .next (if s.repaired ∧ w ≠ 0 ∧ (s.raft.upSince.getD 0) * 10 + w * s.fs ≤ s.sidx * 10 then s.sendUnwrap none else s)

/-- RAFT_RESTORE once accepted. -/
def State.raftRestore (s : State) (c : Ctx) : State :=
  if !s.repaired || s.fld RAFT_XCFG.WTR != 0 then s.single c stWrongMode 0 0
  else
    let (s, ok) := s.tokRoom 1 1
    if !ok then s.single c stBusy 0 0
    else (s.accept c (s.sidx + s.ringSum + 64) 0 false 0).sendUnwrap (some c.handle)

/-- RAFT_RESTORE. -/
def execRaftRestore (src : Fin 128) (tag : Word) (args : List Word) (s : State) : Host.Outcome State Fault Refusal :=
  .next (s.runCmd src.val 0x0605 false tag args State.raftRestore)

/-- The state of the raft with these hops lost: one break is a hop, or the two hops of a chip that has left (R266). -/
def State.breakState (s : State) (lost : List Nat) : Nat :=
  match lost with
  | [] => raftRun
  | [_] => raftWrapped
  | [a, b] => if (a + 1) % s.ringN = b ∨ (b + 1) % s.ringN = a then raftWrapped else raftSplit
  | _ => raftSplit

/-- RAFT_UNWRAP: at X the raft unwraps the repaired break with the new D_hop (R279); other breaks stay. -/
def execRaftUnwrap (s : State) : Host.Outcome State Fault Refusal :=
  .next (match s.raft.unwrap with
  | none => s
  | some (x, h, hops) =>
    if s.sidx < x then s
    else
      let s := s.newHops
      let left (l : List Nat) : List Nat := l.filter (fun r => !hops.contains r)
      let s := (s.setFld RAFT_STAT.STATE (s.breakState (left s.raft.lost))).onRaft (fun y => { y with
        lost := left y.lost, detour := left y.detour, wraps := y.wraps.filter (fun w => !hops.contains (s.portHop w.west))
        brk := y.brk.filter (fun b => !hops.contains (s.portHop b.1)), wrapAt := if left y.lost = [] then [] else y.wrapAt
        unwrap := none })
      let s := s.showLatencies.refSelect.raise 0x87 0 (BitVec.ofNat 32 s.ringSum) (lo32 x)
      match h with
      | some h => s.finishAt h x stOk (x % 2 ^ 32) s.ringSum
      | none => s)

/-! Tokens (R280-R282) -/

/-- A commit that came round the raft (R281): this chip takes it as its own, by index, with no command behind it, in the modes
that take SCENE_COMMIT (R384). -/
def State.raftCommitIn (s : State) (p : Nat) : State :=
  if !([1, 2, 3].contains s.mode) then s
  else
  let idx := s.index48 (cwBits p 47 0)
  let (s, o) := s.nextOrder
  let w0 : Word := BitVec.ofNat 32 (2 ^ 30 + cwBits p 53 53 * 2 ^ 29 + cwBits p 52 51 * 2 ^ 27)
  let a0 : Word := BitVec.ofNat 32 (cwBits p 50 50 * 2 ^ 31 + cwBits p 59 54)
  s.sceneCommit ⟨directPort, directPort, 2 ^ 32 + o, 0x0403, 0, [a0, w0, lo32 idx, hi32 idx, 0]⟩

/-- A broadcast is acted on (R281). -/
def State.actBroadcast (s : State) (p : Nat) : State :=
  let x := s.index48 (cwBits p 47 0)
  match cwBits p 63 60 with
  | 1 => s.raftCommitIn p
  | 2 => s.onRaft (fun r => { r with snaps := r.snaps ++ [(x, none)] })
  | 3 => s.onRaft (fun r => { r with resetAt := some (x, none) })
  | 4 =>
    let pos := cwBits p 59 54
    let t := cwBits p 45 30
    let s := s.onRaft (fun r => { r with reports := Tbl.insert r.reports pos (cwBits p 53 46, t) })
    let s := if s.linkUp true ∧ pos = s.raft.nbrW then s.setFld RAFT_LINKW.T t else s
    match s.idxOf pos with
    | some i => s.setFld (RAFT_HOP.T i) t
    | none => s
  | 5 => s.onRaft (fun r => { r with applies := r.applies ++ [(x, none, false)] })
  | 6 =>
    if cwBits p 59 54 = s.raftPos then
      s.stage (slotOff (cwBits p 53 53) (cwBits p 52 38))
        (BitVec.ofNat 32 (cwBits p 37 35 * 2 ^ 29 + cwBits p 34 29 * 2 ^ 23 + cwBits p 28 16))
    else s
  | _ => s

/-- The token has been acted on, and its sequence number has not come round again since: it is less than 8 tokens of its origin and
less than the time of five sendings old (R280; DEDUCED, log entry 51). -/
def State.tokSeen (s : State) (t : RTok) : Bool :=
  s.raft.seen.any (fun k => k.1 == t.orig && k.2.1 == t.typ && k.2.2.1 == t.seq &&
    decide (s.glb.up < k.2.2.2 + 5 * (2 * s.ringSum + 64)))

/-- A token is noted; numbers of its origin that lie 8 or more behind are forgotten. -/
def State.tokMark (s : State) (t : RTok) : State :=
  s.onRaft (fun x => { x with
    seen := ((t.orig, t.typ, t.seq, s.glb.up) ::
      x.seen.filter (fun k => k.1 != t.orig || decide ((t.seq + 16 - k.2.2.1) % 16 < 8))).take 512 })

/-- A returned token is no longer watched. -/
def State.tokHome (s : State) (t : RTok) : State :=
  s.onRaft (fun x => { x with sent := x.sent.filter (fun q => !(q.tok.typ == t.typ && q.tok.seq == t.seq)) })

/-- The ring on which a token that arrived on ring `r` goes on: at a wrapped end it turns back (R276). -/
def State.fwdRing (s : State) (r : Nat) : Nat := if s.linkUp (r == 1) then r else 1 - r

/-- A token goes on. -/
def State.forwardTok (s : State) (r : Nat) (t : RTok) : State :=
  let q := s.fwdRing r
  s.setRing q { s.ring q with fwd := (s.ring q).fwd ++ [t] }

/-- The master releases barrier `id` (R282). -/
def State.releaseBarrier (s : State) (id : Nat) (abort : Bool) : State :=
  let idx := s.sidx + s.ringSum
  let s := s.sendTok 0 3 (id * 2 ^ 56 + b2n abort * 2 ^ 55 + idx % 2 ^ 48) none
  s.onRaft (fun x => { x with releases := x.releases ++ [(id, idx, abort)], collects := x.collects.filter (fun c => c.1 != id) })

/-- An arriving token (R280): acted on once, then forwarded, held or removed. -/
def State.tokenIn (s : State) (r : Nat) (t : RTok) : State :=
  let mine := t.orig == s.raftPos
  let fresh := !s.tokSeen t
  let mark (s : State) : State := s.tokMark t
  match t.typ with
  | 1 =>
    if mine then (if r = 0 then s.tokHome t else s.forwardTok r t)
    else if fresh then ((mark s).actBroadcast t.pay).forwardTok r t else s.forwardTok r t
  | 2 =>
    let id := cwBits t.pay 63 56
    if mine then (if r = 0 then (if s.raft.collects.any (fun c => c.1 == id) then (s.tokHome t).releaseBarrier id false else s.tokHome t)
      else s.forwardTok r t)
    else if r ≠ 0 ∨ s.raft.arrived.any (fun a => a.1 == id) then (mark s).forwardTok r t
    else if s.raft.held.contains t then s
    else s.onRaft (fun x => { x with held := x.held ++ [t] })
  | 3 =>
    let rel := (cwBits t.pay 63 56, s.index48 (cwBits t.pay 47 0), cwBits t.pay 55 55 == 1)
    if mine then (if r = 0 then s.tokHome t else s.forwardTok r t)
    else if fresh then ((mark s).onRaft (fun x => { x with releases := x.releases ++ [rel] })).forwardTok r t
    else s.forwardTok r t
  | 4 =>
    if cwBits t.pay 63 58 = s.raftPos then s
    else if mine then s.bump RAFT_MSGLOST_CNT.adr
    else s.forwardTok r t
  | 5 =>
    if mine then s
    else
      let s := if fresh ∧ s.raftUp then
          let hop := cwBits t.pay 59 54
          let hops := if cwBits t.pay 53 52 = 2 ∧ s.ringN ≠ 0 then
              [hop, if r = 0 then (hop + s.ringN - 1) % s.ringN else (hop + 1) % s.ringN] else [hop]
          let x := s.index48 (cwBits t.pay 47 0)
          let s := (mark s).loseHops hops
          (s.onRaft (fun y => { y with wrapAt := y.wrapAt ++ [x] })).detourFades (s.sidx + 1) x
        else s
      if s.linkUp (r == 1) then s.forwardTok r t else s
  | 6 =>
    if mine then s
    else
      let hop := cwBits t.pay 59 54
      let hops := if cwBits t.pay 53 52 = 2 ∧ s.ringN ≠ 0 then [hop, (hop + 1) % s.ringN] else [hop]
      let s := if fresh then (mark s).onRaft (fun y => { y with unwrap := some (s.index48 (cwBits t.pay 47 0), none, hops) }) else s
      if s.linkUp (r == 1) then s.forwardTok r t else s
  | _ => s

/-- RAFT_TOKEN_RESEND: tokens that have not returned within 2 x S + 64 samples are sent again, up to 3 times (R280). -/
def execRaftTokenResend (s : State) : Host.Outcome State Fault Refusal :=
  .next (s.raft.sent.foldl (fun s q =>
    if s.sidx ≤ q.sentAt + 2 * s.ringSum + 64 then s
    else
      let others (x : RaftSt) : List RSent := x.sent.filter (fun y => y != q)
      if q.tries < 3 then
        let s := s.setRing q.ring { s.ring q.ring with tq := (s.ring q.ring).tq ++ [q.tok] }
        (s.onRaft (fun x => { x with sent := others x ++ [{ q with sentAt := s.sidx, tries := q.tries + 1 }] })).bump RAFT_TOKRTX_CNT.adr
      else
        let s := (s.onRaft (fun x => { x with sent := others x })).raiseN2 0x8F q.tok.typ q.tok.typ q.tok.seq
        match q.handle with
        | none => s
        | some h =>
          let s := s.onRaft (fun x => { x with
            applies := x.applies.filter (fun a => a.2.1 != some h), snaps := x.snaps.filter (fun a => a.2 != some h),
            arrived := x.arrived.filter (fun a => a.2 != h),
            resetAt := if x.resetAt.any (fun a => a.2 == some h) then none else x.resetAt })
          s.finish h stAborted 0 0) s)

/-! Frames received (R260, R262-R265, R267, R274) -/

/-- The roles of the two ports change places (R260). -/
def State.swapRoles (s : State) : State :=
  let e := s.reg RAFT_LINKE.adr
  let w := s.reg RAFT_LINKW.adr
  let s := (s.setReg RAFT_LINKE.adr w).setReg RAFT_LINKW.adr e
  let s := s.onRaft (fun x => { x with nbrE := x.nbrW, nbrW := x.nbrE })
  (s.setFld RAFT_STAT.ORIENT 1).raise 0x82 0 0 0

/-- A follower's first frame orients it: a frame sent from an east port arrives at the west role (R260). -/
def State.orient (s : State) (roleWest : Bool) (sside : Nat) : State × Bool :=
  if s.raft.oriented then (s, roleWest)
  else
    let want := sside == 0
    let s := s.onRaft (fun x => { x with oriented := true })
    if want == roleWest then (s, roleWest) else (s.swapRoles, want)

/-- The audited slot at this chip (R274); in SHADOW the field stays untouched (R347). -/
def State.auditIn (s : State) (r : Nat) (a : Nat × Bool × Bool × Nat) : State :=
  let (k, p, v, o) := a
  let op := if s.mode = 3 then 0 else slotOp (s.reg (slotOff r k))
  let (s, v, o) : State × Bool × Nat :=
    if op = 1 ∨ op = 4 then
      let s := if v then (s.raiseN2 0x8C k (r * 2 ^ 16 + k) o).bump RAFT_CONFLICT_CNT.adr else s
      (s, true, s.raftPos)
    else if op = 3 ∨ op = 6 then (s, false, o) else (s, v, o)
  s.setRing r { s.ring r with aud := some (k, p, v, o) }

/-- Ranging of the east hop on a frame that echoes an own frame: `rt` is its round trip, `lag` the echoed lag, both in
2^-16 sample, so that their difference is 2 t (R264, R267). -/
def State.rangeHop (s : State) (rt lag : Nat) : State :=
  let t2 := rt - lag
  let hop := s.portHop false
  let d := s.dhop hop
  let g := s.fld RAFT_XCFG.GUARD
  let x := s.ring 1
  let passed := s.raftUp && decide (d * 2 ^ 17 < t2)
  let s := s.setRing 1 { x with badT := if passed then x.badT + 1 else 0 }
  let near := s.raftUp && decide ((d * 256 - g) * 2 ^ 9 ≤ t2 + 2 ^ 11)
  let s := if near && !s.raft.margin then (s.onRaft (fun y => { y with margin := true })).raiseN2 0x85 hop hop (t2 / 2 ^ 9) else s
  let sum := s.raft.tSum + t2
  if s.raft.tCnt + 1 < 256 then s.onRaft (fun y => { y with tSum := sum, tCnt := y.tCnt + 1 })
  else
    let avg := sum / 2 ^ 17
    let s := (s.onRaft (fun y => { y with tSum := 0, tCnt := 0 })).setFld RAFT_LINKE.T avg
    let need := max 1 ((sum + g * 2 ^ 17 + 2 ^ 25 - 1) / 2 ^ 25)
    let s := s.onRaft (fun y => { y with reports := Tbl.insert y.reports s.raftPos (need % 256, avg) })
    let s := match s.idxOf s.raftPos with
      | some i => s.setFld (RAFT_HOP.T i) avg
      | none => s
    let s := s.broadcast 4 (s.raftPos * 2 ^ 54 + need % 256 * 2 ^ 46 + avg % 65536 * 2 ^ 30) none
    if s.fld RAFT_XCFG.MAXDLY * s.fs * 2 ^ 25 < sum * 1000000 then s.dropLink false 5 true else s

/-- A master at this position can be heard: no break separates this chip from it (R278). -/
def State.reaches (s : State) (mpos : Nat) : Bool :=
  s.raft.lost.isEmpty || (match s.idxOf mpos with
    | some m => s.inSegment s.raft.lost m
    | none => true)

/-- What a good control word tells (R260, R262-R267, R274, R280). -/
def State.frameControl (s : State) (r v lag rt : Nat) : State :=
  let west := r == 0
  let own : Int := ((s.sidx : Nat) + 1 : Int) * 65536 - ((lag : Nat) : Int)
  let s := s.setRing r { s.ring r with
    badCw := 0, echo := cwBits v 158 147, lag := lag, ahead := some (((cwBits v 210 147 : Nat) : Int) * 65536 - own) }
  if cwBits v 244 242 ≠ s.fld GLB_RATE.RATE then
    (s.raiseN2 0x91 (b2n west) (b2n west) (cwBits v 244 242)).dropLink west 7 true
  else if cwBits v 226 219 ≠ s.raftNo ∨ cwBits v 218 213 = s.raftPos then s.dropLink west 9 true
  else
    let mv := cwBits v 241 241 == 1
    let mpos := cwBits v 240 235
    let s :=
      if s.isMaster then
        if mv ∧ mpos ≠ s.raftPos then (s.raftRefuse 2 6 0).raise 0x8B mpos (BitVec.ofNat 32 mpos) 0 else s
      else if mv && s.reaches mpos then
        (s.setFld RAFT_STAT.MV 1).onRaft (fun x => { x with mpos := mpos, qual := cwBits v 234 227 })
      else if mv then s
      else if s.flag RAFT_STAT.MV then s.masterGone else s
    let s := if r = 1 ∧ rt ≠ 0 then s.rangeHop rt (cwBits v 134 117) else s
    let ok := !s.raftUp || (cwBits v 210 147 + s.dhop (s.portHop west)) % 2 ^ 64 == (s.sidx + 1) % 2 ^ 64
    let x := s.ring r
    let s := s.setRing r { x with badIdx := if ok then 0 else x.badIdx + 1 }
    let s := if s.raftState ≠ raftRun then s
      else s.auditIn r (cwBits v 38 24, cwBits v 23 23 == 1, cwBits v 22 22 == 1, cwBits v 21 16)
    s.tokenIn r ⟨cwBits v 116 113, cwBits v 112 107, cwBits v 106 103, cwBits v 102 39⟩

/-- RAFT_FRAME_RX: a frame received whole: its control word, the CRC that follows its slots, its slot words that are not
zero, the lag to the start of the own next frame, and the round trip to the echoed frame (0: none measured). -/
def execRaftFrameRx (west : Bool) (cw : BitVec 256) (fcs : Word) (slots : List RaftWord) (lag : BitVec 18) (rt : Word) (s : State) :
    Host.Outcome State Fault Refusal :=
  let role := west != s.flag RAFT_STAT.ORIENT
  let v := cw.toNat
  let good := cwBits v 15 0 == cwCrc v && cwBits v 255 248 == 0xC5 && cwBits v 247 245 == 1
  .next (if s.raftState = raftOff ∨ !s.linkUp role then s
  else
    let (s, role) := if good then s.orient role (cwBits v 212 212) else (s, role)
    let r := if role then 0 else 1
    let x := s.ring r
    let win : Tbl Int := slots.foldl (fun t w =>
      if w.slot.val < s.raftSlots then Tbl.put (fun _ => 0) t w.slot.val (toSigned 40 w.word.toNat) else t) []
    let whole := fcs.toNat == slotCrc s.raftSlots win
    let s := s.setRing r { x with win := win, badFcs := if whole then 0 else x.badFcs + 1 }
    let s := if whole then s else s.bump RAFT_FCS_CNT.adr
    let s := if good then s.frameControl r v lag.toNat rt.toNat
      else (s.setRing r { s.ring r with badCw := (s.ring r).badCw + 1 }).bump RAFT_CWERR_CNT.adr
    let x := s.ring r
    if !s.linkUp role then s
    else if 8 ≤ x.badFcs then s.dropLink role 2 false
    else if 8 ≤ x.badCw then s.dropLink role 3 false
    else if 8 ≤ x.badIdx then s.dropLink role 8 false
    else if r = 1 ∧ 8 ≤ x.badT then s.dropLink role 6 false
    else s)

/-! Formation (R257, R265, R266, R278) -/

/-- The DPLL is LOCKED to a raft candidate. -/
def State.refOnRaft (s : State) : Bool :=
  s.fld REF_STAT.STATE == 2 && (s.fld REF_STAT.CUR == 5 || s.fld REF_STAT.CUR == 6)

/-- The raft is formed with this ring. -/
def State.formRing (s : State) (ring : List RaftHop) (own : Nat) : State :=
  let s := (List.range 64).foldl (fun s i =>
    s.setReg (RAFT_HOP.adr i) (match ring[i]? with
      | some h => BitVec.ofNat 32 (2 ^ 31 + h.pos.val * 2 ^ 25 + h.dhop.toNat * 2 ^ 16 + h.t.toNat)
      | none => 0)) s
  let s := (s.setFld RAFT_STAT.RINDEX own).setFld RAFT_STAT.N ring.length
  let s := s.setFld RAFT_STAT.SUM (s.hopsDelay (List.range ring.length))
  let s := (s.setFld RAFT_STAT.STATE raftRun).onRaft (fun x => { x with
    lost := [], detour := [], wraps := [], brk := [], wrapAt := [], outs := [], hist := [], inHist := [] })
  let s := s.showLatencies
  let t := s.slotEntries
  let s := (tableKeys t).foldl (fun s k => s.retime k 0 ((s.outLatency t [] k).map (fun l => s.sidx + l))) s
  s.raiseN2 0x84 0 ring.length s.ringSum

/-- The ring through which a follower at ring index `i` aligns (R265): the one that reaches the master at index 0 in fewer hops, if a
frame has come in on it, else the other. -/
def State.alignRing (s : State) (n i : Nat) : Nat :=
  let r := if i ≤ n - i then 0 else 1
  if (s.ring r).ahead.isSome then r else 1 - r

/-- By how much a follower's counter is behind the aligned value, in units of 2^-16 sample: a frame begun at the upstream chip's
tick m arrives at the own time m + t (R264, R265). -/
def State.alignBy (s : State) (ring : List RaftHop) (i : Nat) : Option Int :=
  let r := s.alignRing ring.length i
  let hop := if r = 0 then (i + ring.length - 1) % ring.length else i
  (s.ring r).ahead.map (fun a => a + (((ring[hop]?).elim 0 (fun h => h.t.toNat) : Nat) : Int) * 256)

/-- The DPLL pulls in the phase that is left, in ps, at the slew limit (R265, R316, R319). -/
def State.pullPhase (s : State) (phase : Int) : State :=
  let off := s.toTick phase
  (s.setFld REF_STAT.PULLIN (b2n (off != 0))).onRef (fun r => { r with build := off, switchAt := s.glb.up })

/-- A follower joins: in SETUP its counter is loaded, elsewhere it must lie within 0.5 sample, or the aligning link is
refused with cause 8 (R39, R265). -/
def State.joinRing (s : State) (ring : List RaftHop) (i : Nat) (phase : Int) : State :=
  match s.alignBy ring i with
  | none => s
  | some d =>
    if s.mode = 1 then ((s.loadCounter (((s.sidx : Nat) : Int) + rneDiv d 65536).toNat).formRing ring i).pullPhase phase
    else if d.natAbs ≤ 32768 then (s.formRing ring i).pullPhase phase
    else s.dropLink (s.alignRing ring.length i == 0) 8 true

/-- RAFT_FORMED: the chip is oriented, locked, ranged and aligned; `ring` is the ring as hop reports give it, from the master
at index 0 on, and `phase` the phase against the aligned one that is left, in ps. -/
def execRaftFormed (ring : List RaftHop) (phase : BitVec 64) (s : State) : Host.Outcome State Fault Refusal :=
  let own := (List.range ring.length).find? (fun i => ring[i]?.any (fun h => h.pos.val == s.raftPos))
  let head := if s.isMaster then s.raftPos else s.raft.mpos
  let ready := s.raftState == raftForming && (s.linkUp false || s.linkUp true) && decide (ring.length ≤ 64) &&
    ring[0]?.any (fun h => h.pos.val == head) && (s.isMaster || (s.raft.oriented && s.refOnRaft && s.flag RAFT_STAT.MV))
  .next (match own with
  | none => s
  | some i => if !ready then s else if s.isMaster then s.formRing ring i else s.joinRing ring i phase.toInt)

/-- The effect of a write of RAFT_CTL. -/
def State.raftCtl (s : State) (v : Word) : State :=
  let v := setBits v 29 0 0
  let m := bitOf v 30
  let free := !s.flag RAFT_CTL.EN || !s.flag RAFT_STAT.MV
  if m != s.isMaster && !free then
    let s := s.raftRefuse 2 6 0
    if m then s.raise 0x8B s.raft.mpos (BitVec.ofNat 32 s.raft.mpos) 0 else s
  else
    let s := (s.setFld RAFT_CTL.MASTER (b2n m)).stage RAFT_CTL.adr v
    (if m ∧ s.raftState ≠ raftOff then (s.setFld RAFT_STAT.MV 1).onRaft (fun x => { x with mpos := s.raftPos, oriented := true })
    else s).refSelect

/-- RAFT_CTL_WRITE: EN waits for the block boundary; MASTER is writable while EN = 0, or while no master is present
(R278, R283). -/
def execRaftCtlWrite (v : Word) (s : State) : Host.Outcome State Fault Refusal :=
  .next (s.hostWrite RAFT_CTL.adr (fun s => s.raftCtl v))

/-- Commands of the raft that wait, when the chip leaves it: they complete with ABORTED. -/
def State.abortRaft (s : State) : State :=
  let hs := s.raft.applies.filterMap (fun a => a.2.1) ++ s.raft.arrived.map (fun a => a.2) ++ s.raft.snaps.filterMap (fun a => a.2) ++
    (match s.raft.unwrap with | some (_, some h, _) => [h] | _ => []) ++ (match s.raft.resetAt with | some (_, some h) => [h] | _ => [])
  hs.foldl (fun s h => s.finish h stAborted 0 0) s

/-- EN = 1 has applied outside BOOT: the chip forms, or is ALONE while no link is UP; its ports train (R257, R259, R266). -/
def State.raftJoin (s : State) : State :=
  let s := s.setFld RAFT_STAT.STATE (if s.linkUp false || s.linkUp true then raftForming else raftAlone)
  let s := (s.retrain false).retrain true
  (if s.isMaster then (s.setFld RAFT_STAT.MV 1).onRaft (fun x => { x with mpos := s.raftPos, oriented := true }) else s).refSelect

/-- EN = 0 has applied: the chip leaves. -/
def State.raftLeave (s : State) : State :=
  let s := s.abortRaft
  let s := ((s.setReg RAFT_STAT.adr 0).setReg RAFT_LINKE.adr 0).setReg RAFT_LINKW.adr 0
  let s := (List.range 64).foldl (fun s i => s.setReg (RAFT_HOP.adr i) 0) s
  (s.onRaft (fun x => { RaftSt.reset with alloc := x.alloc, seq := x.seq })).showLatencies.refSelect

/-- RAFT_ENABLE_APPLY: EN takes effect at a block boundary; EN = 1 applied in BOOT forms at the first one after it (R266). -/
def execRaftEnableApply (s : State) : Host.Outcome State Fault Refusal :=
  .next (if !s.atBoundary then s
  else
    let was := s.flag RAFT_CTL.EN
    let s := if (s.due RAFT_CTL.adr).isSome then s.commitStg RAFT_CTL.adr else s
    if s.flag RAFT_CTL.EN then (if s.raftState = raftOff ∧ s.mode ≠ 0 then s.raftJoin else s)
    else if was then s.raftLeave else s)

/-! Commands (R273, R281-R283, R389) -/

/-- The index of a command's two argument words. -/
def Ctx.index (c : Ctx) (i : Nat) : Nat := (c.arg i).toNat + 2 ^ 32 * (c.arg (i + 1)).toNat

/-- RAFT_APPLY once accepted (R273). -/
def State.raftApply (s : State) (c : Ctx) : State :=
  let wide := bitOf (c.arg 0) 31
  let x := c.index 1
  if x < s.sidx + (if wide then s.ringSum + 64 else 1) then (s.raftRefuse 1 5 0x0601).single c stBadArg 5 0x0601
  else
    let (s, ok) := if wide then s.tokRoom 0 1 else (s, true)
    if !ok then s.single c stBusy 0 0
    else
      let s := (s.accept c x 0 false 0).onRaft (fun r => { r with applies := r.applies ++ [(x, some c.handle, false)] })
      if wide then s.broadcast 5 (x % 2 ^ 48) (some c.handle) else s

/-- RAFT_APPLY. -/
def execRaftApply (src : Fin 128) (tag : Word) (args : List Word) (s : State) : Host.Outcome State Fault Refusal :=
  .next (s.runCmd src.val 0x0601 false tag args State.raftApply)

/-- RAFT_APPLY_AT_X: the staged entries of the applies that are due; their commands complete at X. -/
def execRaftApplyAtX (s : State) : Host.Outcome State Fault Refusal :=
  let due := s.raft.applies.filter (fun a => decide (a.1 ≤ s.sidx))
  .next (if due.isEmpty then s
  else
    let s := s.onRaft (fun r => { r with applies := r.applies.filter (fun a => !decide (a.1 ≤ s.sidx)) })
    let (s, n, bad) := s.applySlots (due.foldl (fun m a => max m a.1) 0)
    due.foldl (fun s a =>
      match a.2.1 with
      | none => s
      | some h =>
        match bad with
        | some (slot, cause) => s.finishAt h a.1 stBadArg cause slot
        | none =>
          match s.cmdOf h with
          | some r => if r.opcode = 0x0601 then s.finishAt h a.1 stOk n 0 else s.finishAt h a.1 stOk (r.d0 / 2 ^ 32) (r.d0 % 2 ^ 32)
          | none => s) s)

/-- The lowest slot index free on the hops of a path, and protected for its ring, in the map of these commands. -/
def State.freeSlot (s : State) (r : Nat) (hops : List Nat) : Option Nat :=
  (List.range s.raftSlots).find? (fun k => s.prot k == r + 1 &&
    !(s.raft.alloc.any (fun a => a.1 == r && a.2.1 == k && a.2.2.any (fun h => hops.contains h))))

/-- Entries for chips go out: this chip's own are staged, the others' are broadcast; then the apply (R283). -/
def State.sendEntries (s : State) (c : Ctx) (l : List (Nat × Nat × Nat × Nat × Nat × Nat)) (d0 d1 : Nat) : State :=
  let x := s.sidx + s.ringSum + 64
  let s := (s.accept c x 0 false 0).updCmd c.handle (fun r => { r with d0 := d0 * 2 ^ 32 + d1 })
  let s := l.foldl (fun s e =>
    let (pos, r, k, op, head, ch) := e
    if pos = s.raftPos then s.stage (slotOff r k) (BitVec.ofNat 32 (op * 2 ^ 29 + head * 2 ^ 23 + ch))
    else s.broadcast 6 (pos * 2 ^ 54 + r * 2 ^ 53 + k * 2 ^ 38 + op * 2 ^ 35 + head * 2 ^ 29 + ch * 2 ^ 16) none) s
  let s := s.onRaft (fun r => { r with applies := r.applies ++ [(x, some c.handle, false)] })
  s.broadcast 5 (x % 2 ^ 48) (some c.handle)

/-- Tokens that entries and their apply need. -/
def State.entryTokens (s : State) (l : List (Nat × Nat × Nat × Nat × Nat × Nat)) : Nat :=
  (l.filter (fun e => e.1 != s.raftPos)).length + 1

/-- RAFT_PATH once accepted. -/
def State.raftPath (s : State) (c : Ctx) : State :=
  let org := c.abits 0 21 16
  let ch := c.abits 0 12 0
  let dests := (c.args.drop 1).map (fun w => (bitsOf w 21 16, bitsOf w 12 0))
  let all := org :: dests.map (fun d => d.1)
  if !s.isMaster || !s.raftUp then s.single c stWrongMode 0 0
  else if all.eraseDups.length ≠ all.length ∨ all.any (fun p => (s.idxOf p).isNone) then s.single c stBadArg 0 0
  else
    let i (p : Nat) : Nat := (s.idxOf p).getD 0
    let far (r : Nat) : Nat := dests.foldl (fun m d => max m (s.pathHops r (i org) (i d.1)).length) 0
    let r := if far 0 ≤ far 1 then 0 else 1
    let isLast (d : Nat × Nat) : Bool := (s.pathHops r (i org) (i d.1)).length == far r
    let hops := (dests.find? isLast).elim [] (fun d => s.pathHops r (i org) (i d.1))
    match s.freeSlot r hops with
    | none => s.single c stNoResource 0 0
    | some k =>
      let l := (org, r, k, 1, 0, ch) :: dests.map (fun d => (d.1, r, k, if isLast d then 3 else 2, org, d.2))
      let (s, ok) := s.tokRoom 0 (s.entryTokens l)
      if !ok then s.single c stBusy 0 0
      else (s.onRaft (fun x => { x with alloc := x.alloc ++ [(r, k, hops)] })).sendEntries c l k r

/-- RAFT_PATH. -/
def execRaftPath (src : Fin 128) (tag : Word) (args : List Word) (s : State) : Host.Outcome State Fault Refusal :=
  .next (s.runCmd src.val 0x0602 false tag args State.raftPath)

/-- One half of a relay bus: its slot, hops and entries, the farthest member being the head (R270, R271, R283). -/
def State.relayHalf (s : State) (r b tail : Nat) (ms : List Nat) : Option (Nat × List Nat × List (Nat × Nat × Nat × Nat × Nat × Nat)) :=
  let i (p : Nat) : Nat := (s.idxOf p).getD 0
  let dist (p : Nat) : Nat := (s.pathHops r (i p) (i tail)).length
  let farthest := ms.foldl (fun m p => max m (dist p)) 0
  match ms.find? (fun p => dist p == farthest) with
  | none => none
  | some head =>
    let hops := s.pathHops r (i head) (i tail)
    (s.freeSlot r hops).map (fun k =>
      (k, hops, ms.map (fun p => if p = head then (p, r, k, 4, 0, b) else (p, r, k, 5, head, b)) ++ [(tail, r, k, 6, head, b)]))

/-- RAFT_RELAY once accepted. -/
def State.raftRelay (s : State) (c : Ctx) : State :=
  let tail := c.abits 0 21 16
  let b := c.abits 0 9 0
  let mask := c.index 1
  let ms := (List.range 64).filter (fun p => mask / 2 ^ p % 2 == 1 && p != tail)
  if !s.isMaster || !s.raftUp then s.single c stWrongMode 0 0
  else if ms.isEmpty ∨ (tail :: ms).any (fun p => (s.idxOf p).isNone) then s.single c stBadArg 0 0
  else
    let i (p : Nat) : Nat := (s.idxOf p).getD 0
    let east := ms.filter (fun p => decide ((s.pathHops 0 (i p) (i tail)).length ≤ (s.pathHops 1 (i p) (i tail)).length))
    let west := ms.filter (fun p => !east.contains p)
    let he := s.relayHalf 0 b tail east
    let hw := s.relayHalf 1 b tail west
    if (!east.isEmpty && he.isNone) || (!west.isEmpty && hw.isNone) then s.single c stNoResource 0 0
    else
      let l := (he.elim [] (fun h => h.2.2)) ++ (hw.elim [] (fun h => h.2.2))
      let (s, ok) := s.tokRoom 0 (s.entryTokens l)
      if !ok then s.single c stBusy 0 0
      else
        let add := (he.elim [] (fun h => [(0, h.1, h.2.1)])) ++ (hw.elim [] (fun h => [(1, h.1, h.2.1)]))
        (s.onRaft (fun x => { x with alloc := x.alloc ++ add })).sendEntries c l
          (he.elim 0xFFFFFFFF (fun h => h.1)) (hw.elim 0xFFFFFFFF (fun h => h.1))

/-- RAFT_RELAY. -/
def execRaftRelay (src : Fin 128) (tag : Word) (args : List Word) (s : State) : Host.Outcome State Fault Refusal :=
  .next (s.runCmd src.val 0x0603 false tag args State.raftRelay)

/-- RAFT_BARRIER once accepted: this chip has arrived; the master's arrival sends the collect token (R282). -/
def State.raftBarrier (s : State) (c : Ctx) : State :=
  let id := c.abits 0 7 0
  let (s, ok) := if s.isMaster then s.tokRoom 0 1 else (s, true)
  if !ok then s.single c stBusy 0 0
  else
    let s := (s.accept c s.sidx 0 false 0).onRaft (fun x => { x with arrived := x.arrived ++ [(id, c.handle)] })
    let mine := s.raft.held.filter (fun t => cwBits t.pay 63 56 == id)
    let s := mine.foldl (fun s t => s.forwardTok 0 t) (s.onRaft (fun x => { x with held := x.held.filter (fun t => !mine.contains t) }))
    if s.isMaster then
      (s.sendTok 0 2 (id * 2 ^ 56) (some c.handle)).onRaft (fun x => { x with collects := x.collects ++ [(id, s.sidx)] })
    else s

/-- RAFT_BARRIER. -/
def execRaftBarrier (src : Fin 128) (tag : Word) (args : List Word) (s : State) : Host.Outcome State Fault Refusal :=
  .next (s.runCmd src.val 0x0604 false tag args State.raftBarrier)

/-- RAFT_BARRIER_RELEASE: at the release index the barrier commands complete. -/
def execRaftBarrierRelease (s : State) : Host.Outcome State Fault Refusal :=
  let due := s.raft.releases.filter (fun r => decide (r.2.1 ≤ s.sidx))
  .next (due.foldl (fun s r =>
    let (mine, rest) := s.raft.arrived.partition (fun a => a.1 == r.1)
    let s := s.onRaft (fun x => { x with arrived := rest, releases := x.releases.filter (fun q => q != r) })
    mine.foldl (fun s a => s.finishAt a.2 r.2.1 (if r.2.2 then stAborted else stOk) (r.2.1 % 2 ^ 32) 0) s) s)

/-- RAFT_BARRIER_TIMEOUT at the master: BTIMEOUT has elapsed; the chip at `pos` holds the collect token (R282). -/
def execRaftBarrierTimeout (pos : Fin 64) (s : State) : Host.Outcome State Fault Refusal :=
  let due := s.raft.collects.filter (fun c => decide (c.2 * 1000 + s.fld RAFT_XTOK.BTIMEOUT * s.fs ≤ s.sidx * 1000))
  .next (due.foldl (fun s c => (s.raiseN2 0x8E c.1 c.1 pos.val).releaseBarrier c.1 true) s)

/-- RAFT_RESET once accepted (R281, R389). -/
def State.raftReset (s : State) (c : Ctx) : State :=
  let x := c.index 0
  if x < s.sidx + s.ringSum then s.single c stBadArg 0 0
  else
    let (s, ok) := s.tokRoom 0 1
    if !ok then s.single c stBusy 0 0
    else
      let s := (s.accept c x 0 false 0).onRaft (fun r => { r with resetAt := some (x, some c.handle) })
      s.broadcast 3 (x % 2 ^ 48) (some c.handle)

/-- RAFT_RESET. -/
def execRaftReset (src : Fin 128) (tag : Word) (args : List Word) (s : State) : Host.Outcome State Fault Refusal :=
  .next (s.runCmd src.val 0x0606 false tag args State.raftReset)

/-- RAFT_RESET_RIPPLE: at the named index the chip re-forms, keeping its tables (R281). -/
def execRaftResetRipple (s : State) : Host.Outcome State Fault Refusal :=
  .next (match s.raft.resetAt with
  | none => s
  | some (x, h) =>
    if s.sidx < x then s
    else
      let s := s.onRaft (fun r => { r with resetAt := none, lost := [], detour := [], wraps := [], brk := [], wrapAt := [], unwrap := none })
      let s := if s.raftUp then s.setFld RAFT_STAT.STATE raftForming else s
      match h with
      | some h => s.finishAt h x stOk 0 0
      | none => s)

/-- RAFT_SNAP once accepted (R281, R389). -/
def State.raftSnap (s : State) (c : Ctx) : State :=
  let x := c.index 0
  if x < s.sidx + s.ringSum then s.single c stBadArg 0 0
  else
    let (s, ok) := s.tokRoom 0 1
    if !ok then s.single c stBusy 0 0
    else
      let s := (s.accept c x 0 false 0).onRaft (fun r => { r with snaps := r.snaps ++ [(x, some c.handle)] })
      s.broadcast 2 (x % 2 ^ 48) (some c.handle)

/-- RAFT_SNAP. -/
def execRaftSnap (src : Fin 128) (tag : Word) (args : List Word) (s : State) : Host.Outcome State Fault Refusal :=
  .next (s.runCmd src.val 0x0607 false tag args State.raftSnap)

/-! Writes to the Expert registers (R272, R275, R283) -/

/-- A write to a slot entry is staged. -/
def State.slotWrite (s : State) (r k : Nat) (v : Word) : State :=
  let v := setBits v 22 13 0
  if s.raftSlots ≤ k then s
  else if slotOp v = 7 ∨ (4 ≤ slotOp v ∧ 1024 ≤ slotCh v) then s.raftRefuse 0 1 k
  else s.stage (slotOff r k) v

/-- A write to the other Expert registers of the raft; true where it has been handled. -/
def State.raftRegWrite (s : State) (off : Nat) (v : Word) : Option State :=
  match slotOfOff off with
  | some (r, k) => some (s.slotWrite r k v)
  | none =>
    if off = RAFT_XCFG.adr then
      some (if bitsOf v 23 14 = 0 ∨ 1000 < bitsOf v 23 14 then s.raftRefuse 2 1 off else s.setReg off v)
    else if off = RAFT_XTOK.adr then
      some (if bitsOf v 31 16 = 0 then s.raftRefuse 2 1 off else s.setReg off (setBits v 15 0 0))
    else if off = RAFT_XNODE.adr then some (if s.flag RAFT_CTL.EN then s else s.setReg off (setBits v 30 14 0))
    else if 0x60A000 ≤ off ∧ off < 0x60B800 then
      some (if s.raftState = raftWrapped ∨ s.raftState = raftSplit then s.raftRefuse 2 7 off else s.setReg off v)
    else none

end Sys2Proof.Machine
end

