-- ==== Sys2Proof/Machine/Ext.lean ====
section
/-! DEFINITION. The source words that reach the landing from outside, for one sample: ports, flows and the raft (R43, R142,
R235, R242, R293). -/

namespace Sys2Proof.Machine

/-- Ports that may have words: those beside their registers, and those that a receive conversion channel names. -/
def State.livePorts (s : State) : List Nat :=
  let conv := (keysOf s.str.ch).filterMap (fun c =>
    let w := (s.chOf c).heard
    if chKind w = 1 ∧ chDir w = 0 then some (chId w) else none)
  (List.range 32).filter (fun p => (keysOf s.str.tdm).contains p || conv.contains p)

/-- The receive slots of port `p` for sample `k`: the bypassed word and the converted one, crossfaded (R225, R235, R236). -/
def State.portRead (s : State) (p k : Nat) : Tbl Int :=
  let x := s.tdmOf p
  let byp := x.byp64 k
  let g := x.port64 k * s.boomGain64 1 p k
  let open_ := s.tdmSlots p (s.reg (TDM_XRXMASK.adr p))
  (List.range 32).foldl (fun t n =>
    let c := if byp = 64 ∨ !open_.contains n then 0 else s.slotRx 1 p n k
    let w := wordOf (s.inboxAt k) (32 * p + n) * ((byp : Nat) : Int) + c * ((64 - byp : Nat) : Int)
    Tbl.put (fun _ => 0) t (32 * p + n) (rneDiv (w * ((g : Nat) : Int)) (64 ^ 3))) []

/-- All source words from outside for sample `k`. -/
def State.extRead (s : State) (k : Nat) : State × Tbl Int :=
  let s := (keysOf s.str.boom).foldl (fun s b => s.boomRead k b) s
  let raft := (s.inboxAt k).filter (fun p => decide (0x4000 ≤ p.1 ∧ p.1 < 0x7000))
  let (s, net) := s.netRead k
  (s, s.livePorts.foldl (fun t p => addWords t (s.portRead p k)) (addWords net raft))

/-- Words for samples up to `k` are gone. -/
def State.dropInbox (s : State) (k : Nat) : State :=
  { s with str := { s.str with inbox := s.str.inbox.filter (fun p => decide (k < p.1)) } }

end Sys2Proof.Machine
end

