-- ==== Sys2Proof/Machine/PairBase.lean ====
section
/-! DEFINITION. The pair logic's roles, classes, messages and copies, as modes and events change them (R339-R351, R354,
R358). -/

namespace Sys2Proof.Machine

/-- A change of the pair logic beside its registers. -/
def State.onPair (s : State) (f : PairSt → PairSt) : State := { s with pair := f s.pair }

/-- Roles (PAIR_STAT.ROLE) and sync states (PAIR_STAT.SYNC). -/
def roleOff : Nat := 0
def roleStandby : Nat := 1
def roleActive : Nat := 2
def roleClaiming : Nat := 3
def syncUnsynced : Nat := 0
def syncCopy1 : Nat := 1
def syncCopy3 : Nat := 3
def syncChecking : Nat := 4
def syncSynced : Nat := 5

def State.pairOn (s : State) : Bool := s.flag PAIR_CTL.EN
def State.role (s : State) : Nat := s.fld PAIR_STAT.ROLE
def State.psync (s : State) : Nat := s.fld PAIR_STAT.SYNC
def State.pairGen (s : State) : Nat := s.fld PAIR_STAT.GEN
/-- A standby, a claiming one included. -/
def State.isStandby (s : State) : Bool := s.mode == 3 && (s.role == roleStandby || s.role == roleClaiming)

/-- The role class (R341). -/
def State.pairClass (s : State) : Nat :=
  if !s.pairOn || s.mode == 5 || s.role == roleOff then 0
  else if s.role = roleActive then 3
  else if s.mode ≠ 3 then 0
  else if s.psync = syncSynced then 2 else 1

/-- A pair event: the claim, GEN and a cause, phase or item; then its other contents (R359). -/
def State.pairEvent (s : State) (code k a1 : Nat) : State :=
  s.raiseN2 code k (s.claimNow * 2 ^ 16 + s.pairGen * 2 ^ 8 + k % 256) a1

/-! Messages (R280, R358) -/

/-- The ring with fewer hops to the partner; none while its place is not known. -/
def State.partnerRing (s : State) : Option Nat :=
  if !s.raftUp then none
  else (s.idxOf (s.fld PAIR_CTL.PARTNER)).map (fun j =>
    if 2 * ((j + s.ringN - s.ringIdx) % s.ringN) ≤ s.ringN then 0 else 1)

/-- Sends a message of class `cls` to the partner. -/
def State.pairSend (s : State) (cls data : Nat) : State :=
  match s.partnerRing with
  | some r => s.sendTok r 4 (s.fld PAIR_CTL.PARTNER * 2 ^ 58 + cls * 2 ^ 54 + data) none
  | none => s

/-- Samples between test pulses (R345). -/
def State.pulsePeriod (s : State) : Nat := s.fld PAIR_XCFG.TPER * s.fs / 10

/-- What a STATE message shows of role, class, sync state and ILK view. -/
def State.stateView (s : State) : Nat :=
  s.claimNow * 2 ^ 34 + s.pairGen * 2 ^ 26 + s.psync * 2 ^ 23 + s.fld PAIR_STAT.ILKV * 2 ^ 22 + b2n s.pair.pulseSeen * 2 ^ 21

/-- The sample of the active chip's next test pulse (R345); 0 on another chip. -/
def State.nextPulse (s : State) : Nat := if s.role = roleActive then s.pair.pulseAt + s.pulsePeriod else 0

/-- Sends STATE (R358). -/
def State.sendState (s : State) : State :=
  let v := s.stateView
  let next := s.nextPulse
  let s := s.pairSend 0 (2 * 2 ^ 50 + v + s.fld GLB_RATE.NB * 2 ^ 19 + s.fld GLB_RATE.RATE * 2 ^ 16 + next % 2 ^ 16)
  s.onPair (fun p => { p with sentAt := s.sidx, sentView := v })

/-- PAIR_STAT shows the class, and a change of role, class, sync state or ILK view is told to the partner. -/
def State.pairShow (s : State) : State :=
  let s := s.setFld PAIR_STAT.CLASS s.pairClass
  if s.pairOn && s.stateView != s.pair.sentView then s.sendState else s

/-- COPYCTL: phase, generation, and 0 request, 1 phase done, 2 abort. -/
def State.sendCopyCtl (s : State) (phase gen kind : Nat) : State :=
  s.pairSend 0 (4 * 2 ^ 50 + phase * 2 ^ 48 + gen * 2 ^ 40 + kind * 2 ^ 38)

/-! The sync state (R354) -/

/-- The sync state moves to a copy phase, which is asked of the partner. -/
def State.toPhase (s : State) (phase : Nat) : State :=
  let s := (s.setFld PAIR_STAT.SYNC phase).onPair (fun p => { p with copyAt := s.sidx, copyDone := false, copyAbort := false })
  ((s.pairEvent 0xDC phase 0).sendCopyCtl phase s.pairGen 0).pairShow

/-- A standby starts a copy: GEN increments and STATEOK clears. -/
def State.startCopy (s : State) : State :=
  ((s.setFld PAIR_STAT.GEN (s.pairGen + 1)).setFld PAIR_STAT.STATEOK 0).toPhase syncCopy1

/-- The sync state falls to UNSYNCED; with AUTORESYNC a standby starts a copy. -/
def State.toUnsynced (s : State) : State :=
  let s := (s.setFld PAIR_STAT.SYNC syncUnsynced).pairShow
  if s.flag PAIR_CTL.AUTORESYNC && s.isStandby then s.startCopy else s

/-! Roles (R347, R349) -/

/-- The role changes with a mode that this chip enters other than by a takeover: SHADOW makes it a standby; every other
mode releases ILK and leaves it without a role. -/
def State.roleOfMode (s : State) (m : Nat) : State :=
  if !s.pairOn then s
  else
    let s := s.onPair (fun p => { p with driving := false, claim := .none, serve := none })
    if m = 3 then
      ((s.setFld PAIR_STAT.ROLE roleStandby).pairEvent 0xD1 0 0).toUnsynced
    else
      ((s.setFld PAIR_STAT.ROLE roleOff).setFld PAIR_STAT.SYNC syncUnsynced).pairShow

/-- The chip becomes active: class 3; a copy in progress is abandoned (R348). -/
def State.becomeActive (s : State) (driving : Bool) : State :=
  let s := s.onPair (fun p => { p with driving := driving, claim := .none, pulseAt := s.sidx })
  let s := ((s.setFld PAIR_STAT.ROLE roleActive).setFld PAIR_STAT.SYNC syncUnsynced).setFld PAIR_STAT.STATEOK 1
  s.pairShow

/-- ILK is found faulty: UNVERIFIED, and PAIR_ILK_FAULT once with the cause (R345). -/
def State.ilkFault (s : State) (cause : Nat) : State :=
  let s := (s.setFld PAIR_STAT.ILKV 0).onPair (fun p => { p with pulseSeen := false })
  let s := if s.pair.faultRaised then s
    else ((s.onPair (fun p => { p with faultRaised := true })).pairEvent 0xD4 cause 0).bump PAIR_ILKFAIL_CNT.adr
  s.pairShow

end Sys2Proof.Machine
end

