-- ==== Sys2Proof/Machine/Modes.lean ====
section
/-! DEFINITION. Modes: MODE_SET, mode changes, automatic entry to SAFE (R20-R25, R349, R451, R452). -/

namespace Sys2Proof.Machine

/-- A change of chip-wide state. -/
def State.onGlb (s : State) (f : GlbSt → GlbSt) : State := { s with glb := f s.glb }

/-- Transitions that MODE_SET may make (R21). -/
def modeAllowed (old new : Nat) : Bool :=
  (match old with
  | 1 => [2, 3, 4, 5]
  | 2 => [1, 3, 5]
  | 3 => [1, 2, 5]
  | 4 => [1, 5]
  | 5 => [1, 4]
  | _ => []).contains new

/-- A start request that has not taken effect is dropped; its command completes with ABORTED (R20: engines stay halted in SAFE;
DESIGN CHOICE for the status, log entry 11). -/
def State.dropStart (s : State) (e : Nat) : State :=
  let x := s.engOf e
  if x.startReq.isNone then s
  else ((s.setEng e { x with startReq := none, startRing := none, startCmd := none }).setFld (ENG_CTL.RUN e) 0).finishOpt
    x.startCmd stAborted 0 0

/-- Engines halt at entry to SAFE (R20, R451): those that are neither STOPPED nor HALTED, the control engine apart; and none
starts there. -/
def State.haltForSafe (s : State) : State :=
  (List.range 16).foldl (fun s e => (if s.engAtRest e then s else s.haltEng e 5).dropStart e) s

/-- The device enters a mode; its mutes fade over `span` samples (R22, R23, R25, R451, R452). -/
def State.enterMode (s : State) (m span : Nat) : State :=
  let old := s.mode
  let s := s.setFld GLB_MODE.CUR m
  let on := s.audible m
  let s := if on == s.out.mode.on && span != 0 then s else { s with out := { s.out with mode := s.out.mode.turn on s.sidx span curveEqp } }
  let carried := m != 5
  let s := if carried == s.out.safe.on && span != 0 then s
    else { s with out := { s.out with safe := s.out.safe.turn carried s.sidx span curveEqp } }
  let s := if m = 5 then s.haltForSafe else s
  let s := if m = 4 ∨ m = 5 then s.disarm.abortSched else s
  (if old = 5 then s.setFld THM_STAT.TRIPPED 0 else s).pathsCheck

/-- MODE_CHANGED with the new and the old mode: SOURCE new, ARG0 new, ARG1 old, a DESIGN CHOICE (log entry 10). -/
def State.modeEvent (s : State) (new old : Nat) : State := s.raiseN2 0x01 new new old

/-- A MODE_SET is recorded as pending (GLB_MODE.PENDING, TARGET). -/
def State.modePending (s : State) (c : Ctx) (m : Nat) : State :=
  let s := ((s.accept c s.sidx 0 false 0).setFld GLB_MODE.PENDING 1).setFld GLB_MODE.TARGET m
  s.onGlb (fun g => { g with modePend := some ⟨c.handle, m, s.sidx, none, s.mode⟩ })

/-- The pending MODE_SET ends with a status. -/
def State.modeEnd (s : State) (status : Nat) : State :=
  match s.glb.modePend with
  | none => s
  | some p =>
    let s := (s.onGlb (fun g => { g with modePend := none })).setFld GLB_MODE.PENDING 0
    s.finishAt p.handle s.sidx status p.prev 0

/-- A pending MODE_SET to LIVE waits for a claim of the pair logic (R339, R349). -/
def State.claimPending (s : State) : Bool :=
  s.pairOn && (match s.glb.modePend with
    | some p => p.target == 2 && p.changedAt.isNone
    | none => false)

/-- MODE_SET to LIVE on a paired chip starts a claim: at once with ILK released, by force with ILK UNVERIFIED; with ILK
VERIFIED and held by the partner it is BUSY (R349). -/
def State.claimByCommand (s : State) (c : Ctx) : State :=
  let go (k : ClaimSt) : State :=
    ((s.modePending c 2).setFld PAIR_STAT.ROLE roleClaiming).onPair (fun p => { p with claim := k, claimAt := s.sidx })
  if s.pair.cfgBad then s.single c stWrongMode 0 0
  else if s.flag PAIR_STAT.ILKPIN then go .atOnce
  else if s.flag PAIR_STAT.ILKV then s.single c stBusy 0 0
  else go .forced

/-- MODE_SET once accepted (R21, R22, R24, R35, R452). The order of its checks is a DESIGN CHOICE (log entry 11): OK for the
current mode, WRONG_MODE for a barred transition, BUSY (a MODE_SET, a rate change or a fuse write in progress, or SAFE with
WARN), BAD_ARG for SHADOW without a pair. -/
def State.modeSetCmd (s : State) (c : Ctx) : State :=
  let m := c.abits 0 2 0
  let old := s.mode
  if m = 0 ∨ 6 ≤ m then s.single c stBadArg 0 0
  else if m = old then s.single c stOk old 0
  else if !modeAllowed old m then s.single c stWrongMode 0 0
  else if s.glb.modePend.isSome || s.flag GLB_RATE.PENDING || s.glb.burning ||
      (old == 5 && s.flag THM_STAT.WARN) then s.single c stBusy 0 0
  else if m = 3 ∧ !s.pairOn then s.single c stBadArg 0 0
  else if m = 2 ∧ s.pairOn then s.claimByCommand c
  else s.modePending c m

/-- MODE_SET. -/
def execModeSet (src : Fin 128) (tag : Word) (args : List Word) (s : State) : Host.Outcome State Fault Refusal :=
  .next (s.runCmd src.val 0x0101 false tag args State.modeSetCmd)

/-- MODE_CHANGED: at the first block boundary after acceptance the mode changes (R22). -/
def execModeChanged (s : State) : Host.Outcome State Fault Refusal :=
  .next (match s.glb.modePend with
  | none => s
  | some p =>
    if s.atBoundary && p.changedAt.isNone && decide (p.accepted < s.sidx) && !s.claimPending then
      let old := s.mode
      let s := s.onGlb (fun g => { g with modePend := some { p with changedAt := some s.sidx, prev := old } })
      let s := if p.target = 5 then s.setFld GLB_MODE.SAFE_CAUSE 1 else s
      (((s.enterMode p.target 64).modeEvent p.target old).roleOfMode p.target)
    else s)

/-- Every port in RUN has begun a frame in the mode in force: its SDO shows that mode (R22). -/
def State.framesFollow (s : State) : Bool :=
  (List.range 32).all (fun p => s.tdmState p != tdmRun || (s.tdmOf p).fmode == s.mode)

/-- MODE_FADE_END: every output has reached the new mode's state, and MODE_SET completes (R22). -/
def execModeFadeEnd (s : State) : Host.Outcome State Fault Refusal :=
  .next (match s.glb.modePend with
  | none => s
  | some p =>
    match p.changedAt with
    | none => s
    | some n =>
      if n < s.sidx ∧ s.out.mode.still s.sidx ∧ s.out.safe.still s.sidx ∧ s.framesFollow then s.modeEnd stOk else s)

/-- A cause of automatic entry to SAFE is detected: it waits for the next block boundary; in SAFE, and in BOOT, it changes
nothing (R21, R23, R452). -/
def State.safeCause (s : State) (cause : Nat) : State :=
  if s.mode = 5 ∨ s.mode = 0 ∨ s.glb.safePend.isSome then s
  else s.onGlb (fun g => { g with safePend := some (cause, s.sidx) })

/-- The device enters SAFE for a cause, without a fade (R23). SAFE_ENTERED carries SOURCE and ARG0 the cause and ARG1 0: DESIGN
CHOICE (log entry 10). -/
def State.enterSafe (s : State) (cause : Nat) : State :=
  let s := (s.onGlb (fun g => { g with safePend := none })).setFld GLB_MODE.SAFE_CAUSE cause
  let s := ((s.enterMode 5 0).modeEnd stAborted).fuseAbort stAborted true
  (s.raiseN2 0x02 cause cause 0).roleOfMode 5

/-- SAFE_ENTERED: at the first block boundary after the cause. -/
def execSafeEntered (s : State) : Host.Outcome State Fault Refusal :=
  .next (match s.glb.safePend with
  | some (cause, n) => if s.atBoundary ∧ n < s.sidx then s.enterSafe cause else s
  | none => s)

end Sys2Proof.Machine
end

