-- ==== Sys2Proof/Machine/Dac.lean ====
section
/-! DEFINITION. The commands of the DACs (R416-R428). -/

namespace Sys2Proof.Machine

/-- Changes the DACs' state. -/
def State.onDac (s : State) (f : DacSt → DacSt) : State := { s with dac := f s.dac }

/-- Sets one bit of DAC_STAT. -/
def State.dacBit (s : State) (k : Nat) (b : Bool) : State := s.setReg DAC_STAT.adr (setBits (s.reg DAC_STAT.adr) k k (b2n b))

/-- DAC_CTL drives EN, GAIN and FILT of every channel, and CLR (R427). -/
def State.driveDacs (s : State) : State :=
  let c := s.reg DAC_CTL.adr
  let s := (List.range 8).foldl (fun (s : State) d =>
    let w := (s.waiting (DAC_XCH.adr d)).getD (s.reg (DAC_XCH.adr d))
    s.stageBasic (DAC_XCH.adr d)
      (setBits w 31 29 (4 * b2n (bitOf c d) + 2 * b2n (bitOf c (8 + d)) + b2n (bitOf c 16)))) s
  s.setFld DAC_XGLB.CLR (b2n (bitOf c 31))

/-- The effect of a write of DAC_CTL. -/
def State.dacCtl (s : State) (v : Word) : State := (s.plainWrite DAC_CTL.adr v).driveDacs

/-- DAC_CTL_WRITE. -/
def execDacCtlWrite (v : Word) (s : State) : Host.Outcome State Fault Refusal :=
  .next (s.hostWrite DAC_CTL.adr (fun s => s.dacCtl v))

/-- DAC_STAT.REFEXT: DAC_REFIN in use. -/
def State.showRef (s : State) : State := s.dacBit 30 (s.flag DAC_XGLB.REFEXT && !s.flag DAC_STAT.REFFAULT)

/-- The DAC registers with effects: clear codes, channel words, DAC_XGLB. -/
def State.dacRegWrite (s : State) (off : Nat) (v : Word) : Option State :=
  if off = DAC_CTL.adr then some (s.dacCtl v)
  else if DAC_CLRCODE.adr 0 ≤ off ∧ off ≤ DAC_CLRCODE.adr 7 then
    some ((s.plainWrite off v).stageBasic (off + 0x100) (setBits v 31 24 0))
  else if DAC_XCH.adr 0 ≤ off ∧ off ≤ DAC_XCH.adr 7 then some (s.stage off (setBits v 26 0 0))
  else if DAC_XCLRCODE.adr 0 ≤ off ∧ off ≤ DAC_XCLRCODE.adr 7 then some (s.stage off (setBits v 31 24 0))
  else if off = DAC_XGLB.adr then some (if 9 ≤ bitsOf v 3 0 then s else (s.plainWrite off v).showRef)
  else none

/-- The channel's word in force becomes `v`: a FILT change in row 5 is dropped, a GAIN change starts the range hold, and
EN going from 0 to 1 ends a short protection without RETRY (R420, R422, R423, R425). -/
def State.dacApply (s : State) (d : Nat) (v : Word) : State :=
  let old := s.reg (DAC_XCH.adr d)
  let v := if s.dacRow d = 5 then setBits v 29 29 (bitsOf old 29 29) else v
  let s := (s.setReg (DAC_XCH.adr d) v).unstage (DAC_XCH.adr d)
  let s := if bitOf old 30 == bitOf v 30 then s else s.onDac (fun x => { x with hold := x.hold.filter (fun k => k != d) ++ [d] })
  if !bitOf old 31 ∧ bitOf v 31 ∧ !bitOf v 27 then s.dacBit (16 + d) false else s

/-- DAC_ENABLE_APPLY: at a block boundary. -/
def execDacEnableApply (d : Fin 8) (s : State) : Host.Outcome State Fault Refusal :=
  .next (if !s.atBoundary then s
  else match s.due (DAC_XCH.adr d.val) with
    | none => s
    | some v => s.dacApply d.val v)

/-- DAC_GAIN_HOLD_END. -/
def execDacGainHoldEnd (d : Fin 8) (s : State) : Host.Outcome State Fault Refusal :=
  .next (if d.val ∈ s.dac.hold then
    (s.onDac (fun x => { x with hold := x.hold.filter (fun k => k != d.val) })).raiseN2 0xF4 d.val 1 (s.fld (DAC_XCH.GAIN d.val))
  else s)

/-- DACCLR_ASSERT. -/
def execDacclrAssert (s : State) : Host.Outcome State Fault Refusal :=
  .next (if s.flag DAC_STAT.CLRPIN then s
  else ((s.dacBit 31 true).onDac (fun x => { x with clrLow := some s.sidx })).raiseN2 0xF0 0xFF 1 0)

/-- DACCLR_RELEASE. -/
def execDacclrRelease (s : State) : Host.Outcome State Fault Refusal :=
  .next (if s.flag DAC_STAT.CLRPIN then
    ((s.dacBit 31 false).onDac (fun x => { x with clrLow := none, clrRet := true })).raiseN2 0xF0 0xFF 0
      (s.sidx - s.dac.clrLow.getD s.sidx)
  else s)

/-- DAC_REF_FAULT. -/
def execDacRefFault (s : State) : Host.Outcome State Fault Refusal :=
  .next (if s.flag DAC_XGLB.REFEXT ∧ !s.flag DAC_STAT.REFFAULT then
    (((s.dacBit 29 true).showRef).onDac (fun x => { x with refHold := some s.sidx })).raiseN2 0xF4 0xFF 2 0
  else s)

/-- DAC_REF_RECOVERED. -/
def execDacRefRecovered (s : State) : Host.Outcome State Fault Refusal :=
  .next (if s.flag DAC_STAT.REFFAULT then
    (((s.dacBit 29 false).showRef).onDac (fun x => { x with refHold := some s.sidx })).raiseN2 0xF4 0xFF 3 0
  else s)

/-- DAC_SHORT: `leg` is 1 P, 2 N, 3 both. -/
def execDacShort (d : Fin 8) (leg : Fin 4) (s : State) : Host.Outcome State Fault Refusal :=
  .next (if leg.val = 0 ∨ s.dacRow d.val = 1 then s
  else ((s.dacBit (16 + d.val) true).bump (DAC_FAULT_CNT.adr d.val)).raiseN2 0xF1 d.val leg.val 0)

/-- DAC_RETRY_TEST. -/
def execDacRetryTest (d : Fin 8) (ok : Bool) (s : State) : Host.Outcome State Fault Refusal :=
  .next (if bitOf (s.reg DAC_STAT.adr) (16 + d.val) ∧ s.flag (DAC_XCH.RETRY d.val) then
    let l := s.dac.retryOk.filter (fun k => k != d.val)
    s.onDac (fun x => { x with retryOk := if ok then l ++ [d.val] else l })
  else s)

/-- DAC_OPEN. -/
def execDacOpen (d : Fin 8) (s : State) : Host.Outcome State Fault Refusal :=
  .next (if s.flag (DAC_XCH.OPENEN d.val) ∧ !bitOf (s.reg DAC_STAT.adr) (8 + d.val) ∧ 3 ≤ s.dacRow d.val then
    ((s.dacBit (8 + d.val) true).bump (DAC_FAULT_CNT.adr d.val)).raise 0xF2 d.val 0 0
  else s)

/-- DAC_OPEN_RECOVERED. -/
def execDacOpenRecovered (d : Fin 8) (s : State) : Host.Outcome State Fault Refusal :=
  .next (if bitOf (s.reg DAC_STAT.adr) (8 + d.val) then (s.dacBit (8 + d.val) false).raiseN2 0xF3 d.val 2 0 else s)

/-- DAC_VDDA_VALID (R444). -/
def execDacVddaValid (s : State) : Host.Outcome State Fault Refusal :=
  .next ((s.onDac (fun x => { x with vdda := true })).setReg SUP_STAT.adr (setBits (s.reg SUP_STAT.adr) 7 7 0))

/-- The DACs at a block boundary: clear codes and the global clear come into force, a released DACCLR_N lets the channels
return, and a passed retry test ends its protection (R419-R425). -/
def State.dacTick (s : State) : State :=
  let s := (List.range 8).foldl (fun (s : State) d =>
    match s.due (DAC_XCLRCODE.adr d) with
    | none => s
    | some _ => s.commitStg (DAC_XCLRCODE.adr d)) s
  let ok := s.dac.retryOk
  let s := s.onDac (fun x => { x with clr := s.flag DAC_XGLB.CLR, clrRet := false, retryOk := [] })
  ok.foldl (fun (s : State) d =>
    if bitOf (s.reg DAC_STAT.adr) (16 + d) then (s.dacBit (16 + d) false).raiseN2 0xF3 d 1 0 else s) s

end Sys2Proof.Machine
end

