-- ==== Sys2Proof/Machine/Gens.lean ====
section
/-! DEFINITION. Commands of the tone and noise generators (R155-R157). -/

namespace Sys2Proof.Machine

/-- The register `w` of generator `n`: CTL, FREQ, LEVEL, SEED. -/
def genReg (n w : Nat) : Nat := LND_GEN_CTL.adr n + 4 * w

/-- Writable bits of the four registers. -/
def genMask (w : Nat) : Nat := [0xF0000100, 0x00FFFFFF, 0x0000FFFF, 0xFFFFFFFF].getD w 0

/-- A value that R155 and R156 refuse. -/
def State.genBad (s : State) (w : Nat) (v : Word) : Bool :=
  match w with
  | 0 => decide (4 ≤ bitsOf v 31 28)
  | 1 => decide (100 * s.fs ≤ 2 * bitsOf v 23 0)
  | 2 => let g := toSigned 16 (bitsOf v 15 0)
    g != -32768 && decide (g < -12000 ∨ 0 < g)
  | _ => false

/-- The effect of a write of word `w` of generator `n` (R156). -/
def State.genWrite (s : State) (n w : Nat) (v : Word) : State :=
  if s.genBad w v then s.lndRefuse 2 5 n
  else s.stage (genReg n w) (BitVec.ofNat 32 (Nat.land v.toNat (genMask w)))

/-- GENERATOR_WRITE (R156). -/
def execGeneratorWrite (n : Fin 16) (w : Fin 4) (v : Word) (s : State) : Host.Outcome State Fault Refusal :=
  .next (s.hostWrite (genReg n.val w.val) (fun s => s.genWrite n.val w.val v))

/-- The four Expert values that a tone register drives (R157). -/
def toneRegs (n : Nat) (v : Word) : List Nat :=
  let att := bitsOf v 27 16
  [bitsOf v 31 28 * 2 ^ 28, bitsOf v 15 0 * 100, if 1200 < att then 0x8000 else ofSigned 16 (-(10 * (att : Int))), n + 1]

/-- The effect of a write of LND_TONEn (R26, R157). -/
def State.toneWrite (s : State) (n : Nat) (v : Word) : State :=
  if 4 ≤ bitsOf v 31 28 ∨ s.fs ≤ 2 * bitsOf v 15 0 then s.lndRefuse 2 5 n
  else
    let s := s.stage (LND_TONE.adr n) v
    (List.range 4).foldl (fun s w => s.stageBasic (genReg n w) (BitVec.ofNat 32 ((toneRegs n v).getD w 0))) s

/-- LND_TONE_WRITE (R26, R157). -/
def execLndToneWrite (n : Fin 16) (v : Word) (s : State) : Host.Outcome State Fault Refusal :=
  .next (s.hostWrite (LND_TONE.adr n.val) (fun s => s.toneWrite n.val v))

/-- The generator takes its new settings at sample `sidx` (R156). The pink filter starts from zero state when TYPE becomes 3
(R155), and when SEED changes under TYPE 3: DESIGN CHOICE (log entry 31). -/
def State.genApply (s : State) (n : Nat) : State :=
  let o := s.genSet n
  let lv := s.fld (LND_GEN_LEVEL.LEVEL n)
  let g := s.genOf n
  let t := (LND_TONE.adr n :: (List.range 4).map (genReg n)).foldl (fun t off =>
    if (s.due off).isSome then t.commitStg off else t) s
  let t := t.setFld (LND_GEN_CTL.BUSY n) 0
  let pinkAt := if t.fld (LND_GEN_CTL.TYPE n) = 3 ∧ (o.type ≠ 3 ∨ t.fld (LND_GEN_SEED.SEED n) ≠ o.seed) then s.sidx else g.pinkAt
  let c := { t.genSet n with pinkAt := pinkAt }
  let ramp := t.fld (LND_GEN_LEVEL.LEVEL n) != lv
  let trans := c.type != o.type || c.seed != o.seed || c.phlock != o.phlock || (c.freq != o.freq && o.phlock)
  let g := { g with pinkAt := pinkAt, rampAt := if ramp then some s.sidx else none, rampFrom := if ramp then lv else 0,
                    transAt := if trans then some s.sidx else none, old := if trans then some o else none }
  (t.setGen n g).setFld (LND_GEN_CTL.BUSY n) (b2n (ramp || trans))

/-- GENERATOR_APPLY: the registers written before this block boundary, unless a ramp or transition still runs (R156). -/
def execGeneratorApply (n : Fin 16) (s : State) : Host.Outcome State Fault Refusal :=
  let waits := (List.range 4).any (fun w => (s.due (genReg n w)).isSome)
  let free := !s.flag (LND_GEN_CTL.BUSY n) && decide (∀ k ∈ (s.genOf n).idleAt, k < s.sidx)
  .next (if s.atBoundary && waits && free then s.genApply n else s)

/-- GENERATOR_RAMP_END: 480 samples after the boundary BUSY returns to 0 (R156). -/
def execGeneratorRampEnd (n : Fin 16) (s : State) : Host.Outcome State Fault Refusal :=
  let g := s.genOf n
  let passed (t : Option Nat) : Bool := decide (∀ k ∈ t, k + 480 ≤ s.sidx)
  .next (if s.flag (LND_GEN_CTL.BUSY n) && passed g.rampAt && passed g.transAt then
    (s.setGen n { g with rampAt := none, rampFrom := 0, transAt := none, old := none, idleAt := some s.sidx }).setFld
      (LND_GEN_CTL.BUSY n) 0
  else s)

end Sys2Proof.Machine
end

