-- ==== Sys2Proof/Machine/Host.lean ====
section
/-! DEFINITION. The host interface: direct FIFOs, rings, doorbells, event routing and its resets (R370-R380). -/

namespace Sys2Proof.Machine

/-- Changes the host interface. -/
def State.onHost (s : State) (f : HostSt → HostSt) : State := { s with host := f s.host }

/-! The direct FIFOs (R371) -/

/-- A read of word 0 of HOST_DCPL: the oldest completion leaves, its words 1-7 are latched; its last entry ends a
command's time outstanding (R370, R371). -/
def State.popDcpl (s : State) : State :=
  match s.host.dcpl with
  | [] => s.onHost (fun h => { h with dcplLatch := [] })
  | c :: t =>
    let s := s.onHost (fun h => { h with dcpl := t, dcplLatch := c.words.drop 1 })
    if c.done then s.setFld HOST_CMD_STAT.PENDING (s.fld HOST_CMD_STAT.PENDING - 1) else s

/-- HOST_DCPL_READ. -/
def execHostDcplRead (s : State) : Host.Outcome State Fault Refusal := .next s.popDcpl

/-- A read of word 0 of HOST_DEVQ (R371). -/
def State.popDevq (s : State) : State :=
  match s.host.devq with
  | [] => s.onHost (fun h => { h with devqLatch := [] })
  | e :: t => s.onHost (fun h => { h with devq := t, devqLatch := (e.1.words e.2).drop 1 })

/-- HOST_DEVQ_READ. -/
def execHostDevqRead (s : State) : Host.Outcome State Fault Refusal := .next s.popDevq

/-! Ring descriptors (R372, R373, R377) -/

/-- A ring stops: STATE, CAUSE and HOST_RING_ERR (R373). -/
def State.ringStop (s : State) (r cause : Nat) : State :=
  ((s.setFld (HOST_RING.STATE r) 2).setFld (HOST_RING.CAUSE r) cause).raiseN2 0x19 r cause 0

/-- A ring that may be enabled with descriptor word 2 `v` (cause 3 of R373). -/
def State.ringOk (s : State) (r : Nat) (v : Word) : Bool :=
  let role := bitsOf v 30 29
  let lg := bitsOf v 28 24
  let cr := bitsOf v 13 7
  let producer := role == 0 || role == 3
  decide (4 ≤ lg) && decide (lg ≤ 16) && !(producer && r == 127) &&
    (!producer || (s.flag (HOST_RING.EN cr) && s.fld (HOST_RING.ROLE cr) == 1))

/-- Sets or clears a ring's arming (R377). -/
def State.arm (s : State) (r : Nat) (on : Bool) : State :=
  let l := s.host.armed.filter (fun x => x != r)
  s.onHost (fun h => { h with armed := if on then l ++ [r] else l })

/-- EN goes from 0 to 1: indices and the source's sequence restart, and the ring runs, or stops with cause 3. -/
def State.ringEnable (s : State) (r : Nat) (v : Word) : State :=
  let s := s.setReg (HOST_RING.adr r + 8) v
  let s := (s.setFld (HOST_RING.DIDX r) 0).setFld (HOST_RING.HIDX r) 0
  if s.ringOk r v then
    let s := (s.setFld (HOST_RING.STATE r) 1).setFld (HOST_RING.CAUSE r) 0
    let s := s.onHost (fun h => { h with seq := Tbl.put (fun _ => 1) h.seq r 1 })
    let role := bitsOf v 30 29
    (s.arm r (bitOf v 23 && (role == 1 || role == 2))).drainHeld
  else s.ringStop r 3

/-- A ring with pending commands names completion ring `r`. -/
def State.ringNamed (s : State) (r : Nat) : Bool := s.host.cmds.any (fun c => c.src != directPort && c.cring == r && !c.discard)

/-- EN goes from 1 to 0. -/
def State.ringDisable (s : State) (r : Nat) (v : Word) : State :=
  let s := s.setReg (HOST_RING.adr r + 8) v
  ((s.setFld (HOST_RING.STATE r) 0).setFld (HOST_RING.CAUSE r) 0).arm r false

/-- A write of word `w` of HOST_RINGr. -/
def State.ringCfg (s : State) (r w : Nat) (v : Word) : State :=
  let en := s.flag (HOST_RING.EN r)
  if w = 0 ∨ w = 1 then
    let v := if w = 0 then setBits v 11 0 0 else v
    let off := HOST_RING.adr r + 4 * w
    if en ∧ v ≠ s.reg off then s.raiseN2 0x19 r 5 0 else s.setReg off v
  else if w = 2 then
    let v := setBits (setBits v 16 14 0) 6 0 0
    let old := s.reg (HOST_RING.adr r + 8)
    let same := bitsOf v 30 24 == bitsOf old 30 24 && bitsOf v 13 7 == bitsOf old 13 7
    if en then
      if !same then s.raiseN2 0x19 r 5 0
      else if bitOf v 31 then s.setReg (HOST_RING.adr r + 8) v
      else if s.fld (HOST_RING.ROLE r) = 1 ∧ s.ringNamed r then s.raiseN2 0x19 r 5 0
      else s.ringDisable r v
    else if bitOf v 31 then s.ringEnable r v else s.setReg (HOST_RING.adr r + 8) v
  else s

/-- HOST_RING_WRITE. -/
def execHostRingWrite (r : Fin 128) (w : Fin 8) (v : Word) (s : State) : Host.Outcome State Fault Refusal :=
  .next (s.hostWrite (HOST_RING.adr r.val + 4 * w.val) (fun s => s.ringCfg r.val w.val v))

/-! Doorbells (R373, R377) -/

/-- What a doorbell does to the ring's indices: the state, and whether entries of a submission or bulk ring follow. -/
def State.doorbell (s : State) (r : Nat) (idx : Word) (err : Bool) : State × Bool :=
  let step := (idx.toNat + 2 ^ 32 - s.fld (HOST_RING.HIDX r)) % 2 ^ 32
  let producer := s.fld (HOST_RING.ROLE r) == 0 || s.fld (HOST_RING.ROLE r) == 3
  let room := if producer then s.ringSize r - s.ringWaiting r else s.ringUsed r
  let en := s.flag (HOST_RING.EN r)
  let runs := s.fld (HOST_RING.STATE r) == 1
  let t := s.setFld (HOST_RING.HIDX r) idx.toNat
  if !en then (t.ringStop r 4, false)
  else if !runs then (t, false)
  else if room < step then (t.ringStop r 1, false)
  else if err then (t.ringStop r 2, false)
  else if producer then (t, true)
  else
    let t := t.drainHeld
    if t.fld (HOST_RING.DIDX r) ≠ idx.toNat ∧ t.flag (HOST_RING.IEN r) then ((t.arm r false).sendMsix (t.fld (HOST_RING.VEC r)), false)
    else (t.arm r true, false)

/-! Event routing (R380) -/

/-- Drives HOST_XEVRc.FIFO of the 32 codes of HOST_EVENn. -/
def State.driveEven (s : State) (n : Nat) (v : Word) : State :=
  (List.range 32).foldl (fun (s : State) i => s.setFld (HOST_XEVR.FIFO (32 * n + i)) (b2n (bitOf v i))) s

/-- The effect of a HOST_EVENn write. -/
def State.evenWrite (s : State) (n : Nat) (v : Word) : State := (s.setReg (HOST_EVEN.adr n) v).driveEven n v

/-- HOST_EVEN_WRITE. -/
def execHostEvenWrite (n : Fin 8) (v : Word) (s : State) : Host.Outcome State Fault Refusal :=
  .next (s.hostWrite (HOST_EVEN.adr n.val) (fun s => s.evenWrite n.val v))

/-! Resets (R379, R402) -/

/-- Every HOST register, the MSI-X table and the sequences at reset, both FIFOs empty; accepted commands run on and their
completions are discarded; HOSTDMA is isolated. -/
def State.hostReset (s : State) : State :=
  let s := s.resetRegs 0x100000 0x200000
  let cmds := (s.host.cmds.filter (fun c => c.opcode != 0)).map (fun c => { c with discard := true })
  let r := HostSt.reset
  let h := s.host
  let s := s.onHost (fun _ => { r with
    cmds := cmds, msixSent := h.msixSent, hostMem := h.hostMem, linkUp := h.linkUp, snapArea := h.snapArea })
  let s := { s with glb := { s.glb with resets := s.glb.resets.filter (fun r => r.lvl != HOST_LEVEL.adr) } }
  let s := { s with scn := { s.scn with auto := s.scn.auto.map (fun (a : AutoArm) => { a with handle := a.handle % 2 ^ 32 + 2 ^ 32 }) } }
  s.isolate mHostDma

/-- HOST_FLR. -/
def execHostFlr (s : State) : Host.Outcome State Fault Refusal := .next (s.hostReset.raiseTally 0x1A 0)

/-- HOST_LINK_DOWN: link loss acts as a function-level reset. -/
def State.hostLinkDown (s : State) : State :=
  if s.host.linkUp then
    ((s.hostReset).onHost (fun h => { h with linkUp := false })).raise 0x1B 0 0 0
  else s

def execHostLinkDown (s : State) : Host.Outcome State Fault Refusal := .next s.hostLinkDown

/-- HOST_LINK_UP. -/
def execHostLinkUp (s : State) : Host.Outcome State Fault Refusal :=
  .next (if s.host.linkUp then s else (s.onHost (fun h => { h with linkUp := true })).raise 0x1C 0 0 0)

/-! Configuration space (R361) -/

/-- What configuration space identifies the device by. -/
structure ConfigId where
  vendor : Nat
  device : Nat
  revision : Nat
  classCode : Nat
  subVendor : Nat
  subsystem : Nat
  deriving DecidableEq, Repr

/-- The identity that configuration space reads: the subsystem IDs read 0 until a boot image has been verified. -/
def State.configId (s : State) : ConfigId :=
  { vendor := 0x1E7B, device := 0x8616, revision := bitsOf (s.readReg GLB_ID.adr) 15 8, classCode := 0x048000
    subVendor := bitsOf s.boot.shown 31 16, subsystem := bitsOf s.boot.shown 15 0 }

/-! HOST_ACCESS_ERR (R363) -/

/-- A register or memory access of the host met an error response: offset, response code, HOST_ACCERR_CNT. -/
def State.accessErr (s : State) (off resp : Nat) : State :=
  (s.bump HOST_ACCERR_CNT.adr).raiseN2 0x18 0 off resp

/-- A write whose byte enables are not all set is dropped in a register window. -/
def State.byteErr (s : State) (off : Nat) : State := s.raiseN2 0x18 0 off 0

end Sys2Proof.Machine
end

