-- ==== Sys2Proof/Machine/MtxBase.lean ====
section
/-! DEFINITION. The bus matrix's transactions, locks and isolation, yard power, cruise, and the SDRAM channels
(R395-R402, R405-R414). Responses that may write registers are in Bus. -/

namespace Sys2Proof.Machine

/-- Changes the far side. -/
def State.onFar (s : State) (f : FarSt → FarSt) : State := { s with far := f s.far }

/-! Transactions and locks -/

/-- The target of a transaction; CFG does not admit BAR2 traffic (R393). -/
def State.txTarget (s : State) (t : MtxTx) : Nat := s.farTarget (if t.bar2 then 31 else t.master) t.far

/-- The lock on a target. -/
def State.lockOf (s : State) (t : Nat) : Option MtxLock := s.far.locks.find? (fun l => l.target == t)
def State.unlock (s : State) (t : Nat) : State := s.onFar (fun f => { f with locks := f.locks.filter (fun l => l.target != t) })

/-- A transaction that a lock may cover: CE or TALLYW toward the yard or CFG (R400). -/
def State.lockable (s : State) (t : MtxTx) : Bool :=
  (t.master == mCE || t.master == mTallyW) && (decide (s.txTarget t < 8) || s.txTarget t == tgtCfg)

/-- The lock bookkeeping of a granted transaction of the lock's holder: a locked one counts, an unlocked one ends the sequence. -/
def State.lockStep (s : State) (t : MtxTx) : State :=
  let g := s.txTarget t
  match s.lockOf g with
  | some l =>
    if l.master ≠ t.master then s
    else if t.locked then
      s.onFar (fun f => { f with locks := f.locks.map (fun x => if x.target = g then { x with count := x.count + 1 } else x) })
    else s.unlock g
  | none => if t.locked then s.onFar (fun f => { f with locks := f.locks ++ [⟨g, t.master, 1⟩] }) else s

/-! Arbitration (R398) -/

/-- A transaction's master is of the critical class. -/
def State.critical (s : State) (t : MtxTx) : Bool := s.flag (MTX_XMCFG.CLASS t.master)

/-- Requests at target `g` that it may grant: not yet granted, and only the holder's while a lock holds the target (R400). -/
def State.mtxWaiting (s : State) (g : Nat) : List MtxTx :=
  s.far.txs.filter (fun t => !t.granted && s.txTarget t == g && !s.isolated t.master &&
    (s.lockOf g).all (fun l => l.master == t.master))

/-- The arbiter of target `g`. -/
def State.arb (s : State) (g : Nat) : Arb := (Tbl.find s.far.arbs g).getD ⟨[], 0⟩

/-- Grants that a master has left in the round. -/
def State.gotGrant (s : State) (g : Nat) (t : MtxTx) : Bool :=
  decide (Tbl.get (fun _ => 0) (s.arb g).used t.master < s.fld (MTX_XMCFG.WEIGHT t.master))

/-- The request that target `g` grants next, and whether it begins a new round: the critical class first, a bulk request at least
once in every BULKMIN grants in which it waits, and within a class the oldest request of a master with grants left (R398; that
the oldest goes first is a DESIGN CHOICE, log entry 74). -/
def State.mtxPick (s : State) (g : Nat) : Option (MtxTx × Bool) :=
  let w := s.mtxWaiting g
  let crit := w.filter s.critical
  let bulk := w.filter (fun t => !s.critical t)
  let turn := !bulk.isEmpty && decide (s.fld MTX_XBULK.BULKMIN ≤ (s.arb g).bulk + 1)
  let l := if crit.isEmpty || turn then bulk else crit
  match l.find? (s.gotGrant g) with
  | some t => some (t, false)
  | none => l.head?.map (fun t => (t, true))

/-- The transaction that holds a target: one at a time outside the SDRAM, whose controller takes requests as they come. -/
def State.mtxBusy (s : State) (g : Nat) : Bool :=
  !(g == 8 || g == 9) && s.far.txs.any (fun t => t.granted && s.txTarget t == g)

/-- Target `g`, if it is idle, grants its next request. -/
def State.mtxGrant (s : State) (g : Nat) : State :=
  if s.mtxBusy g then s
  else match s.mtxPick g with
  | none => s
  | some (t, fresh) =>
    let a := s.arb g
    let used := if fresh then a.used.filter (fun p => s.flag (MTX_XMCFG.CLASS p.1) != s.critical t) else a.used
    let left := (s.mtxWaiting g).any (fun x => !s.critical x && !(x.master == t.master && x.id == t.id))
    let b : Arb := ⟨Tbl.put (fun _ => 0) used t.master (Tbl.get (fun _ => 0) used t.master + 1),
      if s.critical t && left then a.bulk + 1 else 0⟩
    let mark (x : MtxTx) : MtxTx :=
      if x.master = t.master ∧ x.id = t.id then { x with granted := true }
      else if !x.granted && s.txTarget x == g && x.master != t.master then { x with met := true } else x
    (s.lockStep t).onFar (fun f => { f with txs := f.txs.map mark, arbs := Tbl.insert f.arbs g b })

/-- Every idle target grants its next request. -/
def State.mtxGrants (s : State) : State := (List.range 12).foldl State.mtxGrant s

/-- A transaction that its target serves: a granted one, or a critical one that takes the target between the beats of a bulk
write (R398). -/
def State.txServed (s : State) (t : MtxTx) : Bool :=
  let g := s.txTarget t
  t.granted || (s.critical t && (s.lockOf g).all (fun l => l.master == t.master) &&
    s.far.txs.any (fun x => x.granted && s.txTarget x == g && x.write && !s.critical x))

/-! Issue -/

/-- A burst that a master can issue: 1 to 16 beats inside one 512-byte block, its master not isolated, its ID free
(R395, R402). -/
def State.txOk (s : State) (t : MtxTx) : Bool :=
  decide (1 ≤ t.len) && t.far / 512 == (t.far + t.len - 1) / 512 && !s.isolated t.master &&
    s.far.txs.all (fun x => !(x.master == t.master && x.id == t.id))

/-- A master issues a transaction. -/
def State.txIssue (s : State) (t : MtxTx) : State :=
  if !s.txOk t then s
  else if t.locked && !s.lockable t then s.mtxRecord respLock t.master (s.txTarget t) t.far t.write
  else
    let g := s.txTarget t
    let met := s.far.txs.any (fun x => s.txTarget x == g && x.master != t.master && x.granted)
    (s.onFar (fun f => { f with txs := f.txs ++ [{ t with met := met }] })).mtxGrant g

/-- MATRIX_TRANSACTION. -/
def execMatrixTransaction (m : Fin 23) (id : Fin 8) (write locked bar2 : Bool) (addr : BitVec 40) (len : Fin 513)
    (data : List (Option Byte)) (s : State) : Host.Outcome State Fault Refusal :=
  .next (s.txIssue ⟨m.val, id.val, write, addr.toNat, if write then data.length else len.val, if write then data else [],
    locked, bar2 && m.val == mHostDma, false, false⟩)

/-- MTX_LOCK_BROKEN: the transaction in progress ends with ERR_LOCK and is not performed (R400). -/
def execMtxLockBroken (t : Fin 12) (s : State) : Host.Outcome State Fault Refusal :=
  .next (match s.lockOf t.val with
  | none => s
  | some l =>
    let mine (x : MtxTx) : Bool := x.master == l.master && x.locked && x.granted && s.txTarget x == t.val
    let s' := match (s.far.txs.filter mine).getLast? with
      | none => s
      | some x => (s.mtxRecord respLock x.master t.val x.far x.write).onFar (fun f => { f with txs := f.txs.filter (fun y => y != x) })
    (((s'.unlock t.val).bump MTX_LOCKBRK_CNT.adr).raiseN2 0xE1 l.master t.val 0).mtxGrants)

/-- The effect of a write of MTX_XMRST: its set bits isolate masters (R402). -/
def State.xmrst (s : State) (v : Word) : State :=
  (List.range 23).foldl (fun (s : State) m => if bitOf v m then s.isolate m else s) s

/-- MTX_XMRST. -/
def execMtxXmrst (v : Word) (s : State) : Host.Outcome State Fault Refusal :=
  .next (s.hostWrite MTX_XMRST.adr (fun s => s.xmrst v))

/-- A read of MTX_ERR0 latches MTX_ERR1 (R401). -/
def State.err0Read (s : State) : State := s.setReg MTX_ERR1.adr s.far.err1

/-- MTX_ERR0_READ. -/
def execMtxErr0Read (s : State) : Host.Outcome State Fault Refusal := .next s.err0Read

/-- The registers of the MTX Expert page that refuse values. -/
def State.mtxRegWrite (s : State) (off : Nat) (v : Word) : Option State :=
  if off = MTX_XMRST.adr then some (s.xmrst v)
  else if MTX_XMCFG.adr 0 ≤ off ∧ off ≤ MTX_XMCFG.adr 22 then some (if bitsOf v 3 0 = 0 then s else s.plainWrite off v)
  else if MTX_PARK.adr 0 ≤ off ∧ off ≤ MTX_PARK.adr 11 then
    some (if 23 ≤ bitsOf v 4 0 ∧ bitsOf v 4 0 ≤ 30 then s else s.plainWrite off v)
  else if off = MTX_XBULK.adr then some (if bitsOf v 7 0 = 0 then s else s.plainWrite off v)
  else none

/-! Yard power (R405) -/

/-- Banks in a power state. -/
def State.banksIn (s : State) (p : Nat) : Nat := ((List.range 64).filter (fun b => s.bankPwr b == p)).length

/-- YARD_STAT shows how many banks are in each state. -/
def State.showBanks (s : State) : State :=
  ((s.setFld YARD_STAT.ON (s.banksIn 0)).setFld YARD_STAT.RET (s.banksIn 1)).setFld YARD_STAT.OFF (s.banksIn 2)

/-- The bytes of a bank are lost. -/
def State.clearBank (s : State) (b : Nat) : State :=
  s.onFar (fun f => { f with yard := f.yard.filter (fun p => p.1 / 0x80000 != b) })

/-- A power state is written for bank `b`. -/
def State.bankWrite (s : State) (b p : Nat) : State :=
  let old := s.bankPwr b
  let put (s : State) : State :=
    s.setReg (YARD_XPWR.adr (b / 16)) (setBits (s.reg (YARD_XPWR.adr (b / 16))) (2 * (b % 16) + 1) (2 * (b % 16)) p)
  let sleep (s : State) : State := s.onFar (fun f => { f with waking := f.waking.filter (fun x => x != b) })
  if p = 3 ∨ p = old ∨ (p = 1 ∧ old = 2) then s
  else if p = 0 then (put s).onFar (fun f => { f with waking := f.waking ++ [b] })
  else if p = 1 then sleep (put s)
  else (sleep (put s)).clearBank b

/-- A write of YARD_XPWRw. -/
def State.xpwrWrite (s : State) (w : Nat) (v : Word) : State :=
  ((List.range 16).foldl (fun (s : State) k => s.bankWrite (16 * w + k) (bitsOf v (2 * k + 1) (2 * k))) s).showBanks

/-- YARD_XPWR_WRITE. -/
def execYardXpwrWrite (w : Fin 4) (v : Word) (s : State) : Host.Outcome State Fault Refusal :=
  .next (s.hostWrite (YARD_XPWR.adr w.val) (fun s => s.xpwrWrite w.val v))

/-- YARD_SLEEP drives the power state of every bank. -/
def State.driveSleep (s : State) : State :=
  ((List.range 64).foldl (fun (s : State) b => s.bankWrite b (b2n (bitOf (s.reg YARD_SLEEP.adr) (b / 8)))) s).showBanks

/-- YARD_BANK_READY. -/
def execYardBankReady (b : Fin 64) (s : State) : Host.Outcome State Fault Refusal :=
  .next (s.onFar (fun f => { f with waking := f.waking.filter (fun x => x != b.val) }))

/-- YARD_STAT.CRUISE follows YARD_XCRUISE.EN. -/
def State.showCruise (s : State) : State := s.setFld YARD_STAT.CRUISE (s.fld YARD_XCRUISE.EN)

/-- The yard's registers with effects: YARD_SLEEP, YARD_XPWR, YARD_XCRUISE. -/
def State.yardRegWrite (s : State) (off : Nat) (v : Word) : Option State :=
  if off = YARD_SLEEP.adr then some (s.plainWrite off v).driveSleep
  else if YARD_XPWR.adr 0 ≤ off ∧ off ≤ YARD_XPWR.adr 3 then some (s.xpwrWrite ((off - YARD_XPWR.adr 0) / 4) v)
  else if off = YARD_XCRUISE.adr then
    some (if bitsOf v 25 16 = 0 ∨ bitsOf v 15 0 = 0 then s else (s.plainWrite off v).showCruise)
  else none

/-! Cruise (R407-R409) -/

/-- Regions of the yard. -/
def regions : Nat := 131072

/-- The position of a region in YARD_CRPOS after one step. -/
def State.crNext (s : State) (r : Nat) : State :=
  (s.setFld YARD_CRPOS.REGION ((r + 1) % regions)).onFar (fun f => { f with crAbandon := 0 })

/-- The first region at or after `r` in a bank that is ON, skipping whole banks. -/
def State.crSkip (s : State) : Nat → Nat → Option Nat
  | 0, _ => none
  | n + 1, r => if s.bankPwr (r / 2048) = 0 then some r else s.crSkip n ((r / 2048 + 1) * 2048 % regions)

/-- One step at region `r`. -/
def State.cruise (s : State) (r : Nat) (res : CruiseRes) : State :=
  let a := 256 * r
  let b := r / 2048
  match res with
  | .ok => s.crNext r
  | .collide =>
    let s := s.bump YARD_CRRETRY_CNT.adr
    if 3 ≤ s.far.crAbandon then (s.bump YARD_CRSKIP_CNT.adr).crNext r
    else s.onFar (fun f => { f with crAbandon := f.crAbandon + 1 })
  | .unc => (((s.bump YARD_UNC_CNT.adr).noteErr (17 + b / 8) 1).raiseN2 0xE6 mCruise a 0).crNext r
  | .fail => ((s.bump YARD_CRFAIL_CNT.adr).raiseN2 0xE7 b b a).crNext r

/-- CRUISE_STEP. -/
def execCruiseStep (res : CruiseRes) (s : State) : Host.Outcome State Fault Refusal :=
  .next (
    if s.mode = 0 ∨ !s.flag YARD_XCRUISE.EN ∨ s.isolated mCruise then s
    else
      let p := s.fld YARD_CRPOS.REGION
      match s.crSkip 65 p with
      | none => s
      | some r =>
        let s := if r = p then s else (s.setFld YARD_CRPOS.REGION r).onFar (fun f => { f with crAbandon := 0 })
        s.cruise r res)

/-! SDRAM channels (R410-R414) -/

/-- Sets a channel's state. -/
def State.setSdr (s : State) (c st : Nat) : State := if c = 0 then s.setFld SDR_STAT.ST0 st else s.setFld SDR_STAT.ST1 st

/-- A READY channel fails (R414). -/
def State.sdrFail (s : State) (c : Nat) : State := if s.sdrState c = sdrReady then (s.setSdr c sdrFailed).safeCause 3 else s

/-- SDR_CHANNEL_FAIL. -/
def execSdrChannelFail (c : Fin 2) (s : State) : Host.Outcome State Fault Refusal := .next (s.sdrFail c.val)

/-- An uncorrectable error of a channel, counted in its 1 s window (R414). -/
def State.sdrUnc (s : State) (c : Nat) : State :=
  let n := Tbl.get (fun _ => 0) s.far.ue c + 1
  let s := s.onFar (fun f => { f with ue := Tbl.put (fun _ => 0) f.ue c n })
  if s.fld SDR_XCFG.UEMAX < n then s.sdrFail c else s

/-- Channels of a mask. -/
def chans (m : Nat) : List Nat := (List.range 2).filter (fun c => m / 2 ^ c % 2 == 1)

/-- Where SDRAM offset `o` lies: channel and offset in it (R411). -/
def State.sdrPlace (s : State) (o : Nat) : Nat × Nat :=
  let c := s.sdrChan o
  if s.sdrSplit then (c, o / 1024 * 512 + o % 512) else (c, if c = 0 then o else o - s.sdrRange 0)

/-- The SDRAM offset of a place. -/
def State.sdrOffset (s : State) (p : Nat × Nat) : Nat :=
  if s.sdrSplit then p.2 / 512 * 1024 + 512 * p.1 + p.2 % 512 else if p.1 = 0 then p.2 else s.sdrRange 0 + p.2

/-- The contents of the SDRAM stay in their channels while the map changes from that of `old`. -/
def State.sdrRemap (old s : State) : State :=
  s.onFar (fun f => { f with sdr := f.sdr.foldl (fun m p => Memory.write m (s.sdrOffset (old.sdrPlace p.1)) p.2) [] })

/-- Training of the channels of a mask starts. -/
def State.sdrStart (s : State) (mask : Nat) : State :=
  State.sdrRemap s ((chans mask).foldl (fun (s : State) c => s.setSdr c sdrTraining) s)

/-- SDR_TRAIN (R390, R412): a mask of 0 or one that names an ABSENT channel is BAD_ARG. -/
def State.sdrTrainCmd (s : State) (c : Ctx) : State :=
  let m := c.abits 0 1 0
  if m = 0 ∨ (chans m).any (fun k => s.sdrState k == sdrAbsent) then s.single c stBadArg 0 0
  else if s.far.train.isSome then s.single c stBusy 0 0
  else ((s.accept c s.sidx 0 false 0).sdrStart m).onFar (fun f => { f with train := some (c.handle, m, 0, 0) })

def execSdrTrain (src : Fin 128) (tag : Word) (args : List Word) (s : State) : Host.Outcome State Fault Refusal :=
  .next (s.runCmd src.val 0x0901 false tag args State.sdrTrainCmd)

/-- The contents of an SDRAM channel after training: not preserved (R412). -/
def State.sdrLose (s : State) (c : Nat) : State :=
  s.onFar (fun f => { f with sdr := f.sdr.filter (fun p => s.sdrChan p.1 != c) })

/-- Training of channel `c` ends. -/
def State.sdrTrained (s : State) (c : Nat) (ok : Bool) : State :=
  let s := s.sdrLose c
  if ok then (State.sdrRemap s (s.setSdr c sdrReady)).raise 0xE8 c 0 0 else (State.sdrRemap s (s.setSdr c sdrFailed)).raise 0xE9 c 0 0

/-- ECC and INTLV come into force at a training that covers both channels (R411, R412). -/
def State.sdrForce (s : State) (mask : Nat) : State :=
  if mask = 3 then
    (s.setFld SDR_STAT.ECC (s.fld SDR_XCFG.ECC)).setFld SDR_STAT.INTLV (s.fld SDR_XCFG.INTLV)
  else s

/-- SDR_TRAINING_END: a channel of the SDR_TRAIN in progress; with the last one the command completes. -/
def execSdrTrainingEnd (c : Fin 2) (ok : Bool) (s : State) : Host.Outcome State Fault Refusal :=
  .next (match s.far.train with
  | none => s
  | some (h, mask, done, good) =>
    if c.val ∉ chans mask ∨ c.val ∈ chans done then s
    else
      let s := s.sdrTrained c.val ok
      let done := done + 2 ^ c.val
      let good := good + (if ok then 2 ^ c.val else 0)
      if done = mask then
        let s := (s.sdrForce mask).onFar (fun f => { f with train := none })
        s.finish h (if good = mask then stOk else stHwFault) good 0
      else s.onFar (fun f => { f with train := some (h, mask, done, good) }))

/-- SDR_CTL and SDR_XCFG: writable in SETUP and SERVICE; UEMAX 0 leaves the register unchanged. -/
def State.sdrRegWrite (s : State) (off : Nat) (v : Word) : Option State :=
  if off = SDR_CTL.adr then
    some (if s.mode = 1 ∨ s.mode = 4 then
      let s := s.plainWrite off v
      (s.setFld SDR_XCFG.ECC (s.fld SDR_CTL.ECC)).setFld SDR_XCFG.INTLV (s.fld SDR_CTL.INTLV)
    else s)
  else if off = SDR_XCFG.adr then
    some (if (s.mode = 1 ∨ s.mode = 4) ∧ bitsOf v 31 24 ≠ 0 then s.plainWrite off v else s)
  else none

end Sys2Proof.Machine
end

