-- ==== Sys2Proof/Machine/Pair.lean ====
section
/-! DEFINITION. The pair logic: claims, the interlock, the heartbeat, digests, copies, health and messages (R338-R359). -/

namespace Sys2Proof.Machine

/-- PAIR_CONFIG with cause 1 and the offset (R359). -/
def State.pairRefuse (s : State) (off : Nat) : State := s.pairEvent 0xDE 1 off

/-! Control -/

/-- A chip may be enabled as one of a pair only with NODE_ID/CLAIM_BASE and PAIR_SIDE written (R467). -/
def State.pairFused (s : State) : Bool := s.flag FUSE_NODE.NVALID && s.flag FUSE_NODE.SVALID

/-- A write of PAIR_CTL once it may change the register (R339, R354, R467). -/
def State.pairCtl (s : State) (v : Word) : State :=
  let en := bitOf v 31
  if en != s.pairOn ∧ s.mode ≠ 1 then s.pairRefuse PAIR_CTL.adr
  else if en && !s.pairFused then s.pairRefuse PAIR_CTL.adr
  else if bitOf v 29 ∧ !(s.isStandby && en && s.psync == syncUnsynced) then s.pairRefuse PAIR_CTL.adr
  else
    let was := s.pairOn
    let s := s.setReg PAIR_CTL.adr (setBits (setBits v 29 29 0) 28 6 0)
    let s := if bitOf v 29 then s.onPair (fun p => { p with copyReq := true }) else s
    if en == was then s
    else
      let pin := s.fld PAIR_STAT.ILKPIN
      let gen := s.pairGen
      let s := (s.setReg PAIR_STAT.adr 0).setReg PAIR_PSTAT.adr 0
      let s := ((s.setFld PAIR_STAT.ILKPIN pin).setFld PAIR_STAT.GEN gen).setFld PAIR_STAT.STATEOK (b2n en)
      s.onPair (fun p => { PairSt.reset with log := p.log, stateAt := s.sidx, sentAt := s.sidx })

/-- PAIR_CTL_WRITE. -/
def execPairCtlWrite (v : Word) (s : State) : Host.Outcome State Fault Refusal :=
  .next (s.hostWrite PAIR_CTL.adr (fun s => s.pairCtl v))

/-- PAIR_RESYNC: a write that keeps PAIR_CTL and sets RESYNC. -/
def execPairResync (s : State) : Host.Outcome State Fault Refusal :=
  .next (s.hostWrite PAIR_CTL.adr (fun s => s.pairCtl (setBits (s.reg PAIR_CTL.adr) 29 29 1)))

/-- Writes of the Expert registers with their checks; none for other offsets (R358, R359). -/
def State.pairRegWrite (s : State) (off : Nat) (v : Word) : Option State :=
  if off = PAIR_XCFG.adr then
    some (if bitsOf v 19 12 = 0 ∨ 100 < bitsOf v 19 12 ∨ bitsOf v 7 0 = 0 then s.pairRefuse off
      else s.setReg off (setBits (setBits v 29 20 0) 11 8 0))
  else if off = PAIR_XCOPY.adr then
    let n := bitsOf v 12 0
    some (if (syncCopy1 ≤ s.psync ∧ s.psync ≤ syncCopy3) ∨ n = 0 ∨ 4096 < n ∨ s.raftSlots < bitsOf v 30 16 + n then s.pairRefuse off
      else s.setReg off (setBits v 15 13 0))
  else if PAIR_XGRP.adr 0 ≤ off ∧ off ≤ PAIR_XGRP.adr 15 then
    some (if bitsOf v 15 0 = 0 ∨ 32768 < bitsOf v 15 0 then s.pairRefuse off else s.setReg off v)
  else if PAIR_XREG.adr 0 ≤ off ∧ off < PAIR_XREG.adr 16 then
    let w := (off - PAIR_XREG.adr 0) % 16 / 4
    some (if w = 0 then (if bitsOf v 15 0 = 0 then s.setReg off v else s.pairRefuse off)
      else if w = 1 then s.setReg off (setBits v 31 8 0)
      else if w = 2 then s.setReg off (setBits v 31 16 0) else s)
  else none

/-! Claims and the interlock (R344-R351) -/

/-- A claim is given up. -/
def State.abandonClaim (s : State) : State :=
  let cmd := s.claimPending
  let s := (s.onPair (fun p => { p with claim := .none, driving := false })).setFld PAIR_STAT.ROLE
    (if s.mode = 3 then roleStandby else roleOff)
  (if cmd then s.modeEnd stAborted else s).pairShow

/-- ILK_CHANGE: the pin takes a level (R344, R345). -/
def execIlkChange (high : Bool) (s : State) : Host.Outcome State Fault Refusal :=
  .next (
    let s := s.setFld PAIR_STAT.ILKPIN (b2n high)
    if !s.pairOn then s
    else if high ∧ s.role = roleActive ∧ s.pair.driving then s.ilkFault 1
    else if !high ∧ s.role = roleClaiming ∧ (s.pair.claim = .waiting ∨ s.pair.claim = .atOnce) then s.abandonClaim
    else s)

/-- PAIR_ILK_HIGH_TIMEOUT: ILK has been high for 200 us, and the wait t_w starts. -/
def execPairIlkHighTimeout (s : State) : Host.Outcome State Fault Refusal :=
  .next (if s.pairOn && s.mode == 3 && s.role == roleStandby && s.flag PAIR_STAT.ILKPIN && !s.pair.cfgBad then
    ((s.setFld PAIR_STAT.ROLE roleClaiming).onPair (fun p => { p with claim := .waiting, claimAt := s.sidx })).pairShow
  else s)

/-- The wait t_w in microseconds (R342). -/
def State.claimWait (s : State) : Nat := 5 * ((65535 - s.claimNow) / 256)

/-- PAIR_CLAIM_WAIT_END: the wait has ended; the chip pulls ILK and checks its read-back, `high` if the pin stays high. -/
def execPairClaimWaitEnd (high : Bool) (s : State) : Host.Outcome State Fault Refusal :=
  let ready := match s.pair.claim with
    | .waiting => decide (s.claimWait * s.fs ≤ (s.sidx + 1 - s.pair.claimAt) * 1000000)
    | .atOnce => true
    | _ => false
  .next (if s.pairOn && s.role == roleClaiming && ready then
    if high then (s.ilkFault 1).abandonClaim
    else (s.setFld PAIR_STAT.ILKPIN 0).onPair (fun p => { p with claim := .confirmed, driving := true, claimAt := s.sidx })
  else s)

/-- PAIR_ACTIVE: at a block boundary a claim takes effect (R348, R349). -/
def State.takeover (s : State) : State :=
  let old := s.mode
  let standby := s.isStandby
  let driving := s.pair.driving
  let sync := s.psync
  let s := if standby then s.bump PAIR_TAKEOVER_CNT.adr else s
  let s := if s.glb.modePend.any (fun p => p.target == 2) then
      s.onGlb (fun g => { g with modePend := g.modePend.map (fun p => { p with changedAt := some s.sidx, prev := old }) }) else s
  let drv := s.flag PAIR_XCFG.TDMDRV
  let s := ((s.enterMode 2 64).modeEvent 2 old).becomeActive driving
  let s := s.pairEvent 0xD0 0 0
  if !standby then s
  else if sync = syncSynced then
    if drv then s else { s with out := { s.out with hot := ⟨true, s.sidx, 64, curveEqp, 0⟩ } }
  else ({ s with out := { s.out with cold := ⟨true, s.sidx, 2048, curveLin, 0⟩ } }).pairEvent 0xD9 0 0

/-- PAIR_ACTIVE. -/
def execPairActive (s : State) : Host.Outcome State Fault Refusal :=
  .next (if s.atBoundary && s.pairOn && s.role == roleClaiming && decide (s.pair.claimAt < s.sidx) &&
      (s.pair.claim == .confirmed || s.pair.claim == .forced) then
    if s.isStandby && !s.flag PAIR_STAT.STATEOK then (s.pairEvent 0xDA 0 0).enterSafe 5 else s.takeover
  else s)

/-- PAIR_ILK_TEST_PULSE: the active chip releases its strobe for 10 us, or the standby expects the announced pulse; the
pin rose and fell again as it should, or not (R345). -/
def execPairIlkTestPulse (rose fell : Bool) (s : State) : Host.Outcome State Fault Refusal :=
  .next (if !s.pairOn then s
  else if s.role = roleActive ∧ s.pair.driving ∧ s.pair.pulseAt + s.pulsePeriod ≤ s.sidx then
    let s := s.onPair (fun p => { p with pulseAt := s.sidx })
    if rose && fell then (s.onPair (fun p => { p with pulseSeen := true })).pairShow else s.ilkFault 2
  else if s.isStandby && decide (∃ n ∈ s.pair.expect, n ≤ s.sidx) then
    let s := s.onPair (fun p => { p with expect := none })
    if rose && fell then (s.onPair (fun p => { p with pulseSeen := true, missed := 0 })).pairShow
    else
      let n := s.pair.missed + 1
      let s := s.onPair (fun p => { p with missed := n, pulseSeen := false })
      if 2 ≤ n then s.ilkFault 3 else s
  else s)

/-- ILK_STUCK_LOW_TIMEOUT: a standby has seen ILK low for 3 ms while the heartbeat shows class 2 or below (R345). -/
def execIlkStuckLowTimeout (s : State) : Host.Outcome State Fault Refusal :=
  .next (if s.pairOn && s.isStandby && !s.flag PAIR_STAT.ILKPIN && s.flag PAIR_STAT.HBOK && decide (s.fld PAIR_PSTAT.HBCLASS ≤ 2) &&
      !s.pair.driving then s.ilkFault 2 else s)

/-- An active chip learns that its partner is active with claim `c`: ILK is UNVERIFIED, and the lower claim goes to SAFE
(R351). -/
def State.splitCheck (s : State) (c : Nat) : State :=
  if s.role ≠ roleActive then s
  else
    let s := (s.setFld PAIR_STAT.ILKV 0).onPair (fun p => { p with pulseSeen := false })
    let leaving := s.glb.safePend.any (fun p => p.1 == 4)
    let s := if s.claimNow < c && !leaving then (s.pairEvent 0xDB 0 c).safeCause 4 else s
    s.pairShow

/-- PAIR_WATCHDOG_LAPSE: the strobe releases ILK, and HB_OUT stays low (R343, R346). -/
def execPairWatchdogLapse (s : State) : Host.Outcome State Fault Refusal :=
  .next ((s.noteErr 16 1).onPair (fun p => { p with lapsed := true, driving := false }))

/-! Heartbeat (R346) -/

/-- The class that a high time shows: 200 us for each class and one more, within 50 us. -/
def hbClass (high : Nat) : Option Nat :=
  (List.range 4).find? (fun c => decide (200 * (c + 1) ≤ high + 50 ∧ high ≤ 200 * (c + 1) + 50))

/-- HB_IN_PERIOD: a period and its high time, in microseconds. -/
def execHbInPeriod (period : BitVec 16) (high : BitVec 16) (s : State) : Host.Outcome State Fault Refusal :=
  .next (if !s.pairOn then s
  else match (if 950 ≤ period.toNat ∧ period.toNat ≤ 1050 then hbClass high.toNat else none) with
  | some c =>
    let s := (s.setFld PAIR_PSTAT.HBCLASS c).onPair (fun p => { p with hbGood := min 3 (p.hbGood + 1), hbBad := 0 })
    if c = 3 ∧ !s.flag PAIR_PSTAT.MSGOK then s.splitCheck (0xC000 + s.fld PAIR_PSTAT.CLAIM % 2 ^ 14) else s
  | none => s.onPair (fun p => { p with hbGood := 0, hbBad := min 3 (p.hbBad + 1) }))

/-- PAIR_HB_LOST: no rising edge for 3 ms (`absent`), or three periods out of limits. -/
def execPairHbLost (absent : Bool) (s : State) : Host.Outcome State Fault Refusal :=
  .next (if s.flag PAIR_STAT.HBOK && (absent || s.pair.hbBad == 3) then
    (((s.setFld PAIR_STAT.HBOK 0).onPair (fun p => { p with hbGood := 0 })).pairEvent 0xD2 0 0).bump PAIR_HBLOSS_CNT.adr
  else s)

/-- PAIR_HB_RESTORED: after three good periods. -/
def execPairHbRestored (s : State) : Host.Outcome State Fault Refusal :=
  .next (if s.pairOn && !s.flag PAIR_STAT.HBOK && s.pair.hbGood == 3 then (s.setFld PAIR_STAT.HBOK 1).pairEvent 0xD3 0 0 else s)

/-- The ball ACT_OUT (R338), and the high time of HB_OUT in microseconds; 0 while it is held low (R346). -/
def State.actOut (s : State) : Bool := s.pairOn && s.role == roleActive && s.mode != 0
def State.hbHigh (s : State) : Nat :=
  if s.mode = 0 ∨ !s.pairOn ∨ s.pair.lapsed then 0 else 200 * (s.fld PAIR_STAT.CLASS + 1)

/-! Digests (R352, R353) -/

/-- One byte into a reflected CRC-32. -/
def crc32Byte (c b : Nat) : Nat :=
  (List.range 8).foldl (fun c _ => if c % 2 = 1 then Nat.xor (c / 2) 0xEDB88320 else c / 2) (Nat.xor c b)

/-- `n` bytes of a number, least significant first, into a CRC-32. -/
def crc32Le (n c v : Nat) : Nat := (List.range n).foldl (fun c i => crc32Byte c (v / 256 ^ i % 256)) c

/-- First sink and number of sinks of digest group `g`, if enabled. -/
def State.digGroup (s : State) (g : Nat) : Option (Nat × Nat) :=
  let w := s.reg (PAIR_XGRP.adr g)
  if bitOf w 31 then some (bitsOf w 30 16, bitsOf w 15 0) else none

/-- Owned sinks in ascending order. -/
def State.ownedSinks (s : State) : List Nat :=
  s.regs.filterMap (fun p => if 0x280000 ≤ p.1 ∧ p.1 < 0x2A0000 ∧ bitOf p.2 31 then some ((p.1 - 0x280000) / 4) else none)

/-- The words of the sample that ends go into the groups' CRCs; the state is the one before the outputs close. A block that had
begun when the pair was enabled has no digest. -/
def State.pairSample (s : State) : State :=
  if !s.pairOn || (s.pair.crc.isEmpty && s.sidx % s.nb != 0) then s
  else
    let ws := s.ownedSinks.map (fun a => (a, ofSigned 40 (if isOutSink a then (s.outWord a).conv else wordOf s.lnd.snk a)))
    let crc := (List.range 16).map (fun g =>
      let c := s.pair.crc.getD g 0xFFFFFFFF
      match s.digGroup g with
      | none => c
      | some (f, n) => ws.foldl (fun c p => if f ≤ p.1 ∧ p.1 < f + n then crc32Le 5 c p.2 else c) c)
    s.onPair (fun p => { p with crc := crc })

/-- The digests of a block: group CRCs, and the block digest over them. -/
def State.blockDigest (s : State) : Nat × List (Nat × Nat) :=
  let gs := (List.range 16).filterMap (fun g =>
    (s.digGroup g).map (fun _ => (g, Nat.xor (s.pair.crc.getD g 0xFFFFFFFF) 0xFFFFFFFF)))
  (Nat.xor (gs.foldl (fun c p => crc32Le 4 c p.2) 0xFFFFFFFF) 0xFFFFFFFF, gs)

/-- The own digests of the block whose index ends in `b`. -/
def State.ownDigest (s : State) (b : Nat) : Option (Nat × Nat × List (Nat × Nat)) :=
  s.pair.own.find? (fun o => o.1 % 2 ^ 14 == b)

/-- Bits of a message. -/
def msgBits (m : BitVec 54) (hi lo : Nat) : Nat := m.toNat / 2 ^ lo % 2 ^ (hi + 1 - lo)

/-- A block has been compared, or its partner digest is missing. -/
def State.digestBad (s : State) (b : Nat) : State :=
  (s.setFld PAIR_STAT.RUN 0).onPair (fun p => { p with got := (b :: p.got).take 32, lost := true })

/-- PAIR_DIGEST_RX. -/
def execPairDigestRx (m : BitVec 54) (s : State) : Host.Outcome State Fault Refusal :=
  .next (if !s.pairOn ∨ msgBits m 53 50 ≠ 1 then s
  else match s.ownDigest (msgBits m 49 36) with
  | none => s
  | some (b, d, gs) =>
    if s.pair.got.contains b then s
    else if d = msgBits m 31 0 ∧ gs.length = msgBits m 35 32 + 1 then
      (s.setFld PAIR_STAT.RUN (min 8191 (s.fld PAIR_STAT.RUN + 1))).onPair (fun p => { p with got := (b :: p.got).take 32 })
    else
      let s := ((s.digestBad b).bump PAIR_MISMATCH_CNT.adr).pairEvent 0xD6 0 b
      let s := (s.onPair (fun p => { p with differ := (b :: p.differ).take 16 })).setReg PAIR_DIGMASK.adr 0
      gs.foldl (fun s g => s.pairSend 0 (3 * 2 ^ 50 + b % 2 ^ 14 * 2 ^ 36 + g.1 * 2 ^ 32 + g.2)) s)

/-- PAIR_GRPDIG_RX: a group of a differing block is compared. -/
def execPairGrpdigRx (m : BitVec 54) (s : State) : Host.Outcome State Fault Refusal :=
  .next (if !s.pairOn ∨ msgBits m 53 50 ≠ 3 then s
  else match s.ownDigest (msgBits m 49 36) with
  | none => s
  | some (b, _, gs) =>
    let g := msgBits m 35 32
    if s.pair.differ.contains b && gs.any (fun p => p.1 == g && p.2 != msgBits m 31 0) then
      s.setReg PAIR_DIGMASK.adr (setBits (s.reg PAIR_DIGMASK.adr) g g 1)
    else s)

/-- PAIR_MISSING_DIGEST: the partner's digest of block b has not come by tick (b + 9) x NB. -/
def execPairMissingDigest (s : State) : Host.Outcome State Fault Refusal :=
  let b := s.sidx / s.nb - 9
  .next (if s.pairOn && s.atBoundary && decide (9 ≤ s.sidx / s.nb) && s.pair.own.any (fun o => o.1 == b) && !s.pair.got.contains b then
    (s.digestBad b).bump PAIR_MISSING_CNT.adr
  else s)

/-! Messages (R339, R345, R351, R354, R358) -/

/-- An active partner's STATE announces its next test pulse by the low bits of its sample: it counts where that pulse falls within
the coming two blocks (R345: announced one block ahead; DEDUCED, log entry 64). -/
def State.expectPulse (s : State) (low : Nat) : State :=
  let n := s.sidx + (low + 65536 - s.sidx % 65536) % 65536
  if n < s.sidx + 2 * s.nb then s.onPair (fun p => { p with expect := some n }) else s

/-- PAIR_STATE_RX: STATE, with the partner's PAIR_SIDE and whether its digest groups equal this chip's. -/
def execPairStateRx (m : BitVec 54) (side : Bool) (groups : Bool) (s : State) : Host.Outcome State Fault Refusal :=
  .next (if !s.pairOn ∨ msgBits m 53 50 ≠ 2 then s
  else
    let claim := msgBits m 49 34
    let s := ((s.setFld PAIR_PSTAT.CLAIM claim).setFld PAIR_PSTAT.GEN (msgBits m 33 26)).setFld PAIR_PSTAT.SYNC (msgBits m 25 23)
    let s := (s.setFld PAIR_PSTAT.MSGOK 1).onPair (fun p => { p with stateAt := s.sidx })
    let bad := if side = s.flag FUSE_NODE.SIDE ∨ claim / 256 % 64 = s.fld FUSE_NODE.NODE / 256 % 64 then 2
      else if msgBits m 18 16 ≠ s.fld GLB_RATE.RATE ∨ msgBits m 20 19 ≠ s.fld GLB_RATE.NB ∨ !groups then 3 else 0
    let s := if s.pair.checked then s
      else
        let s := s.onPair (fun p => { p with checked := true, cfgBad := bad != 0 })
        if bad = 0 then s
        else
          let s := s.pairEvent 0xDE bad 0
          if s.role = roleClaiming then s.abandonClaim else s
    let s := if 0xC000 ≤ claim then s.expectPulse (msgBits m 15 0) else s
    let s := if msgBits m 21 21 = 1 ∧ s.pair.pulseSeen ∧ !s.flag PAIR_STAT.ILKV then
        (((s.setFld PAIR_STAT.ILKV 1).onPair (fun p => { p with faultRaised := false })).pairEvent 0xD5 0 0).pairShow
      else s
    if 0xC000 ≤ claim then s.splitCheck claim else s)

/-- PAIR_COPYCTL_RX: a request to the active chip, or the end or abort of a phase to the standby; an older GEN counts for
nothing. -/
def execPairCopyctlRx (m : BitVec 54) (s : State) : Host.Outcome State Fault Refusal :=
  let phase := msgBits m 49 48
  let gen := msgBits m 47 40
  let kind := msgBits m 39 38
  .next (if !s.pairOn ∨ msgBits m 53 50 ≠ 4 then s
  else if kind = 0 then (if s.role = roleActive then s.onPair (fun p => { p with serve := some (phase, gen) }) else s)
  else if s.role = roleActive then
    (if kind = 2 ∧ s.pair.serve = some (phase, gen) then s.onPair (fun p => { p with serve := none }) else s)
  else if gen ≠ s.pairGen ∨ phase ≠ s.psync then s
  else s.onPair (fun p => { p with copyAt := s.sidx, copyDone := p.copyDone || kind == 1, copyAbort := p.copyAbort || kind == 2 }))

/-- PAIR_MSG_LOST: no STATE for 64 blocks. -/
def execPairMsgLost (s : State) : Host.Outcome State Fault Refusal :=
  .next (if s.pairOn && s.flag PAIR_PSTAT.MSGOK && decide (s.pair.stateAt + 64 * s.nb ≤ s.sidx) then
    (s.setFld PAIR_PSTAT.MSGOK 0).pairEvent 0xDD 0 0
  else s)

/-! Copies (R354-R356) -/

/-- Registers of the tables that phase 1 copies: meters, limiters, side-tone paths, generators. -/
def copyReg (off : Nat) : Bool :=
  (0x250000 ≤ off && off < 0x254000) || (0x390000 ≤ off && off < 0x394000) || (0x380400 ≤ off && off < 0x380440) ||
  (0x200200 ≤ off && off < 0x200300)

/-- An item of phase 1 is applied. A kerf goes on from its elapsed count. -/
def State.copyItem1 (s : State) (it : CopyItem) : State :=
  match it with
  | .reg off v =>
    if !copyReg off.toNat then s
    else
      let s := s.setReg off.toNat v
      let n := (off.toNat - ST_XPATH.adr 0) / 4
      if 0x380400 ≤ off.toNat && off.toNat < 0x380440 && bitOf v 31 then
        let p := s.pathOf n
        s.setPath n { p with heard := v, switching := false, kerf := { p.kerf with busy := false, start := pathGain v, tgt := pathGain v } }
      else s
  | .kps e i start tgt busy kend curve fmt span elapsed =>
    let k : KSt := { KSt.reset with s0 := s.sidx - elapsed.val, busy := busy, start := start, tgt := tgt, curve := curve.val,
                                    span := span.val, kend := kend, fmt := fmt.val }
    let x := s.engOf e
    s.setEng e ((x.setRec i [k]).setKps i (kpsFromRec [k] x.bidx s.nb))
  | .route i cfg src kerf =>
    let old := s.sinkOf i
    let s := ((s.dropKerf i).setReg (LND_RT_CFG.adr i) cfg).setInForce i src.toNat
    let s := match kerf with
      | none => s
      | some (dst, curve, span, elapsed) =>
        (s.setInForce i silence).setKerf i
          { s := s.sidx - elapsed.val, span := span.val, curve := curve.val, arr := dst.toNat, arrFrozen := 0,
            leave := if src.toNat = silence then [] else [(src.toNat, fx1)], src0 := src.toNat, handle := none,
            applied := s.sidx, held := false }
    let s := if s.reg (LND_SD.adr old) = BitVec.ofNat 32 (2 ^ 31 + i.val) then s.setReg (LND_SD.adr old) 0 else s
    s.showRoute i
  | .sched opcode args idx sys policy =>
    let (s, o) := s.nextOrder
    let k : SchedItem := { handle := 2 ^ 32 + o, opcode := opcode.toNat, args := args, idx := idx.toNat, req := idx.toNat,
                           late := 0, rounding := 0, time := none, sys := sys, policy := policy.val, order := o }
    { s with scn := { s.scn with sched := s.scn.sched ++ [k] } }
  | .armed buf acts commit =>
    let s := ({ s with scn := { s.scn with acts := acts.map (fun (a : Word × Word × Word × Word) => ⟨a.1, a.2.1, a.2.2.1, a.2.2.2⟩) } }).setBuf buf bufArmed
    (match commit with
    | none => s
    | some (idx, sys, policy) =>
      let (s, o) := s.nextOrder
      let k : SceneCommit := { handle := 2 ^ 32 + o, idx := idx.toNat, req := idx.toNat, late := 0, rounding := 0, time := none,
                               sys := sys, policy := policy.val, order := o }
      ({ s with scn := { s.scn with commit := some k } }).setBuf buf bufCommitted)
  | _ => s

/-- An item of phase 2 or 3 is applied: one 8-byte word. -/
def State.copyItem (s : State) (phase : Nat) (it : CopyItem) : State :=
  match it with
  | .dmem e w v =>
    if phase = 2 then
      s.setEng e { s.engOf e with mem := Memory.writeBytes (s.engOf e).mem (0x100000 + 8 * w.val) (leBytes 8 v.toNat) } else s
  | .far a v =>
    if phase = 3 then
      (s.farWrite noCfg mRaftDma (a.toNat / 8 * 8) (leBytes 8 v.toNat)).1 else s
  | i => if phase = 1 then s.copyItem1 i else s

/-- PAIR_COPY_PHASE: at a block boundary a phase has ended, with what the standby takes over of it (the items that it has not itself
changed since they were read, log entry 66), or is aborted: the copy slots fail (`ok` false), the partner has aborted it, or it has
not answered for 64 blocks. -/
def execPairCopyPhase (ok : Bool) (items : List CopyItem) (s : State) : Host.Outcome State Fault Refusal :=
  .next (if !s.pairOn ∨ !s.atBoundary then s
  else if s.role = roleActive then
    match s.pair.serve with
    | some (ph, g) => (s.onPair (fun p => { p with serve := none })).sendCopyCtl ph g (if ok then 1 else 2)
    | none => s
  else
    let ph := s.psync
    let dead := s.pair.copyAbort || decide (s.pair.copyAt + 64 * s.nb ≤ s.sidx)
    if !s.isStandby ∨ ph = 0 ∨ syncCopy3 < ph then s
    else if ok && !dead then
      if !s.pair.copyDone then s
      else
        let s := items.foldl (fun s i => s.copyItem ph i) s
        let s := if ph = 1 then s.setFld PAIR_STAT.STATEOK 1 else s
        if ph = syncCopy3 then
          ((((s.setFld PAIR_STAT.SYNC syncChecking).onPair (fun p => { p with checkAt := s.sidx })).pairEvent 0xDC syncChecking 0)).pairShow
        else s.toPhase (ph + 1)
    else ((s.sendCopyCtl ph s.pairGen 2).pairEvent 0xDC ph 1).toUnsynced)

/-- PAIR_CHECKING_TIMEOUT: 4,096 blocks in CHECKING. -/
def execPairCheckingTimeout (s : State) : Host.Outcome State Fault Refusal :=
  .next (if s.pairOn && s.atBoundary && s.isStandby && s.psync == syncChecking && decide (s.pair.checkAt + 4096 * s.nb ≤ s.sidx) then
    (s.pairEvent 0xD8 0 0).toUnsynced
  else s)

/-! Health (R357) -/

/-- Faults of an item within the last `sec` seconds, of one kind. -/
def State.errsIn (s : State) (item kind sec : Nat) : Nat :=
  (s.pair.log.filter (fun p => p.1 == item && p.2.1 == kind && decide (s.sidx < p.2.2 + sec * s.fs))).length

/-- The score of an item. -/
def State.healthScore (s : State) (i : Nat) : Nat :=
  if i < 16 then
    if s.engState i = engHalted ∧ 1 ≤ s.fld (ENG_STAT.CAUSE i) ∧ s.fld (ENG_STAT.CAUSE i) ≤ 4 then 0
    else
      let tiles := ((List.range 4).filter (fun t => s.fld (ENG_LFAULT.CONFIRMED i) / 16 ^ t % 16 != 0)).length
      100 - 50 * tiles - (if s.errsIn i 0 10 = 0 then 0 else 20) - min 20 (5 * s.errsIn i 1 10)
  else if i = 16 then (if s.errsIn 16 1 60 = 0 then 100 else 50)
  else 100 - min 40 (s.errsIn i 0 10 / 16) - (if s.errsIn i 1 60 = 0 then 0 else 50)

/-- A score of the own chip or the partner falls below HLOW: PAIR_HEALTH_LOW once. -/
def State.healthLow (s : State) (own : Bool) (i v : Nat) : State :=
  let l := if own then s.pair.low else s.pair.plow
  let put (l : List Nat) : State := s.onPair (fun p => if own then { p with low := l } else { p with plow := l })
  if v < s.fld PAIR_XCFG.HLOW then
    (if l.contains i then s else (put (l ++ [i])).pairEvent 0xDF i (b2n own))
  else put (l.filter (fun j => j != i))

/-- PAIR_HEALTH_PUBLISH: the control engine publishes all scores; it has met its watchdog again. -/
def execPairHealthPublish (s : State) : Host.Outcome State Fault Refusal :=
  .next (
    let s := s.onPair (fun p => { p with lapsed := false })
    (List.range 28).foldl (fun s i =>
      let v := s.healthScore i
      let s := s.setReg (PAIR_HLTH.adr i) (BitVec.ofNat 32 v)
      let s := if s.pairOn then s.onPair (fun p => { p with hq := p.hq ++ [i * 2 ^ 48 + v * 2 ^ 41] }) else s
      s.healthLow true i v) s)

/-- PAIR_HEALTH_RX. -/
def execPairHealthRx (m : BitVec 54) (s : State) : Host.Outcome State Fault Refusal :=
  let i := msgBits m 53 48
  let v := msgBits m 47 41
  .next (if !s.pairOn ∨ 28 ≤ i then s
  else (s.setReg (PAIR_PHLTH.adr i) (BitVec.ofNat 32 (2 ^ 31 + v))).healthLow false i v)

/-! The block tick -/

/-- Health messages go out while the token queue has room. -/
def State.sendHealth (s : State) : State :=
  match s.partnerRing with
  | none => s.onPair (fun p => { p with hq := [] })
  | some r =>
    let n := 16 - (s.ring r).tq.length
    let l := s.pair.hq.take n
    l.foldl (fun s d => s.pairSend 1 d) (s.onPair (fun p => { p with hq := p.hq.drop n }))

/-- The block just ended gets its digests, the sync state follows RUN, and STATE goes out every 64 blocks (R352-R354,
R358). -/
def State.pairBlockTick (s : State) : State :=
  if !s.pairOn then s
  else
    let s := if s.pair.crc.isEmpty then s
      else
        let b := s.sidx / s.nb - 1
        let (d, gs) := s.blockDigest
        let s := s.onPair (fun p => { p with crc := [], own := ((b, d, gs) :: p.own).take 16 })
        s.pairSend 0 (2 ^ 50 + b % 2 ^ 14 * 2 ^ 36 + (gs.length - 1) * 2 ^ 32 + d)
    let s := if !s.isStandby then s
      else if s.psync = syncSynced ∧ s.pair.lost then
        (((s.setFld PAIR_STAT.SYNC syncChecking).onPair (fun p => { p with checkAt := s.sidx })).pairEvent 0xD8 0 0).pairShow
      else if s.psync = syncChecking ∧ 256 ≤ s.fld PAIR_STAT.RUN then
        ((s.setFld PAIR_STAT.SYNC syncSynced).pairShow).pairEvent 0xD7 0 0
      else if s.psync = syncUnsynced ∧ (s.pair.copyReq ∨ s.flag PAIR_CTL.AUTORESYNC) then s.startCopy
      else s
    let s := s.onPair (fun p => { p with lost := false, copyReq := false })
    let announce := s.role == roleActive && s.nextPulse / s.nb == s.sidx / s.nb + 1
    let s := if s.pair.sentAt + 64 * s.nb ≤ s.sidx || announce then s.sendState else s
    s.sendHealth

end Sys2Proof.Machine
end

