-- ==== Sys2Proof/Machine/Meters.lean ====
section
/-! DEFINITION. Meters: configuration, detectors, publication and holds (R151-R154). -/

namespace Sys2Proof.Machine

/-- The detectors of meter `m`. -/
def State.meterOf (s : State) (m : Nat) : MeterSt := Tbl.get (fun _ => MeterSt.start 0) s.lnd.meters m
def State.setMeter (s : State) (m : Nat) (x : MeterSt) : State :=
  { s with lnd := { s.lnd with meters := Tbl.put (fun _ => MeterSt.start 0) s.lnd.meters m x } }

/-- Enabled meters. -/
def State.liveMeters (s : State) : List Nat :=
  s.regs.filterMap (fun p => if 0x250000 ≤ p.1 ∧ p.1 < 0x254000 ∧ bitOf p.2 31 then some ((p.1 - 0x250000) / 4) else none)

/-- The one-pole coefficient of a meter's RMS in fixed point: e^(-1 / (time constant x rate)) (R152). -/
def State.rmsPole (s : State) (win : Nat) : Int :=
  fxExp (-(1000 * fx1 / (([300, 100, 35, 1000].getD win 300 * s.fs : Nat) : Int)))

/-- A meter takes the word of one sample; the mean square has 96 fraction bits. Its true-peak detector, that of the limiters,
knows the interval of the word four samples back (R212). -/
def MeterSt.take (x : MeterSt) (pole : Int) (w : Int) : MeterSt :=
  let sq : Int := w * w * ((2 ^ 34 : Nat) : Int)
  let hist := (w :: x.hist).take 12
  { x with peak := max x.peak w.natAbs, tpeak := max x.tpeak (truePeak hist 4), hist := hist,
           ms := (fxMul pole ((x.ms : Nat) : Int) + fxMul (fx1 - pole) sq).toNat }

/-- Meter `m` takes the words of the sample that ends: `srcs` the source words, `snks` the sink words (R152). -/
def State.meterSample (srcs snks : Tbl Int) (s : State) (m : Nat) : State :=
  let w := wordOf (if s.flag (LND_MC.SIDE m) then snks else srcs) (s.fld (LND_MC.ADDR m))
  s.setMeter m ((s.meterOf m).take (s.rmsPole (s.fld (LND_MC.WIN m))) w)

/-- Every enabled meter takes the words of the sample that ends. -/
def State.metersSample (s : State) (srcs snks : Tbl Int) : State := s.liveMeters.foldl (State.meterSample srcs snks) s

/-- A level is at least another; 0x8000 is minus infinity. -/
def levelLe (a b : Nat) : Bool := decide (toSigned 16 a ≤ toSigned 16 b)

/-- Meter `m` publishes the block just ended (R152, R153); TPHOLD keeps the larger value. -/
def State.meterPublish (s : State) (m : Nat) : State :=
  let x := s.meterOf m
  let peak := levelOf 2000 x.peak (2 ^ 31)
  let rms := levelOf 1000 x.ms (2 ^ 96)
  let tp := levelOf 2000 x.tpeak (2 ^ 31)
  let up := levelLe x.hold tp && tp != x.hold
  let hold := if up then tp else x.hold
  let s := (s.setReg (LND_MR.adr m) (BitVec.ofNat 32 (peak * 2 ^ 16 + rms))).setReg (LND_MR.adr m + 4)
    (BitVec.ofNat 32 (tp * 2 ^ 16 + hold))
  s.setMeter m { x with peak := 0, tpeak := 0, hold := hold, holdAt := if up then s.sidx else x.holdAt }

/-- Meters whose hold a write before this boundary has named (R154). -/
def State.clearedMeters (s : State) : List Nat :=
  if s.lnd.clearAll.any (fun n => decide (n < s.sidx)) then s.liveMeters ++ keysOf s.lnd.meters
  else (s.lnd.clear.filter (fun p => decide (p.2 < s.sidx))).map (fun p => p.1)

/-- The holds that were cleared read minus infinity from this boundary on (R154). -/
def State.meterClears (s : State) : State :=
  let t := s.clearedMeters.foldl (fun t m =>
    (t.setMeter m { t.meterOf m with hold := 0x8000, holdAt := s.sidx }).setFld (LND_MR.TPHOLD m) 0x8000) s
  { t with lnd := { t.lnd with clear := s.lnd.clear.filter (fun p => !decide (p.2 < s.sidx)),
                               clearAll := if s.lnd.clearAll.any (fun n => decide (n < s.sidx)) then none else s.lnd.clearAll } }

/-- The meters at a block tick (R153, R154): publication under LND_MSEQ, then the clears. -/
def State.metersTick (s : State) : State :=
  let s := s.liveMeters.foldl State.meterPublish (s.setReg LND_MSEQ.adr (s.reg LND_MSEQ.adr + 1))
  (s.setReg LND_MSEQ.adr (s.reg LND_MSEQ.adr + 1)).meterClears

/-! Commands -/

/-- A value of LND_MC that R142 refuses: its cause, or 0. -/
def State.meterCause (s : State) (v : Word) : Nat := s.addrCause (bitOf v 30) (bitsOf v 14 0)

/-- The effect of a write of LND_MCm (R151). -/
def State.mcWrite (s : State) (m : Nat) (v : Word) : State :=
  if s.meterCause v ≠ 0 then s.lndRefuse 1 (s.meterCause v) m else s.stage (LND_MC.adr m) (v &&& 0xFFF07FFF)

/-- LND_MC_WRITE (R151). -/
def execLndMcWrite (m : Fin 4096) (v : Word) (s : State) : Host.Outcome State Fault Refusal :=
  .next (s.hostWrite (LND_MC.adr m.val) (fun s => s.mcWrite m.val v))

/-- METER_SET once accepted (R150, R151, R388). -/
def State.meterSet (s : State) (c : Ctx) : State :=
  let m := c.abits 0 11 0
  let v := c.arg 1
  if s.meterCause v ≠ 0 then (s.lndRefuse 1 (s.meterCause v) m).single c stBadArg (s.meterCause v) m
  else
    let s := (s.stage (LND_MC.adr m) v).accept c (s.nextBoundary s.sidx) 0 false 0
    { s with lnd := { s.lnd with meterCmds := s.lnd.meterCmds ++ [(m, c.handle)] } }

/-- METER_SET. -/
def execMeterSet (src : Fin 128) (tag : Word) (args : List Word) (s : State) : Host.Outcome State Fault Refusal :=
  .next (s.runCmd src.val 0x0303 false tag args State.meterSet)

/-- METER_RESTART: at a block boundary a meter takes its new configuration and restarts, and its METER_SET commands complete
(R151). -/
def execMeterRestart (m : Fin 4096) (s : State) : Host.Outcome State Fault Refusal :=
  .next (if s.atBoundary && (s.due (LND_MC.adr m)).isSome then
    let t := (s.commitStg (LND_MC.adr m)).setMeter m (MeterSt.start s.sidx)
    let hs := (s.lnd.meterCmds.filter (fun p => p.1 == m.val)).map (fun p => p.2)
    let t := { t with lnd := { t.lnd with meterCmds := s.lnd.meterCmds.filter (fun p => p.1 != m.val) } }
    hs.foldl (fun t h => t.finishAt h s.sidx stOk 0 0) t
  else s)

/-- TPHOLD_EXPIRY: HOLDT after the last maximum the hold takes the current TPEAK (R152). -/
def execTpholdExpiry (m : Fin 4096) (s : State) : Host.Outcome State Fault Refusal :=
  let x := s.meterOf m
  let t := s.fld (LND_MC.HOLDT m)
  .next (if s.flag (LND_MC.EN m) && t != 0 && decide (10 * (s.sidx - x.holdAt) ≥ t * s.fs) then
    (s.setMeter m { x with hold := s.fld (LND_MR.TPEAK m), holdAt := s.sidx }).setFld (LND_MR.TPHOLD m)
      (s.fld (LND_MR.TPEAK m))
  else s)

/-- A write of LND_MCLR or LND_XMCLR (R154). -/
def State.meterClear (s : State) (v : Word) : State :=
  { s with lnd := { s.lnd with
    clearAll := if bitOf v 31 then some s.sidx else s.lnd.clearAll,
    clear := if bitOf v 31 then s.lnd.clear else s.lnd.clear ++ [(bitsOf v 11 0, s.sidx)] } }

/-- LND_MCLR. -/
def execLndMclr (v : Word) (s : State) : Host.Outcome State Fault Refusal :=
  .next (s.hostWrite LND_MCLR.adr (fun s => s.meterClear v))

/-- LND_XMCLR. -/
def execLndXmclr (v : Word) (s : State) : Host.Outcome State Fault Refusal :=
  .next (s.hostWrite LND_XMCLR.adr (fun s => s.meterClear v))

end Sys2Proof.Machine
end

