-- ==== Sys2Proof/Machine/Rate.lean ====
section
/-! DEFINITION. Changes of the internal rate and of the block size (R33-R36). -/

namespace Sys2Proof.Machine

/-- A rate of the family that the crystal sets (GLB_RATE.FAM: 1 for 44.1 kHz). -/
def State.rateOfFamily (s : State) (r : Nat) : Bool := decide (r < 6) && (decide (r % 2 = 0) == s.flag GLB_RATE.FAM)

/-- Route entries enabled, in force or as last written. -/
def State.routeKeys (s : State) : List Nat :=
  (keysOf s.regs ++ keysOf s.stg).filterMap (fun a =>
    if 0x210000 ≤ a ∧ a < 0x250000 ∧ a % 16 = 0 ∧ (bitOf (s.reg a) 31 ∨ bitOf (s.written a) 31) then some a else none)

/-- Every enabled route and meter names addresses that are present with `chans` channels per engine at `rate` (R142). -/
def State.addressesFit (s : State) (chans rate : Nat) : Bool :=
  s.routeKeys.all (fun a => [s.reg a, s.written a].all (fun v => !bitOf v 31 ||
    (addrCauseAt chans rate true (bitsOf v 30 16) == 0 && addrCauseAt chans rate false (bitsOf v 14 0) == 0))) &&
  (keysOf s.regs ++ keysOf s.stg).all (fun a =>
    !decide (0x250000 ≤ a ∧ a < 0x254000) || !bitOf (s.written a) 31 ||
      addrCauseAt chans rate (bitOf (s.written a) 30) (bitsOf (s.written a) 14 0) == 0)

/-- Raft slots and network channels in use fit the capacities of R36 at `rate`. -/
def State.slotsFit (s : State) (rate : Nat) : Bool :=
  (s.slotEntries ++ s.stagedSlots).all (fun t => slotOp t.2.2 == 0 || decide (t.2.1 < 24576 / 2 ^ (rate / 2))) &&
  [false, true].all (fun tx => (s.flowKeys tx).all (fun f =>
    decide (rate < 4) || decide (flBase tx (s.flowLast tx f) + flCh (s.flowLast tx f) ≤ 4096)))

/-- The cause that refuses a GLB_RATE write; 0 none (R33, R65, R142). Where several conditions fail, the first of mode, family,
pending change and capacity is shown: DESIGN CHOICE (log entry 13). -/
def State.rateCause (s : State) (rate nb : Nat) : Nat :=
  if s.mode ≠ 1 ∧ s.mode ≠ 4 then 1
  else if !s.rateOfFamily rate then 2
  else if s.flag GLB_RATE.PENDING then 4
  else if !(s.addressesFit (if nb ≤ 1 then 256 else if nb = 2 then 128 else 64) rate && s.slotsFit rate) then 3
  else 0

/-- The effect of a write of GLB_RATE: refused with RATE_REFUSED, or pending until the first multiple of 64 that lies at
least 64 samples on (R33, R34). RATE_REFUSED carries SOURCE 0, ARG0 the cause and ARG1 the word written: DESIGN CHOICE (log
entry 10). -/
def State.rateWrite (s : State) (v : Word) : State :=
  let rate := bitsOf v 2 0
  let nb := bitsOf v 9 8
  let cause := s.rateCause rate nb
  if cause ≠ 0 then (s.setFld GLB_RATE.REFUSE cause).raiseN2 0x06 0 cause v.toNat
  else
    let s := (s.setFld GLB_RATE.PENDING 1).setFld GLB_RATE.REFUSE 0
    s.onGlb (fun g => { g with ratePend := some (rate, nb, (s.sidx + 127) / 64 * 64) })

/-- GLB_RATE_WRITE. -/
def execGlbRateWrite (v : Word) (s : State) : Host.Outcome State Fault Refusal :=
  .next (s.hostWrite GLB_RATE.adr (fun s => s.rateWrite v))

/-- The record's last state `c`, a kerf in force at sample `n`, ends there at its target (R34): until `n` it runs as it did,
from `n` on the entry holds the target; its kerf-end interrupt is asserted apart (R168). -/
def KSt.endAt (n : Nat) (c : KSt) : List KSt :=
  let held : KSt := { c with s0 := n, busy := false, start := c.tgt, span := 1, kend := false, handle := none, order := 0 }
  if c.s0 < n then [{ c with handle := none, fired := true }, held] else [held]

/-- A gain kerf in force at sample `n` ends there at its target (R34). -/
def KSt.settled (n : Nat) (c : KSt) : KSt :=
  if c.busy && c.inForce n then { c with busy := false, start := c.tgt, handle := none } else c

/-- Every parameter kerf of engine `e` ends, its commands complete, and a kerf with KEND asserts its kerf-end interrupt
(R168, R181). -/
def State.endParams (s : State) (e : Nat) : State :=
  (keysOf (s.engOf e).krec).foldl (fun (s : State) i =>
    let x := s.engOf e
    let l := x.recOf i
    match l.getLast? with
    | some c =>
      if c.busy && c.inForce s.sidx then
        let x := x.setRec i (l.dropLast ++ c.endAt s.sidx)
        let x := if c.kend then { x with ip := x.ip ||| 32 } else x
        (s.setEng e x).opDone c.handle c.s0 stOk 0 0 0
      else s
    | none => s) s

/-- The program crossfade of engine `e` ends at its target. -/
def State.endProg (s : State) (e : Nat) : State :=
  match (s.engOf e).prog with
  | some k =>
    if !k.started then s
    else
      let s := if k.alone then s else s.setEng e ((s.engOf e).toAlone (isCE e) k)
      s.progDone e k
  | none => s

/-- A queued or held route change starts at once as a step, and its command completes (R181). -/
def State.stepWaiting (s : State) (c : RChange) : State :=
  let d := s.sidx - c.applied
  ((s.setInForce c.entry c.src).showRoute c.entry).opDone c.handle s.sidx stOk (min d 65535) (routeD1 c.entry false c.held) d

/-- Every route kerf in flight ends, and every change that waits starts as a step (R34, R181). -/
def State.endRoutes (s : State) : State :=
  let wait := s.lnd.queue ++ s.lnd.held
  let s := (keysOf s.lnd.kerfs).foldl State.endKerf s
  wait.foldl State.stepWaiting { s with lnd := { s.lnd with queue := [], held := [] } }

/-- Every kerf in flight ends at its target: of routes, parameters, programs and side-tone gains. -/
def State.endKerfs (s : State) : State :=
  let s := s.endRoutes
  let s := (List.range 16).foldl State.endParams s
  let s := (List.range 16).foldl State.endProg s
  (List.range 16).foldl (fun (s : State) n =>
    let p := s.pathOf n
    s.setPath n { p with kerf := p.kerf.settled s.sidx }) s

/-- A port is re-examined for synchronism: a bypass in use fades out. -/
def State.resync (s : State) (p : Nat) : State :=
  let x := s.tdmOf p
  if s.tdmSync p = syncNone then s
  else
    let byp := if s.tdmSync p = syncConfirmed then turnFade 0 x.byp false s.sidx else x.byp
    ((s.setTdm p { x with byp := byp, since := none, confirm := none, regain := none }).setFld (TDM_STAT.SYNC p) syncNone).showPhase p x.phase

/-- A rate group restarts acquisition: its line's units have changed, and its channels give zero until it locks again (R34, R250). -/
def State.reacquire (s : State) (g : Nat) : State :=
  if s.gState g = gIdle then s
  else
    let s := s.setGState g gAcquire
    (s.setGrp g { s.grpOf g with fade := none, switch := none, per := 0, pers := [], mems := [], lost := [] }).restartLine g s.sidx

/-- A flow is re-examined for synchronism: it converts or not at the new rate, and starts again with its first word in time (R34,
R294). Words that wait for it have lost their places (DEDUCED, log entry 55). -/
def State.resyncFlow (s : State) (f : Nat) : State :=
  let x := s.rxOf f
  if x.heard.isEmpty then s
  else
    let s := (s.dropWords f).setRx f { x with mem := { (BoomMem.fresh 0 2 f) with leaving := x.mem.leaving }, hist := [], record := none }
    s.setFld (NET_RXS.CONV f) (b2n (s.flConv x.heard))

/-- The change applies (R34, R191, R200); the landing's row of this sample is written again with the new number of channels
(R133). RATE_CHANGED carries SOURCE 0, ARG0 the rate and ARG1 NB: DESIGN CHOICE (log entry
10). -/
def State.rateChange (s : State) (rate nb : Nat) : State :=
  let s := s.endKerfs
  let s := ((s.setFld GLB_RATE.RATE rate).setFld GLB_RATE.NB nb).setFld GLB_RATE.PENDING 0
  let s := s.onGlb (fun g => { g with ratePend := none })
  let s := (List.range 64).foldl State.reacquire s
  let s := ((List.range 32).foldl State.resync s.landingPass).pathsCheck
  let s := (keysOf s.net.rx).foldl State.resyncFlow s
  let s := s.liveMeters.foldl (fun (s : State) m => s.setMeter m (MeterSt.start s.sidx)) s
  s.disarm.abortSched.raiseN2 0x05 0 rate nb

/-- RATE_CHANGED: at the change's sample index. -/
def execRateChanged (s : State) : Host.Outcome State Fault Refusal :=
  .next (match s.glb.ratePend with
    | some (rate, nb, n) => if n ≤ s.sidx ∧ s.sidx % 64 = 0 then s.rateChange rate nb else s
    | none => s)

end Sys2Proof.Machine
end

