-- ==== Sys2Proof/Machine/Boot.lean ====
section
/-! DEFINITION. Reset, the boot ROM and the debug access port (R391, R454-R465, R467, R479, R496). -/

namespace Sys2Proof.Machine

/-- Changes the boot state. -/
def State.onBoot (s : State) (f : BootSt → BootSt) : State := { s with boot := f s.boot }

/-! Reset (R446, R454, R455) -/

/-- The device goes to reset: everything returns to its reset state but the eFuse array, in which a slot whose START bit
has begun to burn is consumed (R470), and what lies outside the device. -/
def State.toReset (s : State) (cause rail mv : Nat) (begun : Bool) : State :=
  let s := match s.fuse.burn with
    | some (_, k, v) => if begun then s.consume k false v else s
    | none => s
  let r := State.reset
  let host := { r.host with hostMem := s.host.hostMem, msixSent := s.host.msixSent, linkUp := s.host.linkUp }
  let t := { r with pending := s.pending, freeCtr := s.freeCtr, host := host, fuse := { r.fuse with arr := s.fuse.arr },
                    glb := { r.glb with porst := true } }
  ((t.setFld GLB_RSTCAUSE.CAUSE cause).setFld GLB_RSTCAUSE.RAIL rail).setFld GLB_RSTCAUSE.MIN mv

/-- PORST_ASSERT: `begun` tells whether the START bit of a burn in progress reads 1. -/
def execPorstAssert (begun : Bool) (s : State) : Host.Outcome State Fault Refusal := .next (s.toReset 1 0 0 begun)

/-! The image checks (R459, R460) -/

/-- A header word. -/
def hdrW (m : BootImg) (i : Nat) : Word := m.header.getD i 0

/-- SDRAM fields in range: a density of 1, 2, 4 or 8 GiB for each channel fitted. -/
def hdrSdrOk (m : BootImg) : Bool :=
  let ok (n : Nat) : Bool := n == 1 || n == 2 || n == 4 || n == 8
  (!bitOf (hdrW m 5) 30 || ok (bitsOf (hdrW m 5) 27 24)) && (!bitOf (hdrW m 5) 31 || ok (bitsOf (hdrW m 5) 23 20))

/-- The fields that cause 3 checks; RATE must lie in the image's own family. -/
def hdrOk (m : BootImg) : Bool :=
  let ilen := (hdrW m 6).toNat
  let dlen := (hdrW m 7).toNat
  let rate := bitsOf (hdrW m 4) 26 24
  (hdrW m 2).toNat == 256 + ilen + dlen + 64 && ilen % 8 == 0 && decide (ilen ≤ 262144) && dlen % 8 == 0 &&
    decide (dlen ≤ 524288) && m.imem.length == ilen && m.dmem.length == dlen && m.header.length == 64 &&
    decide (rate ≤ 5) && (rate % 2 == 0) == bitOf (hdrW m 4) 31 && hdrSdrOk m && bitsOf (hdrW m 4) 30 27 == 0 &&
    bitsOf (hdrW m 4) 23 22 == 0 && bitsOf (hdrW m 4) 19 0 == 0 && bitsOf (hdrW m 5) 15 0 == 0 &&
    (m.header.drop 24).all (fun w => w == 0)

/-- The first check that an image fails, in the order of R460; 0 for none. -/
def State.imageCause (s : State) (m : BootImg) : Nat :=
  if (hdrW m 0).toNat ≠ 0x4D49424F ∨ bitsOf (hdrW m 1) 31 16 ≠ 1 then 2
  else if !hdrOk m then 3
  else if b2n (bitOf (hdrW m 4) 31) ≠ s.fld GLB_RATE.FAM then 4
  else if (s.fuseValue 2).any (fun h => m.keyHash.toNat != h) ∨ !m.sigOk then 5
  else 0

/-! The ROM flow (R463-R465) -/

/-- Bytes loaded into the control engine's local memory. -/
def State.loadCe (s : State) (base : Nat) (bs : List Byte) : State :=
  let x := s.engOf 16
  s.setEng 16 { x with mem := Memory.writeBytes x.mem base bs }

/-- Steps 4 and 5: rates, SDRAM training with the channels of `trained` succeeding, the CE loaded and started. -/
def State.romRun (s : State) (m : BootImg) (trained from_ : Nat) : State :=
  let w4 := hdrW m 4
  let w5 := hdrW m 5
  let s := ((s.setFld GLB_BOOT.STEP 4).setFld GLB_RATE.RATE (bitsOf w4 26 24)).setFld GLB_RATE.NB (bitsOf w4 21 20)
  let s := (s.setFld SDR_CTL.ECC (bitsOf w5 17 17)).setFld SDR_CTL.INTLV (bitsOf w5 16 16)
  let s := (s.setFld SDR_XCFG.ECC (bitsOf w5 17 17)).setFld SDR_XCFG.INTLV (bitsOf w5 16 16)
  let s := (s.setFld SDR_STAT.SIZE0 (if bitOf w5 30 then bitsOf w5 27 24 else 0)).setFld SDR_STAT.SIZE1
    (if bitOf w5 31 then bitsOf w5 23 20 else 0)
  let s := (s.setFld SDR_STAT.ECC (bitsOf w5 17 17)).setFld SDR_STAT.INTLV (bitsOf w5 16 16)
  let s := (List.range 2).foldl (fun (s : State) c =>
    if bitOf w5 (30 + c) then s.sdrTrained c (trained / 2 ^ c % 2 == 1) else s.setSdr c sdrAbsent) s
  let s := (List.range 48).foldl (fun (s : State) n => s.bufRestore (16 + n)) s
  let s := (s.setFld GLB_BOOT.STEP 5).loadCe 0 m.imem
  let s := s.loadCe 0x100000 m.dmem
  let s := s.setEng 16 ((s.engOf 16).started 0)
  let s := (s.setFld (ENG_STAT.STATE 16) engRunning).showPc 16
  s.onBoot (fun b => { b with phase := .ce from_, ivr := bitsOf (hdrW m 1) 15 0, ssid := hdrW m 3 })

/-- An image has failed with `cause`. -/
def State.imageFailed (s : State) (cause : Nat) : State := s.setFld GLB_BOOT.FAIL cause

/-- The flash source has failed: the host is the fall-back of BOOTSEL 10, otherwise the device stays in BOOT (R456). -/
def State.flashFailed (s : State) : State :=
  if s.fld GLB_BOOT.SRC = 2 then
    (s.onBoot (fun b => { b with phase := .host, copyB := none })).raise 0x11 0 (BitVec.ofNat 32 (s.fld GLB_BOOT.FAIL)) 0
  else s.onBoot (fun b => { b with phase := .failed, copyB := none })

/-- Copy B is checked and, if good, run (R457). -/
def State.tryB (s : State) (m : BootImg) (trained : Nat) : State :=
  let c := (s.setFld GLB_BOOT.STEP 3).imageCause m
  let s := (s.setFld GLB_BOOT.STEP 3).onBoot (fun b => { b with copyB := none })
  if c = 0 then s.romRun m trained 1 else (s.imageFailed c).flashFailed

/-- The flash source: copy A, then copy B; none when the flash does not answer (cause 1). -/
def State.tryFlash (s : State) (flash : Option (BootImg × BootImg)) (trained : Nat) : State :=
  match flash with
  | none => ((s.setFld GLB_BOOT.STEP 2).imageFailed 1).flashFailed
  | some (a, b) =>
    let s := s.setFld GLB_BOOT.STEP 3
    let c := s.imageCause a
    if c = 0 then (s.romRun a trained 0).onBoot (fun x => { x with copyB := some (b, trained) })
    else (s.imageFailed c).tryB b trained

/-- Step 1: straps, crystal, fuses; then the boot source (R456-R463). -/
def State.romStart (s : State) (bootsel : Nat) (fam : Option Bool) (flash : Option (BootImg × BootImg)) (trained : Nat) : State :=
  let s := ((s.setFld GLB_BOOT.STEP 1).setFld GLB_BOOT.SRC bootsel).loadFuses
  match fam with
  | none => s.setFld GLB_RSTCAUSE.CAUSE 4
  | some f =>
    let s := s.setFld GLB_RATE.FAM (b2n f)
    let s := match s.sup.resetBy with
      | some (r, _) => { s.raiseN2 0x0A r 1 1 with sup := { s.sup with resetBy := none } }
      | none => s
    if bootsel = 1 then s.onBoot (fun b => { b with phase := .host }) else s.tryFlash flash trained

/-- PORST_RELEASE: the release of PORST_N and of the supervisor's hold. `fam` is what the XCLK measurement finds (none: a
crystal fault; true: the 44.1 kHz family), `flash` its two image copies (none: it does not answer), `trained` the channels
whose training succeeds. With TEST_EN high the boot ROM does not run (R479). The sample counter and
the time are 0 at the release (R39, R325). -/
def execPorstRelease (bootsel : Fin 4) (testEn : Bool) (fam : Option Bool) (flash : Option (BootImg × BootImg))
    (trained : BitVec 2) (s : State) : Host.Outcome State Fault Refusal :=
  .next (if !s.glb.porst ∧ s.boot.phase ≠ .idle then s
  else
    let s := ({ s with sidx := 0, time := ⟨0, 0, 0⟩ } : State).onGlb (fun g => { g with porst := false, testEn := testEn })
    if testEn then s else s.romStart bootsel.val fam flash trained.toNat)

/-- Step 6: the boot mode is entered (R21, R463). -/
def State.bootDone (s : State) (from_ : Nat) : State :=
  let m := if s.fld GLB_BOOT.SRC = 3 then 4 else 1
  let s := (s.setFld GLB_BOOT.STEP 6).setFld GLB_BOOT.IVER s.boot.ivr
  let s := (s.setFld GLB_BOOT.COPYB (b2n (from_ == 1))).setFld GLB_BOOT.FALLBACK (b2n (from_ == 2 && s.fld GLB_BOOT.SRC == 2))
  let cmd := s.boot.cmd
  let s := s.onBoot (fun b => { b with phase := .up, cmd := none, copyB := none, shown := b.ssid })
  (((s.enterMode m 0).modeEvent m 0).roleOfMode m).finishOpt cmd stOk 0 0

/-- CE_READY_REPORT. -/
def execCeReadyReport (s : State) : Host.Outcome State Fault Refusal :=
  .next (match s.boot.phase with
  | .ce f => s.bootDone f
  | _ => s)

/-- BOOT_CE_TIMEOUT: the image fails with cause 7. -/
def execBootCeTimeout (s : State) : Host.Outcome State Fault Refusal :=
  .next (match s.boot.phase with
  | .ce f =>
    let s := (s.imageFailed 7).setFld (ENG_STAT.STATE 16) engStopped
    if f = 2 then
      let cmd := s.boot.cmd
      (s.onBoot (fun b => { b with phase := .host, cmd := none })).finishOpt cmd stBadArg 0 0
    else match s.boot.copyB with
      | some (b, trained) => s.tryB b trained
      | none => s.flashFailed
  | _ => s)

/-- The image that BOOT_IMAGE names in the yard, with what the checks of its key and signature give. -/
def State.yardImage (s : State) (a : Nat) (keyHash : BitVec 256) (sigOk : Bool) : BootImg :=
  let bytes (o n : Nat) : List Byte := Memory.readBytes s.far.yard (a + o) n
  let header := (List.range 64).map (fun i => BitVec.ofNat 32 (leValue (bytes (4 * i) 4)))
  let ilen := min 262144 (header.getD 6 0).toNat
  let dlen := min 524288 (header.getD 7 0).toNat
  ⟨header, bytes 256 ilen, bytes (256 + ilen) dlen, keyHash, sigOk⟩

/-- BOOT_IMAGE (R391, R458): outside the two host sources WRONG_MODE; while an image is in progress BUSY. -/
def State.bootImage (s : State) (keyHash : BitVec 256) (sigOk : Bool) (trained : Nat) (c : Ctx) : State :=
  match s.boot.phase with
  | .ce _ => s.single c stBusy 0 0
  | .host =>
    let a := (c.arg 0).toNat + 2 ^ 32 * (c.arg 1).toNat
    let len := (c.arg 2).toNat
    let s := (s.accept c s.sidx 0 false 0).setFld GLB_BOOT.STEP 3
    let m := s.yardImage a keyHash sigOk
    let bad := decide (0x2000000 < a + len) || (hdrW m 2).toNat != len
    let cause := if s.imageCause m = 2 then 2 else if bad then 3 else s.imageCause m
    if cause ≠ 0 then (s.imageFailed cause).finish c.handle stBadArg 0 0
    else (s.romRun m trained 2).onBoot (fun b => { b with cmd := some c.handle })
  | _ => s.single c stWrongMode 0 0

def execBootImage (src : Fin 128) (tag : Word) (args : List Word) (keyHash : BitVec 256) (sigOk : Bool) (trained : BitVec 2)
    (s : State) : Host.Outcome State Fault Refusal :=
  .next (s.runCmd src.val 0x0104 false tag args (fun s c => s.bootImage keyHash sigOk trained.toNat c))

/-! The debug access port (R79, R467) -/

/-- DEBUG_ACCESS_REQUEST: refused under DEBUG_LOCK; a halt asserts the debug source, a single-step sets ECTL.SSTEP, an
access reads or writes a byte of the engine's local memory. -/
def execDebugAccessRequest (e : Eng) (r : DebugReq) (s : State) : Host.Outcome State Fault Refusal :=
  .next (if s.flag FUSE_STAT.DBGLOCK then s
  else
    let x := s.engOf e
    match r with
    | .halt => s.setEng e { x with ip := x.ip ||| 8 }
    | .sstep => s.setEng e { x with r := { x.r with ectl := setBits x.r.ectl 1 1 1 } }
    | .read _ => s
    | .write a b => s.setEng e { x with mem := Memory.write x.mem a.toNat b })

end Sys2Proof.Machine
end

