-- ==== Sys2Proof/Machine/Supply.lean ====
section
/-! DEFINITION. Supplies, brace, the crystal monitor and thermal protection (R443-R453). -/

namespace Sys2Proof.Machine

/-- Changes the supervisor. -/
def State.onSup (s : State) (f : SupSt → SupSt) : State := { s with sup := f s.sup }

/-- Sets one bit of SUP_STAT. -/
def State.supBit (s : State) (k : Nat) (b : Bool) : State := s.setReg SUP_STAT.adr (setBits (s.reg SUP_STAT.adr) k k (b2n b))

/-- A rail is below its warning threshold. -/
def State.railWarn (s : State) (r : Nat) : Bool := bitOf (s.reg SUP_STAT.adr) (16 + r)

/-! Brace (R447) -/

/-- A rail that brace acts on. -/
def State.braced (s : State) (r : Nat) : Bool := s.flag SUP_XBRACE.EN && bitOf (s.reg SUP_XBRACE.adr) (16 + r)

/-- The brace fade turns, from the sample after the current one; in SAFE it has no effect. -/
def State.braceTurn (s : State) (on : Bool) : State :=
  if s.out.brace.on == on || s.mode == 5 then s
  else { s with out := { s.out with brace := s.out.brace.turn on (s.sidx + 1) (s.fld SUP_XBRACE.SPAN) curveLin } }

/-! Warning, recovery, reset (R445, R446) -/

/-- A rail crosses its warning threshold: a burn in progress ends with SUPPLY (R470; `begun`: its START bit has begun to
burn), and a braced rail starts the fade. -/
def State.supWarn (s : State) (r : Nat) (begun : Bool) : State :=
  if s.railWarn r then s
  else
    let s := ((s.supBit (16 + r) true).raiseN2 0x08 r 1 0).fuseAbort stSupply begun
    if s.braced r then s.braceTurn false else s

/-- SUP_WARN: `over` is a rail above nominal + 8 %. -/
def execSupWarn (r : Fin 14) (passed begun : Bool) (s : State) : Host.Outcome State Fault Refusal :=
  .next (if passed then s.raiseN2 0x08 r.val 2 0 else s.supWarn r.val begun)

/-- SUP_RECOVERED: the minimum in mV and the time below warning in us. -/
def execSupRecovered (r : Fin 14) (mv : BitVec 16) (us : Word) (s : State) : Host.Outcome State Fault Refusal :=
  .next (if !s.railWarn r.val then s
  else
    let s := ((s.supBit (16 + r.val) false).supBit r.val false).bump (SUP_DIP_CNT.adr r.val)
    let s := s.raiseN2 0x09 r.val (r.val * 2 ^ 24 + mv.toNat) us.toNat
    if (List.range 14).any (fun k => s.railWarn k && s.braced k) then s else s.braceTurn true)

/-- Rails whose reset action resets the device (R444). -/
def resetRail (r : Nat) : Bool := r == 0 || r == 1 || r == 2 || r == 8

/-- The ports of a TDM bank enter FAULT with fault 1. -/
def State.bankFault (s : State) (b : Nat) : State :=
  (rangeFrom (8 * b) 8).foldl (fun (s : State) p =>
    if s.tdmState p = tdmAcquire ∨ s.tdmState p = tdmRun then s.tdmEnterFault p 1 else s) s

/-- The block action of a rail. -/
def State.railAction (s : State) (r : Nat) : State :=
  if 3 ≤ r ∧ r ≤ 6 then s.bankFault (r - 3)
  else if r = 7 then s.onDac (fun x => { x with vdda := false })
  else if r = 9 ∨ r = 10 then
    let s := if s.linkUp false then s.dropLink false 1 false else s
    let s := if s.linkUp true then s.dropLink true 1 false else s
    (List.range 4).foldl State.netDown s
  else if r = 11 then s.hostLinkDown
  else if r = 12 ∨ r = 13 then (s.sdrFail 0).sdrFail 1
  else s

/-- SUP_RESET: the minimum in mV; ARG0 is 1 for a device reset, 0 for a block action. -/
def execSupReset (r : Fin 14) (mv : BitVec 16) (begun : Bool) (s : State) : Host.Outcome State Fault Refusal :=
  .next (
    let s := (s.supBit r.val true).raiseN2 0x0A r.val (b2n (resetRail r.val)) 0
    if resetRail r.val then
      { s.toReset 2 r.val mv.toNat begun with sup := { SupSt.reset with resetBy := some (r.val, mv.toNat) } }
    else s.railAction r.val)

/-- SUP_SENSE_MISMATCH: the supervisor uses the on-die reading of the core rail. -/
def execSupSenseMismatch (s : State) : Host.Outcome State Fault Refusal :=
  .next (if s.sup.onDie then s else (s.onSup (fun x => { x with onDie := true })).raiseN2 0x08 0 3 0)

/-- SENSE_READINGS_AGREE. -/
def execSenseReadingsAgree (s : State) : Host.Outcome State Fault Refusal :=
  .next (s.onSup (fun x => { x with onDie := false }))

/-! The crystal (R448, R449) -/

/-- The clock-fault mute turns from sample `n` on. -/
def State.clkTurn (s : State) (on : Bool) (n span : Nat) : State :=
  { s with out := { s.out with clk := s.out.clk.turn on n span curveLin } }

/-- CLK_FAULT. -/
def execClkFault (s : State) : Host.Outcome State Fault Refusal :=
  .next (if s.sup.clkAt.isSome then s
  else (((s.onSup (fun x => { x with clkAt := some s.sidx, clkRet := none })).clkTurn false (s.sidx + 1)
    (s.fld SUP_XBRACE.SPAN))).raiseN2 0x10 0 1 0)

/-- XCLK_RESTORED: the PLLs move back at the next block boundary. -/
def execXclkRestored (s : State) : Host.Outcome State Fault Refusal :=
  .next (match s.sup.clkAt with
  | some n => s.onSup (fun x => { x with clkRet := some ((s.sidx - n) * 1000 / s.fs) })
  | none => s)

/-- The crystal at a block boundary. -/
def State.clkTick (s : State) : State :=
  match s.sup.clkRet with
  | none => s
  | some ms =>
    ((s.onSup (fun x => { x with clkAt := none, clkRet := none })).clkTurn true s.sidx 64).raiseN2 0x10 0 0 ms

/-! Temperature (R450) -/

/-- Insertion of a number into an ascending list. -/
def insertAsc (x : Int) : List Int → List Int
  | [] => [x]
  | y :: t => if x ≤ y then x :: y :: t else y :: insertAsc x t

/-- The median of seven readings. -/
def median (l : List Int) : Int := (l.foldr insertAsc []).getD 3 0

/-- Sensors judged faulty, of eight readings in 0.1 degrees. -/
def sensorBad (l : List Int) (n : Nat) : Bool :=
  let t := l.getD n 0
  let m := median (l.eraseIdx n)
  decide (t < -500) || decide (1500 < t) || decide (200 < t - m) || decide (200 < m - t)

/-- The warning threshold in 0.1 degrees. -/
def State.thmWarn (s : State) : Int := ((s.fld THM_XCFG.WARN * 10 : Nat) : Int)

/-- Sensor readings: temperatures, faulty sensors (THM_WARN cause 2 for each new one), and the maximum of the others. -/
def State.sensors (s : State) (l : List Int) : State × Option Int :=
  let s := (List.range 8).foldl (fun (s : State) n => s.setFld (THM_TEMP.T n) (ofSigned 16 (l.getD n 0))) s
  let old := s.fld THM_STAT.FAULTY
  let bad := (List.range 8).filter (fun n => sensorBad l n)
  let s := s.setFld THM_STAT.FAULTY (bad.foldl (fun m n => m + 2 ^ n) 0)
  let s := bad.foldl (fun (s : State) n => if old / 2 ^ n % 2 = 1 then s else s.raiseN2 0x0B n 2 n) s
  let good := ((List.range 8).filter (fun n => !bad.contains n)).map (fun n => l.getD n 0)
  match good with
  | [] => (s, none)
  | t :: ts => (s.setFld THM_STAT.MAX (ofSigned 16 (ts.foldl max t)), some (ts.foldl max t))

/-- Judging a maximum. -/
def State.judgeTemp (s : State) (t : Int) (begun : Bool) : State :=
  let s := if s.thmWarn ≤ t ∧ !s.flag THM_STAT.WARN then
      ((s.setFld THM_STAT.WARN 1).bump THM_WARN_CNT.adr).raiseN2 0x0B 0 1 (ofSigned 16 t)
    else s
  let n := if 1150 ≤ t then s.sup.hot + 1 else 0
  let s := s.onSup (fun x => { x with hot := n })
  if 1250 ≤ t then (s.raiseN2 0x0C 0 (ofSigned 16 t) 1).toReset 3 0 0 begun
  else if 2 ≤ n ∧ !s.flag THM_STAT.TRIPPED then
    ((s.setFld THM_STAT.TRIPPED 1).raiseN2 0x0C 0 (ofSigned 16 t) 0).safeCause 2
  else s

/-- THM_READING: the eight readings in 0.1 degrees; `begun` tells whether the START bit of a burn in progress reads 1. -/
def execThmReading (t : List (BitVec 16)) (begun : Bool) (s : State) : Host.Outcome State Fault Refusal :=
  let l := (List.range 8).map (fun n => (t.getD n 0).toInt)
  .next (match s.sensors l with
  | (s, some m) => s.judgeTemp m begun
  | (s, none) => s)

/-- THM_CLEAR: the maximum has been below WARN - 5 degrees for 1 s. -/
def execThmClear (s : State) : Host.Outcome State Fault Refusal :=
  .next (if s.flag THM_STAT.WARN ∧ toSigned 16 (s.fld THM_STAT.MAX) < s.thmWarn - 50 then
    (s.setFld THM_STAT.WARN 0).raise 0x0D 0 0 0
  else s)

/-! Registers -/

/-- Nominal levels of the rails in mV; per cent of the detected level for the TDM banks (R444, R482). -/
def nominal (r : Nat) : Nat := [750, 800, 1800, 100, 100, 100, 100, 3300, 900, 900, 1200, 900, 1050, 500].getD r 0

/-- SUP_XTHR, SUP_XBRACE and THM_XCFG refuse values out of range. -/
def State.supRegWrite (s : State) (off : Nat) (v : Word) : Option State :=
  if SUP_XTHR.adr 0 ≤ off ∧ off ≤ SUP_XTHR.adr 13 then
    let n := nominal ((off - SUP_XTHR.adr 0) / 4)
    let w := bitsOf v 31 16
    let r := bitsOf v 15 0
    some (if 85 * n ≤ 100 * r ∧ r < w ∧ w < n then s.setReg off v else s)
  else if off = SUP_XBRACE.adr then some (if bitsOf v 15 0 = 0 then s else s.plainWrite off v)
  else if off = THM_XCFG.adr then some (if 80 ≤ bitsOf v 23 16 ∧ bitsOf v 23 16 ≤ 105 then s.plainWrite off v else s)
  else none

end Sys2Proof.Machine
end

