-- ==== Sys2Proof/Machine/Tally.lean ====
section
/-! DEFINITION. The tally recorder: records, snapshots, losses, buckets, mirror and reading (R429-R442). -/

namespace Sys2Proof.Machine

/-- Changes the tally recorder. -/
def State.onTly (s : State) (f : TlySt → TlySt) : State := { s with tly := f s.tly }

/-! Token buckets (R437) -/

/-- What is missing from code `c`'s bucket now, in units of a sample's share of a second. -/
def State.bucket (s : State) (c : Nat) : Nat :=
  Tbl.get (fun _ => 0) s.tly.spent c - s.fld (TLY_XTRIG.RATE c) * (s.sidx - Tbl.get (fun _ => 0) s.tly.refill c)

/-- A new record of code `c` may spend a token. -/
def State.hasToken (s : State) (c : Nat) : Bool :=
  !s.flag TLY_XCFG.COMPAT || s.fld (TLY_XTRIG.RATE c) == 0 ||
    decide (s.bucket c + s.fs ≤ s.fld (TLY_XTRIG.BURST c) * s.fs)

/-- A token is spent. -/
def State.spend (s : State) (c : Nat) : State :=
  if !s.flag TLY_XCFG.COMPAT || s.fld (TLY_XTRIG.RATE c) == 0 then s
  else s.onTly (fun t => { t with spent := Tbl.put (fun _ => 0) t.spent c (s.bucket c + s.fs),
                                  refill := Tbl.put (fun _ => 0) t.refill c s.sidx })

/-! Snapshots (R432) -/

/-- Snapshot entry `k` of an event: its value, and whether its read ended with an error. -/
def State.snapWord (s : State) (e : Event) (err : Nat) (k : Nat) : Word × Bool :=
  match s.fld (TLY_XSNAP.KIND e.code k) with
  | 1 => if err / 2 ^ k % 2 = 1 then (0xFFFFFFFF, true) else (s.readReg (s.fld (TLY_XSNAP.OFFSET e.code k)), false)
  | 2 => (e.arg0, false)
  | 3 => (e.arg1, false)
  | _ => (0, false)

/-! Records (R430, R435, R436, R439) -/

/-- A record is stored, shown as the newest, and repeated in the mirror while there is room. -/
def State.putRec (s : State) (r : TlyRec) : State :=
  let s := s.onTly (fun t => { t with store := Tbl.put (fun _ => none) t.store (r.seq % 4096) (some r), recent := some r.seq,
                                      hidden := 0, lostRaised := false })
  let s := s.setReg TLY_NEWEST.adr (BitVec.ofNat 32 r.seq)
  if !s.flag TLY_XCFG.MIREN then s
  else if 16 ≤ s.tly.mirror.length then s.bump TLY_MIRSKIP_CNT.adr
  else
    let a := s.fld TLY_XMIR_LO.VALUE + 2 ^ 32 * s.fld TLY_XMIR_HI.HI + 64 * (r.seq % 2 ^ s.fld TLY_XMIR_LEN.LOG2)
    s.onTly (fun t => { t with mirror := t.mirror ++ [(a, r.words)] })

/-- A new record for an event that stands for `n` events; without a token it is dropped (R437). -/
def State.newRec (s : State) (q : TlyQ) (n err : Nat) : State :=
  let e := q.ev
  if !s.hasToken e.code then
    (s.onTly (fun t => { t with rlim := t.rlim.filter (fun c => c != e.code) ++ [e.code] })).bumpBy (TLY_DROP_CNT.adr e.code) n
  else
    let s := s.spend e.code
    let ws := (List.range 6).map (fun k => s.snapWord e err k)
    let bad := (ws.filter (fun p => p.2)).length
    let rl := s.tly.rlim.contains e.code
    let fl := b2n (bad != 0) * 128 + b2n rl * 64 + s.tly.hidden
    let seq := s.tly.nextSeq
    let s := s.onTly (fun t => { t with nextSeq := (seq + 1) % 2 ^ 28, rlim := t.rlim.filter (fun c => c != e.code) })
    (s.putRec ⟨0, seq, e, fl, n, q.last, ws.map (fun p => p.1)⟩).bumpBy TLY_SNAPERR_CNT.adr bad

/-- The record that an entry may merge into: the most recent one, of its code and epoch, with room. -/
def State.mergeRec (s : State) (e : Event) : Option TlyRec :=
  match s.tly.recent with
  | none => none
  | some q =>
    match Tbl.get (fun _ => none) s.tly.store (q % 4096) with
    | none => none
    | some r => if r.ev.code = e.code ∧ r.ev.epoch = e.epoch ∧ r.repeatCnt < 65535 then some r else none

/-- `n` events of an entry enter records, 65,535 to a record at most. The fuel bounds the records opened. -/
def State.recordN : Nat → State → TlyQ → Nat → Nat → State
  | 0, s, _, _, _ => s
  | f + 1, s, q, n, err =>
    if n = 0 then s
    else match s.mergeRec q.ev with
      | some r =>
        let m := min n (65535 - r.repeatCnt)
        let fl := r.flags / 64 * 64 + s.tly.hidden
        State.recordN f (s.putRec { r with ver := (r.ver + 1) % 16, flags := fl, repeatCnt := r.repeatCnt + m, last := q.last })
          q (n - m) err
      | none =>
        let m := min n 65535
        State.recordN f (s.newRec q m err) q (n - m) err

/-- TALLY_RECORD_WRITE: the oldest queue entry leaves; bit k of `err`: the read of snapshot entry k ends with an error. -/
def execTallyRecordWrite (err : BitVec 6) (s : State) : Host.Outcome State Fault Refusal :=
  .next (match s.tly.queue with
  | [] => s
  | q :: t => State.recordN (q.count / 65535 + 3) (s.onTly (fun x => { x with queue := t })) q q.count err.toNat)

/-- Mirror writes that wait are carried out in order by TALLYW, until one meets an error response (R439). -/
def State.mirrorTick (s : State) : State :=
  if s.isolated mTallyW then s
  else s.tly.mirror.foldl (fun (s : State) m =>
    if s.tly.mirror.isEmpty then s
    else
      let s := s.onTly (fun t => { t with mirror := t.mirror.drop 1 })
      let (s, r) := s.farWrite noCfg mTallyW m.1 (m.2.flatMap (fun w => leBytes 4 w.toNat))
      if r = respOk then s
      else
        let s := (s.onTly (fun t => { t with mirror := [] })).setFld TLY_XCFG.MIREN 0
        (s.setFld TLY_STAT.MIRFAIL 1).raiseN2 0xF9 0 r 0) s

/-! Reading (R438) -/

/-- A read of TLY_WIN0 latches the slot. -/
def State.win0Read (s : State) : State := s.onTly (fun t => { t with win := s.tlySlot (s.fld TLY_CURSOR.SLOT) })

/-- TLY_WIN0_READ. -/
def execTlyWin0Read (s : State) : Host.Outcome State Fault Refusal := .next s.win0Read

/-- A read of TLY_WIN15 with INC = 1 advances the cursor. -/
def State.win15Read (s : State) : State :=
  if s.flag TLY_CURSOR.INC then s.setFld TLY_CURSOR.SLOT ((s.fld TLY_CURSOR.SLOT + 1) % 4096) else s

/-- TLY_WIN15_READ. -/
def execTlyWin15Read (s : State) : Host.Outcome State Fault Refusal := .next s.win15Read

/-! TLY_CLEAR (R390, R440) -/

/-- The store is zero-filled; TLY_FLOOR takes the next SEQ. -/
def State.tlyClear (s : State) (c : Ctx) : State :=
  let n := s.tlyValid
  let s := s.accept c s.sidx 0 false 0
  let s := (s.onTly (fun t => { t with store := [], recent := none })).setReg TLY_FLOOR.adr (BitVec.ofNat 32 s.tly.nextSeq)
  s.finish c.handle stOk n 0

def execTlyClear (src : Fin 128) (tag : Word) (args : List Word) (s : State) : Host.Outcome State Fault Refusal :=
  .next (s.runCmd src.val 0x0902 false tag args State.tlyClear)

/-! Registers (R441) -/

/-- TLY_CTL drives the EN bits of its ranges; codes that always enter keep EN = 1 (R431). -/
def State.driveTrig (s : State) : State :=
  (List.range 256).foldl (fun (s : State) c =>
    s.setFld (TLY_XTRIG.EN c) (b2n (tallyAlways c || bitOf (s.reg TLY_CTL.adr) (c / 32)))) s

/-- A refused write. -/
def State.tlyRefuse (s : State) : State := s.setFld TLY_STAT.REFUSED 1

/-- The mirror lies in the SDRAM in force. -/
def State.mirrorOk (s : State) : Bool :=
  let a := s.fld TLY_XMIR_LO.VALUE + 2 ^ 32 * s.fld TLY_XMIR_HI.HI
  decide (sdrBase ≤ a) && decide (a + 64 * 2 ^ s.fld TLY_XMIR_LEN.LOG2 ≤ sdrBase + s.sdrCap)

/-- The effect of a write of a tally register. -/
def State.tlyRegWrite (s : State) (off : Nat) (v : Word) : Option State :=
  let mir := s.flag TLY_XCFG.MIREN
  if off = TLY_CTL.adr then some (s.plainWrite off v).driveTrig
  else if off = TLY_XCFG.adr then
    some (if bitOf v 30 ∧ !s.mirrorOk then s.tlyRefuse
    else
      let s := s.plainWrite off v
      if bitOf v 30 then s.setFld TLY_STAT.MIRFAIL 0 else s)
  else if off = TLY_XMIR_LO.adr then some (if mir ∨ v.toNat % 64 ≠ 0 then s.tlyRefuse else s.setReg off v)
  else if off = TLY_XMIR_HI.adr then some (if mir then s.tlyRefuse else s.plainWrite off v)
  else if off = TLY_XMIR_LEN.adr then
    some (if mir ∨ bitsOf v 4 0 < 12 ∨ 24 < bitsOf v 4 0 then s.tlyRefuse else s.plainWrite off v)
  else if TLY_XTRIG.adr 0 ≤ off ∧ off ≤ TLY_XTRIG.adr 255 then
    some (if bitsOf v 15 8 = 0 then s.tlyRefuse
    else
      let c := (off - TLY_XTRIG.adr 0) / 4
      let s := s.plainWrite off v
      if tallyAlways c then s.setFld (TLY_XTRIG.EN c) 1 else s)
  else if TLY_XSNAP.adr 0 0 ≤ off ∧ off ≤ TLY_XSNAP.adr 255 5 ∧ (off - TLY_XSNAP.adr 0 0) % 32 < 24 then
    some (if bitsOf v 25 24 ≠ 0 ∨ bitsOf v 1 0 ≠ 0 then s.tlyRefuse else s.plainWrite off v)
  else none

/-- BASIC_RESET of TLY (R441). -/
def State.tlyBasic (s : State) : State :=
  let s := (((s.setReg TLY_XCFG.adr 0).setReg TLY_XMIR_LO.adr 0).setReg TLY_XMIR_HI.adr 0).setReg TLY_XMIR_LEN.adr
    (regReset TLY_XMIR_LEN.adr)
  let s := s.resetRegs (TLY_XSNAP.adr 0 0) (TLY_XSNAP.adr 0 0 + 0x2000)
  (s.resetRegs (TLY_XTRIG.adr 0) (TLY_XTRIG.adr 0 + 0x400)).driveTrig

end Sys2Proof.Machine
end

