-- ==== Sys2Proof/Machine/RegEff.lean ====
section
/-! DEFINITION. What a 32-bit write of a register does, by offset, once R30 and R32 let it through (R6, R7, R26, R51,
R363). Ring doorbells and the direct command port are in Submit. -/

namespace Sys2Proof.Machine

/-- A W1C write of PEG bits: their counters are set to 0, and the bits clear (R51). -/
def State.pegClear (s : State) (off : Nat) (v : Word) : State :=
  ((pegCounters off).foldl (fun (s : State) p => if bitOf v p.2 then s.setReg p.1 0 else s) s).plainWrite off v

/-- How many functions a level register serves (R28). -/
def lvlFuncs (lvl : Nat) : Nat := if lvl = 0xFC then 4 else if lvl = 0x3000FC ∨ lvl = 0x3800FC then 2 else 1

/-- A write of a level register: each BASIC_RESET bit written 1 asks for the Basic reset of its function; a reset in
progress goes on (R27, R31). -/
def State.levelWrite (s : State) (lvl : Nat) (v : Word) : State :=
  (List.range (lvlFuncs lvl)).foldl (fun (s : State) k =>
    if bitOf v (8 + k) && !bitOf (s.reg lvl) (8 + k) then
      (s.setReg lvl (setBits (s.reg lvl) (8 + k) (8 + k) 1)).onGlb (fun g => { g with resets := g.resets ++ [⟨lvl, k, s.sidx, none⟩] })
    else s) s

/-- The 17-bit span of a kerf default is out of range (LND_KDEF, KRF_DEF, ST_XRAMP). -/
def spanBad (v : Word) : Bool := decide (65536 < bitsOf v 16 0)

/-- The landing's registers and tables. -/
def State.lndEffect (s : State) (off : Nat) (v : Word) : State :=
  if off = LND_MCLR.adr ∨ off = LND_XMCLR.adr then s.meterClear v
  else if LND_TONE.adr 0 ≤ off ∧ off ≤ LND_TONE.adr 15 then s.toneWrite ((off - LND_TONE.adr 0) / 4) v
  else if off = LND_KDEF.adr ∧ spanBad v then s.lndRefuse 3 5 (off - 0x200000)
  else if 0x200200 ≤ off ∧ off < 0x200300 then s.genWrite ((off - 0x200200) / 16) (off % 16 / 4) v
  else if 0x210000 ≤ off ∧ off < 0x250000 ∧ off % 16 = 0 then s.stage off (v &&& 0xFFFF7FFF)
  else if 0x250000 ≤ off ∧ off < 0x254000 then s.mcWrite ((off - 0x250000) / 4) v
  else s.plainWrite off v

/-- The kerf and scene units (R182, R185): KRF_DEF and SCN_DEF drive their Expert registers at once. -/
def State.krfEffect (s : State) (off : Nat) (v : Word) : State :=
  if (off = KRF_DEF.adr ∨ off = KRF_XPDEF.adr ∨ off = KRF_TDEF.adr) ∧ spanBad v then
    s.lndRefuse 3 5 (0x8000 + (off - 0x300000))
  else if off = KRF_DEF.adr then (s.plainWrite off v).plainWrite KRF_XPDEF.adr v
  else if off = KRF_QMAX.adr then (if bitOf v 31 then s.setReg off 0 else s)
  else if off = SCN_DEF.adr then (s.plainWrite off v).setFld SCN_XDEF.LOCAL (bitsOf v 0 0)
  else if 0x301000 ≤ off ∧ off < 0x301400 then s.bufWrite ((off - 0x301000) / 16) (off % 16 / 4) v
  else s.plainWrite off v

/-- The output stage (R215, R220). -/
def State.outEffect (s : State) (off : Nat) (v : Word) : State :=
  if off = OUT_DEF.adr ∧ (64 < bitsOf v 22 16 ∨ bitsOf v 10 0 = 0 ∨ 2000 < bitsOf v 10 0) then
    s.outRefuse 2 4 (off - 0x380000)
  else if off = ST_XRAMP.adr ∧ spanBad v then s.outRefuse 2 6 (off - 0x380000)
  else if ST_PATH.adr 0 ≤ off ∧ off ≤ ST_PATH.adr 15 then s.pathWrite ((off - ST_PATH.adr 0) / 4) false v
  else if ST_XPATH.adr 0 ≤ off ∧ off ≤ ST_XPATH.adr 15 then s.pathWrite ((off - ST_XPATH.adr 0) / 4) true v
  else if 0x390000 ≤ off ∧ off < 0x394000 ∧ off % 16 < 8 then s.limWrite ((off - 0x390000) / 16) (off % 16 / 4) v
  else s.plainWrite off v

/-- A port window. -/
def State.tdmEffect (s : State) (off : Nat) (v : Word) : State :=
  let p := (off - 0x400000) / 0x1000
  match off % 0x1000 with
  | 0x000 => s.tdmCtl p .ctl v
  | 0x004 => s.maskWrite p false false v
  | 0x008 => s.maskWrite p true false v
  | 0x00C => if bitOf v 0 then s.syncConfirm p else s
  | 0x100 => s.tdmCtl p .xctl v
  | 0x104 => s.maskWrite p false true v
  | 0x108 => s.maskWrite p true true v
  | 0x10C => s.tdmCtl p .xcfg v
  | _ => s.plainWrite off v

/-- Booms and rate conversion. -/
def State.strEffect (s : State) (off : Nat) (v : Word) : State :=
  if BOOM_CFG.adr 0 ≤ off ∧ off ≤ BOOM_CFG.adr 15 then s.boomCfg ((off - BOOM_CFG.adr 0) / 4) false v
  else if BOOM_PORTS.adr 0 ≤ off ∧ off ≤ BOOM_PORTS.adr 15 then s.boomPorts ((off - BOOM_PORTS.adr 0) / 4) v
  else if BOOM_XCFG.adr 0 ≤ off ∧ off ≤ BOOM_XCFG.adr 15 then s.boomCfg ((off - BOOM_XCFG.adr 0) / 4) true v
  else if off = BOOM_XPOOL_BASE.adr ∨ off = BOOM_XPOOL_LEN.adr then s.boomPoolWrite off v
  else if 0x441000 ≤ off ∧ off < 0x441400 then s.xmemWrite ((off - 0x441000) / 64) (off % 64 / 4) v
  else if ASRC_BPORT.adr 0 ≤ off ∧ off ≤ ASRC_BPORT.adr 31 then s.bportWrite ((off - ASRC_BPORT.adr 0) / 4) v
  else if off = ASRC_BCFG.adr then s.asrcBcfg v
  else if 0x500100 ≤ off ∧ off < 0x500300 then s.xgrpWrite ((off - 0x500100) / 8) (off % 8 / 4) v
  else if 0x501000 ≤ off ∧ off < 0x502000 then s.xchWrite ((off - 0x501000) / 4) v
  else s.plainWrite off v

/-- Raft, network, reference, time and pair. -/
def State.linkEffect (s : State) (off : Nat) (v : Word) : State :=
  let orPlain (t : Option State) : State := t.getD (s.plainWrite off v)
  if off < 0x700000 then (if off = RAFT_CTL.adr then s.raftCtl v else orPlain (s.raftRegWrite off v))
  else if off < 0x800000 then
    if 0x710000 ≤ off ∧ off < 0x730000 then s.flowWrite false ((off - 0x710000) / 32) (off % 32 / 4) v
    else if 0x730000 ≤ off ∧ off < 0x750000 then s.flowWrite true ((off - 0x730000) / 32) (off % 32 / 4) v
    else orPlain (s.netRegWrite off v)
  else if off < 0x900000 then
    if off = REF_SEL.adr then s.refSel v
    else if 0x800140 ≤ off ∧ off < 0x800198 then s.xcandWrite ((off - 0x800140) / 8) (off % 8 / 4) v
    else orPlain (s.refRegWrite off v)
  else if off < 0xA00000 then orPlain (s.timRegWrite off v)
  else if off = PAIR_CTL.adr then s.pairCtl v
  else orPlain (s.pairRegWrite off v)

/-- Matrix, yard, SDRAM, DACs and tally. -/
def State.baseEffect (s : State) (off : Nat) (v : Word) : State :=
  (if off < 0xC00000 then s.mtxRegWrite off v
   else if off < 0xD00000 then s.yardRegWrite off v
   else if off < 0xE00000 then s.sdrRegWrite off v
   else if off < 0xF00000 then s.dacRegWrite off v
   else s.tlyRegWrite off v).getD (s.plainWrite off v)

/-- The host interface, its ports and doorbells apart. -/
def State.hostEffect (s : State) (off : Nat) (v : Word) : State :=
  if HOST_EVEN.adr 0 ≤ off ∧ off ≤ HOST_EVEN.adr 7 then s.evenWrite ((off - HOST_EVEN.adr 0) / 4) v
  else if 0x101000 ≤ off ∧ off < 0x102000 then s.ringCfg ((off - 0x101000) / 32) (off % 32 / 4) v
  else s.plainWrite off v

/-- A word of the MSI-X table; unmasking a vector with its PBA bit set sends it (R377). -/
def State.msixWrite (s : State) (off : Nat) (v : Word) : State :=
  let k := off - 0x1FF1000
  let v : Word := if k % 16 = 12 then v &&& 1 else if k % 16 = 0 then setBits v 1 0 0 else v
  let s := s.onHost (fun h => { h with msix := Tbl.put msixDefault h.msix k v })
  let n := k / 16
  if k % 16 = 12 ∧ v = 0 ∧ n ∈ s.host.pba then
    (s.onHost (fun h => { h with pba := h.pba.erase n })).sendMsix n
  else s

/-- The engine windows, with byte enables, and the engine-common page (R67-R70). -/
def State.engEffect (s : State) (off : Nat) (v : Word) (be : BitVec 4) : State :=
  match engWindow off with
  | some (e, w) =>
    if w < 0xE0000 then s.windowWrite e w v be
    else if isCE e ∧ s.mode ≠ 4 then s
    else if off = ENG_CYC.adr e then (if bitOf v 31 then s.setFld (ENG_CYCMAX.MAX e) 0 else s)
    else if off = ENG_CTL.adr e then s.engCtlWrite e v
    else if off = ENG_DOORBELL.adr e then s.engDoorbell e v
    else if off = ENG_PEG.adr e then s.pegClear off v
    else s.plainWrite off v
  | none =>
    if off = ENG_GRUN.adr then (maskEngines (bitsOf v 15 0)).foldl (fun s e => s.requestStart e none none) s
    else if off = ENG_GSTOP.adr then (maskEngines (bitsOf v 15 0)).foldl (fun s e => s.requestStop e none) s
    else if 0x1FF1000 ≤ off ∧ off < 0x1FF1400 then s.msixWrite off v
    else s

/-- The effect of a 32-bit write at offset `off` of BAR0. -/
def State.regEffect (s : State) (off : Nat) (v : Word) : State :=
  if 0x1000000 ≤ off then s.engEffect off v 15
  else if (owner off).any (fun o => o.lvl == off) then s.levelWrite off v
  else if !(pegCounters off).isEmpty then s.pegClear off v
  else if off = GLB_RATE.adr then s.rateWrite v
  else if off < 0x100000 then (s.supRegWrite off v).getD (s.plainWrite off v)
  else if off < 0x200000 then s.hostEffect off v
  else if off < 0x300000 then s.lndEffect off v
  else if off < 0x380000 then s.krfEffect off v
  else if off < 0x400000 then s.outEffect off v
  else if off < 0x420000 then s.tdmEffect off v
  else if off < 0x600000 then s.strEffect off v
  else if off < 0xB00000 then s.linkEffect off v
  else s.baseEffect off v

/-- A register write by the host's firmware commands or by a scene (R187, R388): (old and not mask) or (value and mask),
with the checks of R30 and R32; `h` is the command's handle, if it is a command. The state and a status. A refused REG action of
a scene has no handle of its own and is reported as a register write: DESIGN CHOICE (log entry 12). A level register stays
writable at all times (R30, R32). -/
def State.regAction (s : State) (off : Nat) (v mask : Word) (h : Option Nat) : State × Nat :=
  let go (s : State) : State := s.regEffect off ((s.shown off &&& ~~~ mask) ||| (v &&& mask))
  match owner off with
  | none => (s, stBadArg)
  | some o =>
    if !regActionOk off then (s, stBadArg)
    else if off = o.lvl then (go s, stOk)
    else if !o.expert ∧ s.xmode o then (s.raiseLevel 0x03 o h.isSome (h.getD off), stWrongMode)
    else if s.inReset o then (s.raiseLevel 0x04 o h.isSome (h.getD off), stBusy)
    else (go (if o.expert then s.setXmode o else s), stOk)

end Sys2Proof.Machine
end

