-- ==== Sys2Proof/Machine/Basic.lean ====
section
/-! DEFINITION. Basic resets of the functions (R31, R32). -/

namespace Sys2Proof.Machine

/-- Writes staged at this sample in a range of offsets, those that `was` lists already apart, count as staged before it,
and reads show them: they take effect at this block boundary. -/
def State.hasten (s : State) (was : Tbl Nat) (lo hi : Nat) : State :=
  let into (k : Nat) : Bool := decide (lo ≤ k ∧ k < hi) && !(was.any (fun q => q.1 == k && q.2 == s.sidx))
  let s := (s.stgB.filter (fun p => into p.1)).foldl (fun (s : State) p =>
    { s with stg := Tbl.insert s.stg p.1 p.2, stgB := Tbl.erase s.stgB p.1 }) s
  { s with stgAt := s.stgAt.map (fun p => if into p.1 && p.2 == s.sidx then (p.1, s.sidx - 1) else p) }

/-- Registers from `lo` to below `hi` at their reset values. -/
def State.restore (s : State) (offs : List Nat) : State := offs.foldl (fun (s : State) o => s.setReg o (regReset o)) s

/-- OUT: OUT_XMUTE, and LA and REL of every limiter entry from OUT_DEF, under R214. -/
def State.outBasic (s : State) : State :=
  let d := s.reg OUT_DEF.adr
  (List.range 1024).foldl (fun (s : State) k =>
    let c := s.limWritten k
    if c.la = bitsOf d 22 16 ∧ c.rel = bitsOf d 10 0 then s
    else s.limStage k { c with la := bitsOf d 22 16, rel := bitsOf d 10 0 }) (s.restore [OUT_XMUTE.adr])

/-- The Expert registers of port `p` (R243). -/
def State.tdmBasicAll (s : State) (p : Nat) : State :=
  let ctl := tdmCtlWord (s.reg (TDM_CTL.adr p))
  (((s.stage (TDM_XCTL.adr p) ctl).stage (TDM_XCFG.adr p) (tdmBasicCfg ctl)).stage (TDM_XRXMASK.adr p)
    (s.reg (TDM_RXMASK.adr p))).stage (TDM_XTXMASK.adr p) (s.reg (TDM_TXMASK.adr p))

/-- BOOM: members and configurations from the Basic page, and the pool (R245). -/
def State.boomBasic (s : State) : State :=
  (List.range 16).foldl (fun (s : State) b =>
    (s.stage (BOOM_XCFG.adr b) (s.reg (BOOM_CFG.adr b))).stagePorts b (s.reg (BOOM_PORTS.adr b)))
    (s.restore [BOOM_XPOOL_BASE.adr, BOOM_XPOOL_LEN.adr])

/-- HOST: routing from the Basic page, and no more fetching (R380). -/
def State.hostBasic (s : State) : State :=
  let s := s.resetRegs (HOST_XEVR.adr 0) (HOST_XEVR.adr 0 + 0x400)
  let s := (List.range 8).foldl (fun (s : State) n => s.driveEven n (s.reg (HOST_EVEN.adr n))) s
  (s.onHost (fun h => { h with noFetch := true, draining := true })).hostDrained

/-- DAC: fields from the Basic page and the rest at reset (R427). -/
def State.dacBasic (s : State) : State :=
  let s := (s.restore (DAC_XGLB.adr :: (List.range 8).map DAC_XCH.adr)).driveDacs.showRef
  (List.range 8).foldl (fun (s : State) d => s.stage (DAC_XCLRCODE.adr d) (s.reg (DAC_CLRCODE.adr d))) s

/-- The functions of the windows below 0x40_0000. -/
def State.basicLow (s : State) (lvl bit : Nat) : State :=
  if lvl = GLB_LEVEL.adr then
    match bit with
    | 1 => s.restore (SUP_XBRACE.adr :: (List.range 14).map SUP_XTHR.adr)
    | 2 => s.restore [THM_XCFG.adr]
    | _ => s
  else if lvl = HOST_LEVEL.adr then s.hostBasic
  else if lvl = LND_LEVEL.adr then
    (List.range 16).foldl (fun (s : State) n =>
      (List.range 4).foldl (fun (s : State) w =>
        s.stage (genReg n w) (BitVec.ofNat 32 ((toneRegs n (s.written (LND_TONE.adr n))).getD w 0))) s) (s.restore [LND_KDEF.adr])
  else if lvl = KRF_LEVEL.adr then
    if bit = 0 then (s.setReg KRF_XPDEF.adr (s.reg KRF_DEF.adr)).restore [KRF_TDEF.adr]
    else (List.range 64).foldl State.bufRestore ((s.restore [SCN_XDEF.adr]).setFld SCN_XDEF.LOCAL (s.fld SCN_DEF.LOCAL))
  else if bit = 0 then s.outBasic
  else (List.range 16).foldl (fun (s : State) n => s.stage (ST_XPATH.adr n) (s.reg (ST_PATH.adr n))) (s.restore [ST_XRAMP.adr])

/-- The functions of the windows from 0x40_0000 on. -/
def State.basicHigh (s : State) (lvl : Nat) : State :=
  if lvl < 0x420000 then s.tdmBasicAll ((lvl - 0x400000) / 0x1000)
  else if lvl = BOOM_LEVEL.adr then s.boomBasic
  else if lvl = ASRC_LEVEL.adr then s.setBasicGroups
  else if lvl = RAFT_LEVEL.adr then s.restore [RAFT_XCFG.adr, RAFT_XTOK.adr, RAFT_XNODE.adr]
  else if lvl = NET_LEVEL.adr then
    s.netReset.restore [NET_XCQ.adr, NET_XCLAIM.adr, NET_XJPOOL_BASE.adr, NET_XJPOOL_LEN.adr, NET_XJSDR_BASE.adr, NET_XJSDR_LEN.adr]
  else if lvl = REF_LEVEL.adr then s.refBasic.restore [REF_XDCO_LO.adr, REF_XDCO_HI.adr]
  else if lvl = TIM_LEVEL.adr then s.timBasic
  else if lvl = PAIR_LEVEL.adr then s.restore (PAIR_XCFG.adr :: PAIR_XCOPY.adr :: (List.range 16).map PAIR_XGRP.adr)
  else if lvl = MTX_LEVEL.adr then
    s.restore (MTX_XBULK.adr :: (List.range 23).map MTX_XMCFG.adr ++ (List.range 12).map MTX_PARK.adr)
  else if lvl = YARD_LEVEL.adr then (s.restore [YARD_XCRUISE.adr]).driveSleep.showCruise
  else if lvl = SDR_LEVEL.adr then
    ((s.restore [SDR_XCFG.adr]).setFld SDR_XCFG.ECC (s.fld SDR_CTL.ECC)).setFld SDR_XCFG.INTLV (s.fld SDR_CTL.INTLV)
  else if lvl = DAC_LEVEL.adr then s.dacBasic
  else s.tlyBasic

/-- The window that a level register lies in. -/
def lvlWindow (lvl : Nat) : Nat × Nat :=
  if 0x400000 ≤ lvl ∧ lvl < 0x420000 then (lvl - 0xFC, lvl - 0xFC + 0x1000)
  else if lvl < 0x300000 then (lvl - 0xFC, lvl - 0xFC + 0x100000)
  else if lvl < 0x400000 then (lvl - 0xFC, lvl - 0xFC + 0x80000)
  else if lvl < 0x500000 then (0x440000, 0x450000)
  else (lvl - 0xFC, lvl - 0xFC + 0x100000)

/-- The rewrite of function `bit` of level register `lvl`, in force from this boundary on. -/
def State.basicApply (s : State) (lvl bit : Nat) : State :=
  let was := s.stgAt
  let w := lvlWindow lvl
  let t := if lvl < 0x400000 then s.basicLow lvl bit else s.basicHigh lvl
  t.hasten was w.1 w.2

/-- BASIC_RESET: a write of the level register at `lvl`. -/
def execBasicReset (lvl : BitVec 24) (v : Word) (s : State) : Host.Outcome State Fault Refusal :=
  .next (if (owner lvl.toNat).any (fun o => o.lvl == lvl.toNat) then s.hostWrite lvl.toNat (fun s => s.levelWrite lvl.toNat v)
  else s)

/-- BASIC_RESET_APPLY: at the first block boundary after the write. -/
def execBasicResetApply (s : State) : Host.Outcome State Fault Refusal :=
  .next (if !s.atBoundary then s
  else
    let due (r : BasicRst) : Bool := r.applied.isNone && decide (r.asked < s.sidx)
    let t := (s.glb.resets.filter due).foldl (fun (t : State) r => t.basicApply r.lvl r.bit) s
    t.onGlb (fun g => { g with resets := g.resets.map (fun r => if due r then { r with applied := some s.sidx } else r) }))

/-- BASIC_RESET_COMPLETE: at the second block boundary after the write XMODE and BASIC_RESET clear together. -/
def execBasicResetComplete (s : State) : Host.Outcome State Fault Refusal :=
  .next (if !s.atBoundary then s
  else
    let passed (r : BasicRst) : Bool := r.applied.any (fun n => decide (n < s.sidx))
    let t := (s.glb.resets.filter passed).foldl (fun (t : State) r =>
      t.setReg r.lvl (setBits (setBits (t.reg r.lvl) r.bit r.bit 0) (8 + r.bit) (8 + r.bit) 0)) s
    t.onGlb (fun g => { g with resets := g.resets.filter (fun r => !passed r) }))

end Sys2Proof.Machine
end

