-- ==== Sys2Proof/Machine/Apply.lean ====
section
/-! DEFINITION. Scenes and scheduled commands at their index, register writes by command, counter snapshots, and the reads
that latch (R41, R51, R187, R196-R199, R208, R281, R388). -/

namespace Sys2Proof.Machine

/-! Register actions and REG_WRITE -/

/-- Writes staged by a register action at its index take effect from that index on (R196). -/
def State.backdate (s : State) (was : Tbl Nat) : State :=
  { s with stgAt := s.stgAt.map (fun p =>
      if p.2 == s.sidx && !(was.any (fun q => q.1 == p.1 && q.2 == s.sidx)) then (p.1, s.sidx - 1) else p) }

/-- A register action at its index. -/
def State.regAt (s : State) (off : Nat) (v mask : Word) (h : Option Nat) : State × Nat :=
  let (t, st) := s.regAction off v mask h
  (t.backdate s.stgAt, st)

/-- REG_WRITE once accepted (R388): a scheduled one meets the checks of R30 and R32 at its index. -/
def State.regWriteCmd (s : State) (c : Ctx) : State :=
  let off := c.abits 0 25 0
  if !regActionOk off then s.single c stBadArg 0 0
  else match c.sched with
    | some b => s.schedule c b
    | none =>
      let (t, st) := s.regAction off (c.arg 1) (c.arg 2) (some c.handle)
      if st = stOk then t.single c stOk 0 (t.readReg off).toNat else t.single c st 0 0

/-- REG_WRITE. -/
def execRegWrite (src : Fin 128) (tag : Word) (args : List Word) (s : State) : Host.Outcome State Fault Refusal :=
  .next (s.runCmd src 0x0103 false tag args (fun s c => s.regWriteCmd c))

/-- Scheduled commands whose index has come, in order of acceptance (R201). -/
def State.dueSched (s : State) : List SchedItem := s.scn.sched.filter (fun x => decide (x.idx ≤ s.sidx))

/-! Scenes (R196-R198) -/

/-- One action of the scene `k`: the state, and the status that refuses it. -/
def State.sceneAct (s : State) (k : SceneCommit) (a : SceneAct) : State × Nat :=
  match a.type with
  | 1 => s.paramChange (bitsOf a.w1 31 28) (bitsOf a.w1 11 0) a.w2 (bitsOf a.w0 24 23) a.span a.curve (bitOf a.w0 25) k.idx
      k.order (some k.handle)
  | 2 =>
    let (t, v) := s.routeCmd (bitOf a.w1 31) (bitsOf a.w1 30 16) (bitsOf a.w1 14 0) a.span a.curve (some k.handle)
    (t, v.status)
  | 3 =>
    let e := bitsOf a.w1 3 0
    match s.progBad e with
    | some st => (s, st)
    | none => (s.progRequest e k.idx k.rounding a.span a.curve (some k.handle), stOk)
  | _ =>
    let (t, st) := s.regAt a.w1.toNat a.w2 a.w3 none
    (if st = stOk then t.opDone (some k.handle) k.idx stOk 0 0 0 else t, st)

/-- The run of a scene notes that action `i` has been refused. -/
def SceneRun.refuse (r : SceneRun) (i st : Nat) : SceneRun :=
  { r with left := r.left - 1, refused := r.refused + 1, first := if r.refused = 0 then i else r.first,
           status := if r.refused = 0 then st else r.status }

/-- The actions of scene `k` from number `i` on. -/
def State.sceneActs (k : SceneCommit) : State → Nat → List SceneAct → State
  | s, _, [] => s
  | s, i, a :: l =>
    let (t, st) := s.sceneAct k a
    let t := if st = stOk then t
      else { t with scn := { t.scn with runs := t.scn.runs.map (fun r => if r.handle = k.handle then r.refuse i st else r) } }
    State.sceneActs k t (i + 1) l

/-- SCN_LAST shows an applied scene. -/
def State.sceneLast (s : State) (k : SceneCommit) (r : SceneRun) : State :=
  let s := ({ s with scn := { s.scn with lastIdx := k.idx } }).setReg SCN_LAST_LO.adr (lo32 k.idx)
  let s := s.setReg SCN_LAST_INFO.adr (BitVec.ofNat 32 (b2n (k.late != 0) * 2 ^ 31 + b2n (k.rounding != 0) * 2 ^ 30 +
    b2n (r.refused != 0) * 2 ^ 29 + r.refused))
  s.setReg SCN_LAST_BAD.adr (BitVec.ofNat 32 r.first)

/-- The committed scene is triggered. -/
def State.sceneApply (s : State) (k : SceneCommit) : State :=
  let b := s.fld SCN_STAT.BUF
  let acts := s.scn.acts
  let run : SceneRun := ⟨k.handle, k.idx, stOk, acts.length + 1, 0, 0, 0, k.rounding⟩
  let s := ({ s with scn := { s.scn with acts := [], commit := none, runs := s.scn.runs ++ [run] } }).setBuf b bufStaged
  let s := State.sceneActs k s.endDueKerfs 0 acts
  let run := (s.scn.runs.find? (fun r => r.handle == k.handle)).getD run
  let s := (s.sceneLast k run).raise 0x44 b (lo32 k.idx) (hi32 k.idx)
  let s := if run.refused = 0 then s else (s.bump SCN_PARTIAL_CNT.adr).raiseN2 0x48 b run.refused run.first
  s.opDone (some k.handle) k.idx run.status 0 0 0

/-- SCN_APPLIED: at the scene's index, once table writes, immediate commands and scheduled commands have applied (R201). -/
def execScnApplied (s : State) : Host.Outcome State Fault Refusal :=
  .next (match s.scn.commit with
    | some k => if k.idx ≤ s.sidx ∧ s.routesApplied ∧ s.dueSched.isEmpty then s.sceneApply k else s
    | none => s)

/-- A read of SCN_LAST_LO latches SCN_LAST_HI (R208). -/
def State.scnLastRead (s : State) : State := s.setReg SCN_LAST_HI.adr (hi32 s.scn.lastIdx)

/-- SCN_LAST_LO_READ. -/
def execScnLastLoRead (s : State) : Host.Outcome State Fault Refusal := .next s.scnLastRead

/-! Scheduled commands (R199) -/

/-- A refusal of a scheduled command at its index. -/
def State.orRefused (t : State × Nat) (it : SchedItem) : State :=
  if t.2 = stOk then t.1 else t.1.finish it.handle t.2 0 0

/-- A scheduled command applies. -/
def State.schedApply (s : State) (it : SchedItem) : State :=
  let s := { s with scn := { s.scn with sched := s.scn.sched.filter (fun x => x.handle != it.handle) } }
  let a0 := it.args.getD 0 0
  match it.opcode with
  | 0x0203 => State.orRefused (s.paramOfArgs it.args it.idx it.order (some it.handle)) it
  | 0x0204 =>
    let e := bitsOf a0 3 0
    let (span, curve) := s.progKerf (kerfWord (it.args.getD 1 0))
    match s.progBad e with
    | some st => s.finish it.handle st 0 0
    | none => s.progRequest e it.idx it.rounding span curve (some it.handle)
  | 0x0103 =>
    let off := bitsOf a0 25 0
    let (t, st) := s.regAt off (it.args.getD 1 0) (it.args.getD 2 0) (some it.handle)
    if st = stOk then t.finish it.handle stOk 0 (t.readReg off).toNat else t.finish it.handle st 0 0
  | op =>
    let (span, curve) := (kerfWord (it.args.getD 1 0)).route
    s.endDueKerfs.routeRun (op == 0x0302) (bitsOf a0 30 16) (bitsOf a0 14 0) span curve it.handle

/-- SCHEDULED_APPLY: the command with handle `h` at its index, after table writes, immediate commands and the due scheduled
commands that were accepted before it (R201). -/
def execScheduledApply (h : Word) (s : State) : Host.Outcome State Fault Refusal :=
  .next (match s.scn.sched.find? (fun x => x.handle == h.toNat) with
    | some it =>
      if it.idx ≤ s.sidx ∧ s.routesApplied ∧ !(s.dueSched.any (fun x => decide (x.order < it.order))) then s.schedApply it else s
    | none => s)

/-! Counter snapshots (R51, R281, R388) -/

/-- Neighbouring runs of counters whose windows interleave: one of each run in every window. -/
def groupRules : List CtrRule → List (List CtrRule)
  | [] => []
  | r :: t =>
    match groupRules t with
    | (q :: g) :: rest => if r.stride = q.stride ∧ r.stride ≠ 4 then (r :: q :: g) :: rest else [r] :: (q :: g) :: rest
    | rest => [r] :: rest

/-- The offsets of all RO-P counters, ascending. -/
def ctrOffsets : List Nat :=
  (groupRules ctrRules).flatMap (fun g =>
    (List.range ((g.head?.map (fun r => r.n)).getD 0)).flatMap (fun i => g.map (fun r => r.base + r.stride * i)))

/-- The window of R362 that starts at an offset; none where none starts. -/
def windowAt (off : Nat) : Option (Nat × Nat) :=
  if 0x400000 ≤ off ∧ off < 0x420000 then (if off % 0x1000 = 0 then some (off, off + 0x1000) else none)
  else if off = 0x300000 ∨ off = 0x380000 then some (off, off + 0x80000)
  else if off = 0x440000 then some (off, off + 0x10000)
  else if off < 0x1000000 then
    (if off % 0x100000 = 0 ∧ off / 0x100000 ≠ 4 then some (off, off + 0x100000) else none)
  else if off < 0x1FF0000 then (if (off - 0x1000000) % 0xF0000 = 0 then some (off, off + 0xF0000) else none)
  else if off = 0x1FF0000 then some (off, off + 0x10000)
  else if off = 0x2000000 then some (off, off + 0x2000000)
  else none

/-- The counters that a snapshot takes. -/
def snapOffsets (all : Bool) (off : Nat) : List Nat :=
  if all then ctrOffsets
  else match windowAt off with
    | some (lo, hi) => ctrOffsets.filter (fun o => decide (lo ≤ o ∧ o < hi))
    | none => []

/-- COUNTER_SNAP once accepted. -/
def State.snapCmd (s : State) (c : Ctx) : State :=
  let all := bitOf (c.arg 0) 31
  let off := c.abits 0 25 0
  let far := (c.arg 1).toNat + 2 ^ 32 * c.abits 2 7 0
  let cap := (c.arg 3).toNat
  if !all && (windowAt off).isNone then s.single c stBadArg 0 0
  else if cap < 8 * (snapOffsets all off).length then s.single c stNoResource 0 0
  else
    let s := (s.accept c (s.nextBoundary s.sidx) 0 false 0).onGlb (fun g =>
      { g with snaps := g.snaps ++ [⟨some c.handle, all, off, far, cap, s.sidx⟩] })
    if all then s.onHost (fun h => { h with snapArea := some (far, cap) }) else s

/-- COUNTER_SNAP. -/
def execCounterSnap (src : Fin 128) (tag : Word) (args : List Word) (s : State) : Host.Outcome State Fault Refusal :=
  .next (s.runCmd src 0x0102 false tag args (fun s c => s.snapCmd c))

/-- The counters are taken, written, and then cleared with their PEG bits (R388). -/
def State.snapTake (s : State) (p : SnapPend) : State :=
  let offs := snapOffsets p.all p.off
  let recs := offs.map (fun o => (o, (s.reg o).toNat))
  let bytes := recs.flatMap (fun t => leBytes 4 t.1 ++ leBytes 4 t.2)
  if p.cap < bytes.length then s.finishOpt p.handle stNoResource 0 0
  else
    let (t, resp) := s.farWrite noCfg mTallyW p.far bytes
    if resp ≠ respOk then
      let bad := (List.range bytes.length).find? (fun i => s.farResp mTallyW (p.far + i) != respOk)
      t.finishOpt p.handle stHwFault 0 ((p.far + bad.getD 0) / 32 * 32 - p.far)
    else
      let t := recs.foldl (fun (t : State) x =>
        let t := t.setReg x.1 (BitVec.ofNat 32 ((t.reg x.1).toNat - x.2))
        match pegOf x.1 with
        | some (w, b) => t.setReg w (setBits (t.reg w) b b 0)
        | none => t) t
      t.finishOpt p.handle stOk recs.length (if p.all && p.accepted == 2 ^ 64 then 0 else bytes.length)

/-- COUNTER_SNAP_CAPTURE: at the block boundary. -/
def execCounterSnapCapture (s : State) : Host.Outcome State Fault Refusal :=
  .next (if !s.atBoundary then s
  else
    let due (p : SnapPend) : Bool := decide (p.accepted < s.sidx)
    (s.glb.snaps.filter due).foldl State.snapTake (s.onGlb (fun g => { g with snaps := g.snaps.filter (fun p => !due p) })))

/-- SNAPSHOT_AT_MARKER: at its marker index each chip takes the counters of every block into the area kept (R281). -/
def execSnapshotAtMarker (s : State) : Host.Outcome State Fault Refusal :=
  .next (match s.raft.snaps.find? (fun t => decide (t.1 ≤ s.sidx)) with
    | none => s
    | some m =>
      let s := s.onRaft (fun r => { r with snaps := r.snaps.erase m })
      match s.host.snapArea with
      | some (far, cap) => s.snapTake ⟨m.2, true, 0, far, cap, 2 ^ 64⟩
      | none => s.finishOpt m.2 stNoResource 0 0)

/-! Reads that latch (R41) -/

/-- ACLK cycles in a sample (R41). -/
def State.aclks (s : State) : Nat := 1024 / 2 ^ (s.fld GLB_RATE.RATE / 2)

/-- A read of GLB_SCNT_LO, `cycles` ACLK cycles after the sample tick. -/
def State.scntRead (s : State) (cycles : Nat) : State :=
  (s.setReg GLB_SCNT_HI.adr (hi32 s.sidx)).setReg GLB_SPHASE.adr (BitVec.ofNat 32 (cycles % s.aclks * 65536 / s.aclks))

/-- GLB_SCNT_LO_READ. -/
def execGlbScntLoRead (cycles : Fin 1024) (s : State) : Host.Outcome State Fault Refusal := .next (s.scntRead cycles)

end Sys2Proof.Machine
end

