-- ==== Sys2Proof/Machine/Submit.lean ====
section
/-! DEFINITION. Commands as the direct port and the rings carry them, doorbells and bulk entries (R365, R370-R375). -/

namespace Sys2Proof.Machine

/-- A BOOT_IMAGE whose checks no command row settles: the hash of its key, its signature and the training of its channels
are free. -/
def State.bootFree (s : State) (c : Ctx) : State :=
  let (s, a) := s.draw
  let (s, b) := s.draw
  let (s, d) := s.draw
  let (s, e) := s.draw
  let (s, f) := s.draw
  s.bootImage (a ++ b ++ d ++ e) (f.getLsbD 0) (f.toNat / 2 % 4) c

/-- The work of an accepted command, by opcode (R384); `checkCmd` has refused every other opcode. -/
def State.dispatchCmd (s : State) (c : Ctx) : State :=
  match c.opcode with
  | 0x0101 => s.modeSetCmd c
  | 0x0102 => s.snapCmd c
  | 0x0103 => s.regWriteCmd c
  | 0x0104 => s.bootFree c
  | 0x0105 => s.fuseArm c
  | 0x0106 => s.fuseWrite c
  | 0x0201 => s.engStart c
  | 0x0202 => s.engStop c
  | 0x0203 => s.paramSet c
  | 0x0204 => s.progSwap c
  | 0x0301 => s.routeSubmit c false
  | 0x0302 => s.routeSubmit c true
  | 0x0303 => s.meterSet c
  | 0x0401 => s.sceneArm c
  | 0x0402 => s.sceneDisarm c
  | 0x0403 => s.sceneCommit c
  | 0x0404 => s.schedCancel c
  | 0x0501 => s.limitSet c
  | 0x0502 => s.limitClear c
  | 0x0601 => s.raftApply c
  | 0x0602 => s.raftPath c
  | 0x0603 => s.raftRelay c
  | 0x0604 => s.raftBarrier c
  | 0x0605 => s.raftRestore c
  | 0x0606 => s.raftReset c
  | 0x0607 => s.raftSnap c
  | 0x0701 => State.flowSetCmd false s c
  | 0x0702 => State.flowSetCmd true s c
  | 0x0703 => s.flowClearCmd c
  | 0x0704 => s.sapListCmd c
  | 0x0801 => s.timeStepCmd c
  | 0x0802 => s.timeJoinCmd c
  | 0x0901 => s.sdrTrainCmd c
  | 0x0902 => s.tlyClear c
  | _ => s.single c stBadOpcode 0 0

/-- Submits the sixteen words of R365 from a source. -/
def State.submitWords (s : State) (src : Nat) (ws : List Word) : State :=
  let hdr := ws.getD 0 0
  let n := bitsOf hdr 11 8
  let bad := decide (bitsOf hdr 15 12 ≠ 0 ∨ bitsOf hdr 7 0 ≠ 0 ∨ 14 < n)
  s.runCmd src (bitsOf hdr 31 16) bad (ws.getD 1 0) ((List.range n).map (fun i => ws.getD (i + 2) 0)) State.dispatchCmd

/-! The direct port (R370) -/

/-- A word of the direct port. -/
def State.portWord (s : State) (n : Nat) : Word := Tbl.get (fun _ => 0) s.host.port n

/-- The effect of a write of word `n` of the direct port: the word is kept, and the last word that NARG names submits. -/
def State.portWrite (s : State) (n : Nat) (v : Word) : State :=
  let s := s.onHost (fun h => { h with port := Tbl.put (fun _ => 0) h.port n v })
  let narg := bitsOf (s.portWord 0) 11 8
  if n = 0 ∧ 14 < narg then (s.setFld HOST_CMD_STAT.REFUSED 1).setReg HOST_CMD_HANDLE.adr 0
  else if (n = 0 ∧ narg = 0) ∨ (2 ≤ n ∧ n = narg + 1) then
    s.submitWords directPort ((List.range 16).map s.portWord)
  else s

/-- HOST_CMD_SUBMIT: a write of word `n` of the direct port. -/
def execHostCmdSubmit (n : Fin 16) (v : Word) (s : State) : Host.Outcome State Fault Refusal :=
  .next (s.hostWrite (HOST_CMD_HDR.adr + 4 * n.val) (fun s => s.portWrite n v))

/-! Bulk entries (R375) -/

/-- A bulk ring that gives its next entry. -/
def State.bulkReady (s : State) (r : Nat) : Bool :=
  let cr := s.fld (HOST_RING.CRING r)
  s.ringRuns r 3 && s.ringWaiting r != 0 && !s.host.noFetch && !(s.host.held.any (fun x => x.1 == cr)) &&
    decide (s.pendingOf r < 2 ^ 24) && !s.glb.testEn

/-- The words of a bulk entry that R375 refuses. -/
def bulkBad (ws : List Word) : Bool :=
  let w (i : Nat) : Word := ws.getD i 0
  bitsOf (w 0) 30 0 != 0 || bitsOf (w 2) 1 0 != 0 || bitsOf (w 4) 1 0 != 0 || bitsOf (w 5) 31 8 != 0 ||
  bitsOf (w 6) 1 0 != 0 || (w 6) == 0 || decide (2 ^ 24 < (w 6).toNat) || (List.range 9).any (fun i => w (7 + i) != 0)

/-- The next entry of bulk ring `r` is taken: it has a handle, and its transfer starts unless it is refused. -/
def State.bulkEntry (s : State) (r : Nat) (ws : List Word) : State :=
  if !s.bulkReady r then s
  else
    let w (i : Nat) : Nat := (ws.getD i 0).toNat
    let h := r * 2 ^ 25 + s.nextSeqOf r
    let s := (s.takeSeq r).setFld (HOST_RING.DIDX r) (s.fld (HOST_RING.DIDX r) + 1)
    let c : Ctx := ⟨r, s.fld (HOST_RING.CRING r), h, 0, ws.getD 1 0, []⟩
    if bulkBad ws then s.single c stBadArg 0 0
    else (s.accept c s.sidx 0 false 0).onHost (fun x =>
      { x with bulks := x.bulks ++ [⟨h, bitOf (ws.getD 0 0) 31, w 2 + 2 ^ 32 * w 3, w 4 + 2 ^ 32 * w 5, w 6⟩] })

/-- BULK_TRANSFER. -/
def execBulkTransfer (src : Fin 128) (entry : List Word) (s : State) : Host.Outcome State Fault Refusal :=
  .next (s.bulkEntry src entry)

/-! Doorbells (R373) -/

/-- A doorbell of ring `r`, with the entries that the device fetches at once; entries not given are fetched later. -/
def State.dbWrite (s : State) (r : Nat) (idx : Word) (entries : List (List Word)) (err : Bool) : State :=
  let (t, follow) := s.doorbell r idx err
  if !follow then t
  else entries.foldl (fun (t : State) ws => if t.fld (HOST_RING.ROLE r) = 3 then t.bulkEntry r ws else t.submitWords r ws) t

/-- HOST_DB. -/
def execHostDb (r : Fin 128) (idx : Word) (entries : List (List Word)) (err : Bool) (s : State) :
    Host.Outcome State Fault Refusal :=
  .next (s.hostWrite (HOST_DB.adr r.val) (fun s => s.dbWrite r idx entries err))

end Sys2Proof.Machine
end

