-- ==== Sys2Proof/Machine/Bus.lean ====
section
/-! DEFINITION. Registers as masters of the matrix and the host reach them, responses of the matrix, isolation, haul, and
the bus instructions of the control engine (R85, R132, R363, R375, R393-R402). -/

namespace Sys2Proof.Machine

/-! Register accesses -/

/-- The effect of a 32-bit write of any register, ports and doorbells included. -/
def State.barWrite (s : State) (off : Nat) (v : Word) : State :=
  if isCmdPort off then s.portWrite ((off - HOST_CMD_HDR.adr) / 4) v
  else if isDoorbell off then s.dbWrite ((off - HOST_DB.adr 0) / 4) v [] false
  else s.regEffect off v

/-- A write to the yard window: bytes go to the yard, or the access meets an error response (R363). -/
def State.yardWrite (s : State) (a : Nat) (v : Word) (be : BitVec 4) : State :=
  let r := s.farResp mHostDma a
  if r ≠ respOk then (s.farError r mHostDma a true).accessErr (a + 0x2000000) r
  else (List.range 4).foldl (fun (s : State) i =>
    if be.getLsbD i then s.farPut (a + i) (BitVec.ofNat 8 (v.toNat / 2 ^ (8 * i))) else s) s

/-- A host write of one DWORD of BAR0 with its byte enables (R363). -/
def State.hostBar (s : State) (off : Nat) (v : Word) (be : BitVec 4) : State :=
  if s.glb.testEn then s
  else if 0x4000000 ≤ off then s
  else if 0x2000000 ≤ off then s.yardWrite (off - 0x2000000) v be
  else if 0x1000000 ≤ off ∧ off < 0x1FF0000 then s.engEffect off (mergeBytes 0 v be) be
  else if 0x1FF0000 ≤ off then (if be = 15 then s.engEffect off v be else s.byteErr off)
  else if (owner off).isNone then s
  else if be ≠ 15 then s.byteErr off
  else s.hostWrite off (fun s => s.barWrite off v)

/-- REGISTER_WRITE. -/
def execRegisterWrite (off : BitVec 26) (v : Word) (be : BitVec 4) (s : State) : Host.Outcome State Fault Refusal :=
  .next (s.hostBar (off.toNat / 4 * 4) v be)

/-- PEG_CLEAR: a W1C write of the word of PEG bits at `off`. -/
def execPegClear (off : BitVec 26) (v : Word) (s : State) : Host.Outcome State Fault Refusal :=
  .next (if (pegCounters off.toNat).isEmpty then s else s.hostWrite off.toNat (fun s => s.pegClear off.toNat v))

/-- What a read of a register changes (R41, R208, R322, R326, R335, R371, R401, R436). -/
def State.readSide (s : State) (off : Nat) : State :=
  if off = GLB_SCNT_LO.adr then let (s, v) := s.draw; s.scntRead v.toNat
  else if off = HOST_DCPL.adr 0 then s.popDcpl
  else if off = HOST_DEVQ.adr 0 then s.popDevq
  else if off = SCN_LAST_LO.adr then s.scnLastRead
  else if 0x400000 ≤ off ∧ off < 0x420000 ∧ off % 0x1000 = 0x110 then s.tsRead ((off - 0x400000) / 0x1000)
  else if off = REF_DCO_LO.adr then s.refLoRead .dco
  else if off = REF_HAVG_LO.adr then s.refLoRead .havg
  else if 0x800040 ≤ off ∧ off < 0x800098 ∧ off % 8 = 0 then
    (if h : (off - 0x800040) / 8 < 11 then s.refLoRead (.meas ⟨(off - 0x800040) / 8, h⟩) else s)
  else if off = TIM_NOW.adr 0 then s.timeRead .now 0
  else if off = TIM_MAP.adr 2 then s.timeRead .map 0
  else if off = TIM_PPSIN.adr 0 then s.timeRead .ppsIn 0
  else if 0x700400 ≤ off ∧ off < 0x700480 ∧ off % 32 = 0 then s.irqRead ((off - 0x700400) / 32)
  else if 0x900200 ≤ off ∧ off < 0x900280 ∧ off % 32 = 0 then s.txqRead ((off - 0x900200) / 32)
  else if off = MTX_ERR0.adr then s.err0Read
  else if off = TLY_WIN.adr 0 then s.win0Read
  else if off = TLY_WIN.adr 15 then s.win15Read
  else s

/-- Registers whose read takes something away: the value shown is that before the read. -/
def readFirst (off : Nat) : Bool :=
  off == HOST_DCPL.adr 0 || off == HOST_DEVQ.adr 0 || off == TLY_WIN.adr 15 ||
    decide (0x700400 ≤ off ∧ off < 0x700480 ∧ off % 32 = 0)

/-- A 32-bit read of a register, with what it changes. -/
def State.barRead (s : State) (off : Nat) : State × Word :=
  let t := s.readSide off
  (t, if readFirst off then s.readReg off else t.readReg off)

/-- First far address of CFG. -/
def cfgBase : Nat := 0x100000000

/-- A word written to CFG by master `m`: a host write when it comes from HOSTDMA; the control engine and TALLYW never set
XMODE (R29). -/
def State.cfgWrite (m : Nat) (s : State) (off : Nat) (v : Word) (be : BitVec 4) : State :=
  if m = mHostDma then s.hostBar off v be
  else if 0x1000000 ≤ off then s.engEffect off v be
  else if be = 15 then s.barWrite off v else s

/-! Transactions (R396, R397, R400, R401, R404, R413) -/

/-- The address of the first byte from `a` on, of `n`, whose access fails, with its response. -/
def State.farFails (s : State) (m a n : Nat) : Option (Nat × Nat) :=
  ((List.range n).map (fun i => (a + i, s.farResp m (a + i)))).find? (fun t => t.2 != respOk)

/-- The strobed byte of a transaction at an address. -/
def MtxTx.byteAt (t : MtxTx) (a : Nat) : Option Byte := if t.far ≤ a then (t.data.getD (a - t.far) none) else none

/-- A write that covers only part of the 8-byte word at `w`, which the memory therefore reads first. -/
def MtxTx.partial_ (t : MtxTx) (w : Nat) : Bool :=
  let l := (List.range 8).map (fun i => (t.byteAt (w + i)).isSome)
  l.any (fun b => b) && !(l.all (fun b => b))

/-- Memory words of a transaction that a list of word numbers names and that the memory reads. -/
def State.txWords (s : State) (t : MtxTx) (l : List (Fin 64)) : List Nat :=
  (l.map (fun i => t.far / 8 * 8 + 8 * i.val)).filter (fun w =>
    decide (w < t.far + t.len) && decide (s.txTarget t < 10) && (!t.write || t.partial_ w) &&
      (decide (s.txTarget t < 8) || s.flag SDR_STAT.ECC))

/-- A corrected error of the memory word at `w`. -/
def State.memCorr (s : State) (g w : Nat) : State :=
  if g < 8 then ((s.bump YARD_CORR_CNT.adr).raise 0xE5 (w / 0x80000) (lo32 w) (hi32 w)).noteErr (17 + g) 0
  else ((s.bump (SDR_CORR_CNT.adr (g - 8))).raise 0xEA (g - 8) (lo32 w) (hi32 w)).noteErr (25 + (g - 8)) 0

/-- An uncorrectable error of the memory word at `w`, met by master `m`. -/
def State.memUnc (s : State) (m g w : Nat) : State :=
  if g < 8 then ((s.bump YARD_UNC_CNT.adr).raise 0xE6 m (lo32 w) (hi32 w)).noteErr (17 + g) 1
  else (((s.bump (SDR_UNC_CNT.adr (g - 8))).raiseN2 0xEB (g - 8) w (m * 256 + w / 2 ^ 32)).noteErr (25 + (g - 8)) 1).sdrUnc (g - 8)

/-- The bytes of a write below address `stop` are written. -/
def State.txStore (s : State) (t : MtxTx) (stop : Nat) : State :=
  let put (a : Nat) : Option Byte := if a < stop then t.byteAt a else none
  if s.txTarget t = tgtCfg then
    (List.range (t.len / 4 + 2)).foldl (fun (s : State) i =>
      let a := t.far / 4 * 4 + 4 * i
      let bs := (List.range 4).map (fun k => put (a + k))
      if bs.all (fun b => b.isNone) then s
      else s.cfgWrite t.master (a - cfgBase) (BitVec.ofNat 32 (leValue (bs.map (fun b => b.getD 0))))
        (BitVec.ofNat 4 ((List.range 4).foldl (fun n k => n + b2n (bs.getD k none).isSome * 2 ^ k) 0))) s
  else
    (List.range t.len).foldl (fun (s : State) i =>
      match put (t.far + i) with
      | some b => s.farPut (t.far + i) b
      | none => s) s

/-- The registers that a read of CFG below address `stop` passes over. -/
def State.txCfgRead (s : State) (t : MtxTx) (stop : Nat) : State :=
  (List.range ((t.len + 3) / 4)).foldl (fun (s : State) i =>
    if t.far + 4 * i < stop then (s.barRead ((t.far + 4 * i - cfgBase) / 4 * 4)).1 else s) s

/-- The transaction cannot end yet: its target does not serve it, its master is isolated, its lock is to be broken, or a bank
wakes. -/
def State.txWaits (s : State) (t : MtxTx) : Bool :=
  !s.txServed t || s.isolated t.master || (s.lockOf (s.txTarget t)).any (fun l => t.locked && decide (5 ≤ l.count)) ||
    (decide (s.txTarget t < 8) && s.far.waking.any (fun b => b == t.far / 0x80000))

/-- BAR0 offset, or BAR2 offset, of a host access to far address `a`: HOSTDMA's transactions are the host's accesses, its ring and
bulk transfers being rows of their own (R363, R364). -/
def hostOffset (bar2 : Bool) (a : Nat) : Nat :=
  if bar2 then a % 2 ^ 32 else if cfgBase ≤ a then a - cfgBase else a + 0x2000000

/-- A transaction ends: memory words with corrected and with uncorrectable errors, the beat on which the crossbar finds a parity
error, and the cycles that count as a conflict at the yard (R406). -/
def State.txEnd (s : State) (t : MtxTx) (corr unc : List (Fin 64)) (fate : TxFate) : State :=
  let par := fate.par
  let s := if t.met && decide (s.txTarget t < 8) then s.bumpBy (YARD_CONF_CNT.adr t.master) fate.waited.toNat else s
  let s := s.onFar (fun f => { f with txs := f.txs.filter (fun x => !(x.master == t.master && x.id == t.id)) })
  let g := s.txTarget t
  let m := if t.bar2 then 31 else t.master
  let top := t.far + t.len
  let fail := s.farFails m t.far t.len
  let a1 := (fail.map (fun p => p.1 / 32 * 32)).getD top
  let a2 := (par.map (fun b => (t.far / 32 + b.val) * 32)).getD top
  let bad := (s.txWords t unc).foldl min top
  let a3 := if bad < top then bad / 32 * 32 else top
  let stop := min top (min a1 (min a2 a3))
  let s := ((s.txWords t corr).filter (fun w => decide (w < stop))).foldl (fun (s : State) w => s.memCorr g w) s
  let s := if t.write then s.txStore t stop else if g = tgtCfg then s.txCfgRead t stop else s
  if top ≤ stop then s
  else
    let first := max t.far stop
    let (s, r) : State × Nat :=
      if a1 = stop then
        (s.farError ((fail.map (fun p => p.2)).getD respDecode) m ((fail.map (fun p => p.1)).getD first) t.write,
          (fail.map (fun p => p.2)).getD respDecode)
      else if a2 = stop then
        (((s.mtxRecord respParity t.master g first t.write).bump MTX_PARERR_CNT.adr).raiseN2 0xE2 t.master first
          (g * 256 + first / 2 ^ 32), respParity)
      else ((s.mtxRecord respParity t.master g first t.write).memUnc t.master g bad, respParity)
    if t.master = mHostDma then s.accessErr (hostOffset t.bar2 t.far) r else s

/-- MATRIX_RESPONSE: the transaction of master `m` with this ID ends. -/
def execMatrixResponse (m : Fin 23) (id : Fin 8) (corr unc : List (Fin 64)) (fate : TxFate) (s : State) :
    Host.Outcome State Fault Refusal :=
  .next (match s.far.txs.find? (fun t => t.master == m.val && t.id == id.val) with
    | some t => if s.txWaits t then s else (s.txEnd t corr unc fate).mtxGrants
    | none => s)

/-- MTX_MASTER_ISOLATED: the drain of master `m` ends after some cycles; of each write in `beats` that many beats had been
accepted (R402). -/
def execMtxMasterIsolated (m : Fin 23) (cycles : Fin 513) (beats : List (Fin 8 × Fin 17)) (s : State) :
    Host.Outcome State Fault Refusal :=
  .next (if !s.isolated m then s
  else
    let mine := s.far.txs.filter (fun t => t.master == m.val)
    let t := mine.foldl (fun (s : State) t =>
      match beats.find? (fun b => b.1.val == t.id) with
      | some b =>
        if t.write && t.granted then
          let top := (t.far / 32 + b.2.val) * 32
          s.txStore t (min top (((s.farFails (if t.bar2 then 31 else t.master) t.far t.len).map (fun p => p.1 / 32 * 32)).getD top))
        else s
      | none => s) s
    let t := t.onFar (fun f => { f with txs := f.txs.filter (fun x => x.master != m.val), locks := f.locks.filter (fun l => l.master != m.val) })
    let t := t.setFld MTX_STAT.ISO (t.fld MTX_STAT.ISO - t.fld MTX_STAT.ISO / 2 ^ m.val % 2 * 2 ^ m.val)
    let t := t.setFld MTX_XMRST.RST (t.fld MTX_XMRST.RST - t.fld MTX_XMRST.RST / 2 ^ m.val % 2 * 2 ^ m.val)
    (t.raiseN2 0xE3 m cycles 0).mtxGrants)

/-! Bulk transfers (R375) -/

/-- Bytes of the host's memory are written. -/
def writeHostBytes : Tbl Word → Nat → List Byte → Tbl Word
  | t, a, b0 :: b1 :: b2 :: b3 :: bs =>
    writeHostBytes (Tbl.put (fun _ => 0) t a (BitVec.ofNat 32 (leValue [b0, b1, b2, b3]))) (a + 4) bs
  | t, _, _ => t

/-- The bytes that a bulk read takes, up to address `stop`. -/
def State.bulkRead (s : State) (a n stop : Nat) : State × List Byte :=
  if s.farTarget mHostDma a = tgtCfg then
    (List.range (n / 4)).foldl (fun (t : State × List Byte) i =>
      if stop ≤ a + 4 * i then t
      else
        let (s, w) := t.1.barRead (a + 4 * i - cfgBase)
        (s, t.2 ++ leBytes 4 w.toNat)) (s, [])
  else (s, ((List.range n).filter (fun i => decide (a + i < stop))).map (fun i => s.farByte (fun _ => 0) (a + i)))

/-- A bulk transfer ends: `data` is what the host's memory gave, `moved` how many bytes it took. -/
def State.bulkEnd (s : State) (b : Bulk) (data : List Byte) (moved : Nat) : State :=
  let s := s.onHost (fun h => { h with bulks := h.bulks.filter (fun x => x.handle != b.handle) })
  let fail := s.farFails mHostDma b.faddr b.len
  let stop := (fail.map (fun p => p.1 / 32 * 32)).getD (b.faddr + b.len)
  let reach := max b.faddr stop - b.faddr
  let n := if b.toHost then min b.len (min reach (moved / 4 * 4)) else min b.len (min reach (data.length / 4 * 4))
  let s :=
    if b.toHost then
      let (s, bs) := s.bulkRead b.faddr n (b.faddr + n)
      s.onHost (fun h => { h with hostMem := writeHostBytes h.hostMem b.haddr bs })
    else s.txStore ⟨mHostDma, 0, true, b.faddr, n, data.map some, false, false, true, false⟩ (b.faddr + n)
  let s := match fail with
    | some (a, r) => if n = reach then s.farError r mHostDma a (!b.toHost) else s
    | none => s
  if n = b.len then s.finish b.handle stOk 0 0 else s.finish b.handle stHwFault n 0

/-- BULK_TRANSFER_DONE. -/
def execBulkTransferDone (h : Word) (data : List Byte) (moved : BitVec 25) (s : State) : Host.Outcome State Fault Refusal :=
  .next (match s.host.bulks.find? (fun b => b.handle == h.toNat) with
    | some b => s.bulkEnd b data moved.toNat
    | none => s)

/-! Haul (R84, R85) -/

/-- Far and local address of byte `j` of a transfer. -/
def Haul.farAt (h : Haul) (j : Nat) : Nat :=
  let step : Int := ((j / h.xbytes : Nat) : Int) * h.fstride + ((j % h.xbytes : Nat) : Int)
  if h.ringed then h.fbase + ((((h.foff : Nat) : Int) + step) % ((h.flen : Nat) : Int)).toNat
  else ((((h.fbase : Nat) : Int) + step) % ((2 ^ 40 : Nat) : Int)).toNat
def Haul.locAt (h : Haul) (j : Nat) : Nat :=
  ((((h.laddr : Nat) : Int) + ((j / h.xbytes : Nat) : Int) * h.lstride + ((j % h.xbytes : Nat) : Int)) % ((2 ^ 24 : Nat) : Int)).toNat

/-- A byte of DMEM is written by a transfer; bytes outside DMEM are lost. -/
def Engine.dmemPut (x : Engine) (a : Nat) (b : Byte) : Engine :=
  if inDmem a then { x with mem := Memory.write x.mem a b } else x

/-- Moves byte `j` of a transfer; registers of CFG move word by word with their first byte. -/
def State.haulByte (s : State) (e : Nat) (h : Haul) (j : Nat) : State :=
  let x := s.engOf e
  let a := h.farAt j
  let l := h.locAt j
  if s.farTarget e a = tgtCfg then
    if j % 4 ≠ 0 then s
    else if h.toFar then s.cfgWrite e (a - cfgBase) (BitVec.ofNat 32 (leValue (Memory.readBytes x.mem l 4))) 15
    else
      let (s, w) := s.barRead ((a - cfgBase) / 4 * 4)
      s.setEng e (((List.range 4).zip (leBytes 4 w.toNat)).foldl (fun x t => x.dmemPut (l + t.1) t.2) (s.engOf e))
  else if h.toFar then s.farPut a (if inDmem l then Memory.read x.mem l else 0)
  else s.setEng e (x.dmemPut l (s.farByte (fun _ => 0) a))

/-- The transfer in slot `k` of engine `e` ends; `resp` is an error response that byte `at_` meets for a cause outside the
model (0: none). -/
def State.haulEnd (s : State) (e k : Nat) (h : Haul) (resp at_ : Nat) : State :=
  let n := h.xbytes * h.yrows
  let own := ((List.range n).map (fun j => (j, s.farResp e (h.farAt j)))).find? (fun t => t.2 != respOk)
  let bad : Option (Nat × Nat) :=
    if resp = 0 ∨ n ≤ at_ then own
    else match own with
      | some (j, r) => if j ≤ at_ then some (j, r) else some (at_, resp)
      | none => some (at_, resp)
  let stop := (bad.map (fun t => t.1)).getD n
  let s := (List.range stop).foldl (fun (s : State) j => s.haulByte e h j) s
  let s := if h.toFar then s
    else s.setEng e (((List.range n).drop stop).foldl (fun x j => x.dmemPut (h.locAt j) 0) (s.engOf e))
  let s := s.setEng e ((s.engOf e).setHaul k none)
  let s := match bad with
    | some (j, r) =>
      let a := h.farAt j
      (if own == some (j, r) then s.farError r e a h.toFar else s.mtxRecord r e (s.farTarget e a) a h.toFar).haulError e k r h.foff
    | none => if h.irq then s.setEng e { s.engOf e with ip := (s.engOf e).ip ||| 64 } else s
  s.stopDone e

/-- HAUL_TRANSFER_END: not while the engine's master is isolated. -/
def execHaulTransferEnd (e : Eng) (k : Fin 8) (resp : Fin 5) (at_ : Word) (s : State) : Host.Outcome State Fault Refusal :=
  .next (match (s.engOf e).haulOf k with
    | some h => if s.isolated e then s else s.haulEnd e k h resp at_.toNat
    | none => s)

/-! CRD and CWR (R132) -/

/-- The response of CRD or CWR to offset `off`; `resp` is what CFG answers. -/
def cfgResp (off resp : Nat) : Nat := if (engWindow off).isSome ∨ 0x2000000 ≤ off then respDecode else resp

/-- An error response of CRD or CWR is recorded. -/
def State.cfgError (s : State) (off r : Nat) (write : Bool) : State :=
  if 0x2000000 ≤ off then s.farError r mCE (cfgBase + off) write
  else s.mtxRecord r mCE tgtCfg (cfgBase + off) write

/-- CRD: `resp` is the response of CFG. -/
def execCrd (e : Eng) (gd g2 : Fin 16) (resp : Fin 5) (s : State) : Host.Outcome State Fault Refusal :=
  .next (if !s.engRuns e then s
    else if !isCE e then s.haltEng e 1
    else
      let off := ((s.engOf e).gget g2).toNat / 4 * 4
      let r := cfgResp off resp
      let (s, v) := if r = respOk then s.barRead off else (s.cfgError off r false, 0)
      s.yslot e (fun x => (x.addY [resY (.g gd) v.toNat 1]).accErr (r != respOk)))

/-- CWR: `resp` is the response of CFG. -/
def execCwr (e : Eng) (g2 gs : Fin 16) (resp : Fin 5) (s : State) : Host.Outcome State Fault Refusal :=
  .next (if !s.engRuns e then s
    else if !isCE e then s.haltEng e 1
    else
      let x := s.engOf e
      let off := (x.gget g2).toNat / 4 * 4
      let r := cfgResp off resp
      let s := if r = respOk then State.cfgWrite mCE s off (x.gget gs) 15 else s.cfgError off r true
      s.yslot e (fun x => x.accErr (r != respOk)))

end Sys2Proof.Machine
end

