-- ==== Sys2Proof/Machine/EngMove.lean ====
section
/-! DEFINITION. Register moves of the Y slot (R123-R125). -/

namespace Sys2Proof.Machine

/-- A register of a class as MOV reads it (R123). -/
def Engine.classGet (x : Engine) (c : RegC) (n : Nat) : Word :=
  match c with
  | .g => x.gget n
  | .p => x.pget n
  | .m => x.mget n
  | .q => (x.qget n).setWidth 32

/-- The destination of a move. -/
def classDest (c : RegC) (n : Nat) : Dest :=
  match c with
  | .g => .g n
  | .p => .p n
  | .m => .m n
  | .q => .q n

/-- A Q number above 3 is illegal (R101). -/
def classBad (c : RegC) (n : Nat) : Bool := c == .q && decide (3 < n)

/-- A register move: the value from the engine, seen by the next bundle (R71). -/
def State.moveOp (s : State) (e : Nat) (dc : RegC) (d : Nat) (bad : Bool) (f : Engine → Word) : State :=
  if s.engRuns e && (bad || classBad dc d) then s.haltEng e 1
  else s.yslot e (fun x => x.addY [resY (classDest dc d) (f x).toNat 1])

/-- MOV (R123). -/
def execMovOp (e : Eng) (dc : RegC) (d : Fin 16) (sc : RegC) (sr : Fin 16) (s : State) : Host.Outcome State Fault Refusal :=
  .next (s.moveOp e dc d (classBad sc sr) (fun x => x.classGet sc sr))

/-- MOVI (R123). -/
def execMovi (e : Eng) (dc : RegC) (d : Fin 16) (imm : BitVec 16) (s : State) : Host.Outcome State Fault Refusal :=
  .next (s.moveOp e dc d false (fun _ => imm.signExtend 32))

/-- MOVHI (R123). -/
def execMovhi (e : Eng) (dc : RegC) (d : Fin 16) (imm : BitVec 16) (s : State) : Host.Outcome State Fault Refusal :=
  .next (s.moveOp e dc d false (fun x => setBits (x.classGet dc d) 31 16 imm.toNat))

/-- The value of system register `sr` (R124, R125); the control engine has no I/O blocks (R86). -/
def Engine.sysGet (x : Engine) (ce : Bool) (sr : Nat) : Word :=
  let n (v : Nat) : Word := BitVec.ofNat 32 v
  match sr with
  | 0x00 => x.r.ectl
  | 0x01 => x.estRead
  | 0x02 => n x.r.ipc
  | 0x03 => x.r.iest
  | 0x04 => n x.r.ivb
  | 0x05 => if ce then 0 else n x.icur
  | 0x06 => if ce then 0 else n x.ocur
  | 0x07 => n (x.haulBusy + 256 * x.herr.toNat)
  | 0x08 => x.dbell
  | 0x09 => if ce then 0 else lo32 x.bidx
  | 0x0A => if ce then 0 else hi32 x.bidx
  | 0x0B => n x.r.ldepth
  | _ =>
    if sr < 0x10 then n (Tbl.get (fun _ => 0) x.r.lcnt (sr - 0x0C))
    else if sr < 0x14 then n (Tbl.get (fun _ => 0) x.r.lbeg (sr - 0x10))
    else if sr < 0x18 then n (Tbl.get (fun _ => 0) x.r.lend (sr - 0x14))
    else if sr < 0x28 then Tbl.get (fun _ => 0) x.r.b (sr - 0x18)
    else (Tbl.find x.r.bStg sr).getD (Tbl.get (fun _ => 0) x.r.hr (sr - 0x28))

/-- The bits a MOVS write to a staged register keeps: a ring base has 24 bits, the high far base 8 (R61, R124). -/
def stagedMask (sr : Nat) : Nat :=
  if sr < 0x20 then 0xFFFFFF else if 0x30 ≤ sr ∧ sr < 0x38 then 0xFF else 0xFFFFFFFF

/-- A MOVS write of `v` to system register `sr` that the engine may do at once (R124). -/
def Engine.sysPut (x : Engine) (sr : Nat) (v : Word) : Engine :=
  match sr with
  | 0x00 => x.addY [resY .ectl (Nat.land v.toNat 0xFF82) 1]
  | 0x01 =>
    let kept := Nat.land x.r.est.toNat (0x00F00000 - Nat.land v.toNat 0x00F00000)
    x.addY [resY (.sys 1) (kept + v.toNat % 16) 1]
  | 0x02 => x.addY [resY (.sys 2) v.toNat 1]
  | 0x03 => x.addY [resY (.sys 3) (Nat.land x.r.iest.toNat 0xFF030000 + Nat.land v.toNat 0x00F0000F) 1]
  | 0x04 => x.addY [resY (.sys 4) v.toNat 1]
  | 0x07 => { x with herr := x.herr &&& ~~~(BitVec.ofNat 8 (bitsOf v 15 8)) }
  | 0x0B => x.addY [resY .ldepth v.toNat 2]
  | _ =>
    if sr < 0x0B then x.accErr true
    else if sr < 0x10 then x.addY [resY (.lcnt (sr - 0x0C)) v.toNat 2]
    else if sr < 0x14 then x.addY [resY (.lbeg (sr - 0x10)) v.toNat 2]
    else if sr < 0x18 then x.addY [resY (.lend (sr - 0x14)) v.toNat 2]
    else { x with r := { x.r with bStg := Tbl.insert x.r.bStg sr (BitVec.ofNat 32 (Nat.land v.toNat (stagedMask sr))) } }

/-- Loop registers and LDEPTH (R95). -/
def isLoopReg (sr : Nat) : Bool := 0x0B ≤ sr && sr < 0x18

/-- MOVS Sd, Gs (R124, R125): raising LDEPTH is a repeat error. -/
def execMovsTo (e : Eng) (sr : Fin 64) (gs : Fin 16) (s : State) : Host.Outcome State Fault Refusal :=
  let write (s : State) : State :=
    if sr.val = 0x0B ∧ (s.engOf e).r.ldepth < ((s.engOf e).gget gs).toNat ∧ s.engRuns e then s.haltEng e 2
    else s.yslot e (fun x => x.sysPut sr (x.gget gs))
  .next (if isLoopReg sr then s.noSetup e write else write s)

/-- MOVS Gd, Ss (R124). -/
def execMovsFrom (e : Eng) (gd : Fin 16) (sr : Fin 64) (s : State) : Host.Outcome State Fault Refusal :=
  .next (s.yslot e (fun x => x.addY [resY (.g gd) (x.sysGet (isCE e) sr).toNat 1]))

end Sys2Proof.Machine
end

