-- ==== Sys2Proof/Machine/Kget.lean ====
section
/-! DEFINITION. KGET, TLU and the element instructions of the X slot (R112-R117). -/

namespace Sys2Proof.Machine

/-- Post-modification of Pp by KGET and TLU, for access size 2^lo: the address first counts as reduced into its ring, and
a degraded ring sets ACCERR (R61, R74, R112, R116). -/
def Engine.xpUpdate (x : Engine) (p m : Nat) (lo : Nat) : List Res :=
  let w := x.pget p
  let a := x.postAddr w (x.paddr w).1 (x.mget m).toInt lo
  resX (.p p) (setBits w 23 0 a).toNat 1 :: (if (x.pmode w).2 then [resX (.sticky 20) 1 1] else [])

/-- ACCERR as a result of an X-slot instruction. -/
def xAccErr (b : Bool) : List Res := if b then [resX (.sticky 20) 1 1] else []

/-- A KPS value into a lane: in both halves when DUP is set (R112). -/
def kgetLane (v : Word) (dup : Bool) : Nat := v.toNat + (if dup then 2 ^ 32 * v.toNat else 0)

/-- The entries KGET reads by lane: none where the entry lies outside the KPS; the control engine has no KPS (R86, R112). -/
def Engine.kgetEntries (x : Engine) (ce : Bool) (q p : Nat) (bcast : Bool) : List (Nat × Option Nat) :=
  let a := bitsOf (x.pget p) 23 0
  (x.enabled ce q).map (fun k =>
    let b := if bcast then a else a + 16 * k
    (k, if a % 16 = 0 ∧ inKps b ∧ !ce then some ((b - 0x200000) / 16) else none))

/-- KGET (R112, R113). -/
def execKget (e : Eng) (pair : Bool) (q : Fin 4) (vd : Fin 32) (p m : Fin 16) (upd noAdv dup bcast : Bool) (s : State) :
    Host.Outcome State Fault Refusal :=
  let ce := isCE e
  .next (s.xslotWith e pair 0 (fun x =>
    let es := x.kgetEntries ce q p bcast
    let lanes := es.map (fun t => match t.2 with
      | some i => resX (.v vd t.1) (kgetLane (x.kpsOf i).value dup) 3
      | none => resX (.v vd t.1) 0 3)
    let read := es.filterMap (fun t => t.2)
    let bad := es.any (fun t => t.2.isNone) || bitsOf (x.pget p) 23 0 % 16 != 0 || read.any (fun i => (x.kpsOf i).fmt == 3)
    let adv := if noAdv then [] else if bcast then read.take 1 else read
    ({ x with adv := adv },
     lanes ++ (if upd then x.xpUpdate p m (if bcast then 4 else 8) else []) ++ xAccErr bad)))

/-- The addresses a TLU reads, by lane (R116). -/
def Engine.tluAddrs (x : Engine) (ce : Bool) (q p vi : Nat) (banked : Bool) : List (Nat × Nat) :=
  let a := bitsOf (x.pget p) 23 3 * 8
  (x.enabled ce q).map (fun k =>
    (k, a + (if banked then 0x8000 * k else 0) + 8 * ((x.vget ce vi k).toNat % 4096)))

/-- Distinct numbers of a list. -/
def distinct (l : List Nat) : List Nat := l.foldr (fun a t => if a ∈ t then t else a :: t) []

/-- Stall cycles of a TLU: its worst bank needs n distinct words, n - 1 cycles (R98). -/
def tluStall (addrs : List Nat) : Nat :=
  let w := distinct (addrs.filter inDmem)
  (w.map (fun a => (w.filter (fun b => bankOf b == bankOf a)).length - 1)).foldl max 0

/-- TLU (R116). A lane of Vi read in error yields 0 (R89). -/
def execTlu (e : Eng) (pair : Bool) (q : Fin 4) (vd : Fin 32) (p m : Fin 16) (upd : Bool) (vi : Fin 32) (banked : Bool)
    (par : BitVec 16) (s : State) : Host.Outcome State Fault Refusal :=
  let ce := isCE e
  .next (s.xslotWith e pair par.toNat (fun x =>
    let as := x.tluAddrs ce q p vi banked
    let a := bitsOf (x.pget p) 23 0
    let lanes := as.map (fun t =>
      resX (.v vd t.1) (if par.getLsbD t.1 || !inDmem t.2 then 0 else leValue (Memory.readBytes x.mem t.2 8)) 3)
    let bad := a % 8 != 0 || as.any (fun t => !inDmem t.2) || (banked && !(0x100000 ≤ a && a < 0x108000))
    let mine := as.map (fun t => t.2)
    ({ x with tluBanks := if banked then List.range 16 else distinct ((mine.filter inDmem).map bankOf),
              xst := if banked then 0 else tluStall mine },
     lanes ++ (if upd then x.xpUpdate p m 3 else []) ++ xAccErr bad)))

/-- The lane value that VINS and VBRD write: from the old lane and the word (R117). -/
def insLane (h : Half) (old : BitVec 64) (g : Word) : Nat :=
  match h with
  | .re => old.toNat / 2 ^ 32 * 2 ^ 32 + g.toNat
  | .im => old.toNat % 2 ^ 32 + 2 ^ 32 * g.toNat
  | .b40 => lane40 g.toInt
  | .both => g.toNat + 2 ^ 32 * g.toNat

/-- VEXT (R117): a B40 lane clips to S32; selecting both halves is illegal. -/
def execVext (e : Eng) (pair : Bool) (gd : Fin 16) (va : Fin 32) (lane : Fin 16) (h : Half) (par : BitVec 16) (s : State) :
    Host.Outcome State Fault Refusal :=
  let ce := isCE e
  .next (if s.canX e && h == .both then s.haltEng e 1 else
    s.xslot e pair (Nat.land par.toNat (2 ^ lane.val)) (fun x =>
      let w := x.vget ce va lane
      let v := sig40 w
      if par.getLsbD lane.val then [resX (.g gd) 0 1]
      else match h with
        | .re => [resX (.g gd) (w.toNat % 2 ^ 32) 1]
        | .im => [resX (.g gd) (w.toNat / 2 ^ 32) 1]
        | _ => resX (.g gd) (ofSigned 32 (satS 32 v)) 1 :: (if v = satS 32 v then [] else [resX (.sticky 23) 1 1])))

/-- VINS (R117): selecting both halves is illegal. -/
def execVins (e : Eng) (pair : Bool) (vd : Fin 32) (gs : Fin 16) (lane : Fin 16) (h : Half) (s : State) :
    Host.Outcome State Fault Refusal :=
  let ce := isCE e
  .next (if s.canX e && h == .both then s.haltEng e 1 else
    s.xslot e pair 0 (fun x => [resX (.v vd lane) (insLane h (x.vget ce vd lane) (x.gget gs)) 1]))

/-- VBRD (R117). -/
def execVbrd (e : Eng) (pair : Bool) (vd : Fin 32) (gs : Fin 16) (h : Half) (s : State) :
    Host.Outcome State Fault Refusal :=
  let ce := isCE e
  .next (s.xslot e pair 0 (fun x =>
    (lanesOf ce).map (fun k => resX (.v vd k) (insLane h (x.vget ce vd k) (x.gget gs)) 1)))

/-- MOVI32 (R117): a whole bundle. -/
def execMovi32 (e : Eng) (gd : Fin 16) (imm : Word) (s : State) : Host.Outcome State Fault Refusal :=
  .next (s.xslot e false 0 (fun _ => [resX (.g gd) imm.toNat 1]))

/-- VBRDI (R117): a whole bundle. -/
def execVbrdi (e : Eng) (vd : Fin 32) (imm : Word) (h : Half) (s : State) : Host.Outcome State Fault Refusal :=
  let ce := isCE e
  .next (s.xslot e false 0 (fun x =>
    (lanesOf ce).map (fun k => resX (.v vd k) (insLane h (x.vget ce vd k) imm) 1)))

end Sys2Proof.Machine
end

