-- ==== Sys2Proof/Machine/MultAcc.lean ====
section
/-! DEFINITION. Multiply-accumulate, accumulator moves, saturate and pack (R106-R111). -/

namespace Sys2Proof.Machine

/-- MAC (R107). -/
def execMac (e : Eng) (pair : Bool) (q : Fin 4) (an : Fin 8) (va vb : Fin 32) (cf : Cf) (par : BitVec 16) (s : State) :
    Host.Outcome State Fault Refusal :=
  .next (s.macOp e pair q an va vb cf .wide false false par)

/-- MSU (R107). -/
def execMsu (e : Eng) (pair : Bool) (q : Fin 4) (an : Fin 8) (va vb : Fin 32) (cf : Cf) (par : BitVec 16) (s : State) :
    Host.Outcome State Fault Refusal :=
  .next (s.macOp e pair q an va vb cf .wide true false par)

/-- MPY (R107). -/
def execMpy (e : Eng) (pair : Bool) (q : Fin 4) (an : Fin 8) (va vb : Fin 32) (cf : Cf) (par : BitVec 16) (s : State) :
    Host.Outcome State Fault Refusal :=
  .next (s.macOp e pair q an va vb cf .wide false true par)

/-- MPYN (R107). -/
def execMpyn (e : Eng) (pair : Bool) (q : Fin 4) (an : Fin 8) (va vb : Fin 32) (cf : Cf) (par : BitVec 16) (s : State) :
    Host.Outcome State Fault Refusal :=
  .next (s.macOp e pair q an va vb cf .wide true true par)

/-- MAC.D (R107). -/
def execMacD (e : Eng) (pair : Bool) (q : Fin 4) (an : Fin 8) (va vb : Fin 32) (cf : Cf) (par : BitVec 16) (s : State) :
    Host.Outcome State Fault Refusal :=
  .next (s.macOp e pair q an va vb cf .dual false false par)

/-- MSU.D (R107). -/
def execMsuD (e : Eng) (pair : Bool) (q : Fin 4) (an : Fin 8) (va vb : Fin 32) (cf : Cf) (par : BitVec 16) (s : State) :
    Host.Outcome State Fault Refusal :=
  .next (s.macOp e pair q an va vb cf .dual true false par)

/-- MPY.D (R107). -/
def execMpyD (e : Eng) (pair : Bool) (q : Fin 4) (an : Fin 8) (va vb : Fin 32) (cf : Cf) (par : BitVec 16) (s : State) :
    Host.Outcome State Fault Refusal :=
  .next (s.macOp e pair q an va vb cf .dual false true par)

/-- MPYN.D (R107). -/
def execMpynD (e : Eng) (pair : Bool) (q : Fin 4) (an : Fin 8) (va vb : Fin 32) (cf : Cf) (par : BitVec 16) (s : State) :
    Host.Outcome State Fault Refusal :=
  .next (s.macOp e pair q an va vb cf .dual true true par)

/-- MAC.DX (R107). -/
def execMacDx (e : Eng) (pair : Bool) (q : Fin 4) (an : Fin 8) (va vb : Fin 32) (cf : Cf) (par : BitVec 16) (s : State) :
    Host.Outcome State Fault Refusal :=
  .next (s.macOp e pair q an va vb cf .cross false false par)

/-- MSU.DX (R107). -/
def execMsuDx (e : Eng) (pair : Bool) (q : Fin 4) (an : Fin 8) (va vb : Fin 32) (cf : Cf) (par : BitVec 16) (s : State) :
    Host.Outcome State Fault Refusal :=
  .next (s.macOp e pair q an va vb cf .cross true false par)

/-- MPY.DX (R107). -/
def execMpyDx (e : Eng) (pair : Bool) (q : Fin 4) (an : Fin 8) (va vb : Fin 32) (cf : Cf) (par : BitVec 16) (s : State) :
    Host.Outcome State Fault Refusal :=
  .next (s.macOp e pair q an va vb cf .cross false true par)

/-- MPYN.DX (R107). -/
def execMpynDx (e : Eng) (pair : Bool) (q : Fin 4) (an : Fin 8) (va vb : Fin 32) (cf : Cf) (par : BitVec 16) (s : State) :
    Host.Outcome State Fault Refusal :=
  .next (s.macOp e pair q an va vb cf .cross true true par)

/-- CMAC (R107). -/
def execCmac (e : Eng) (pair : Bool) (q : Fin 4) (an : Fin 8) (va vb : Fin 32) (cf : Cf) (conj : Bool) (par : BitVec 16) (s : State) :
    Host.Outcome State Fault Refusal :=
  .next (s.macOp e pair q an va vb cf (.cplx conj) false false par)

/-- CMSU (R107). -/
def execCmsu (e : Eng) (pair : Bool) (q : Fin 4) (an : Fin 8) (va vb : Fin 32) (cf : Cf) (conj : Bool) (par : BitVec 16) (s : State) :
    Host.Outcome State Fault Refusal :=
  .next (s.macOp e pair q an va vb cf (.cplx conj) true false par)

/-- CMPY (R107). -/
def execCmpy (e : Eng) (pair : Bool) (q : Fin 4) (an : Fin 8) (va vb : Fin 32) (cf : Cf) (conj : Bool) (par : BitVec 16) (s : State) :
    Host.Outcome State Fault Refusal :=
  .next (s.macOp e pair q an va vb cf (.cplx conj) false true par)

/-- CMPYN (R107). -/
def execCmpyn (e : Eng) (pair : Bool) (q : Fin 4) (an : Fin 8) (va vb : Fin 32) (cf : Cf) (conj : Bool) (par : BitVec 16) (s : State) :
    Host.Outcome State Fault Refusal :=
  .next (s.macOp e pair q an va vb cf (.cplx conj) true true par)

/-- CMUL: the complex product converted from 62 fraction bits to S32 in each half (R108). -/
def execCmul (e : Eng) (pair : Bool) (q : Fin 4) (vd va vb : Fin 32) (cf : Cf) (conj trunc : Bool) (par : BitVec 16) (s : State) :
    Host.Outcome State Fault Refusal :=
  let ce := isCE e
  .next (s.xslot e pair par.toNat (fun x => vecRes vd 4 (laneRes x ce q par (fun k =>
    let p := macProducts (.cplx conj) cf (x.vget ce va k) (x.vget ce vb k)
    let r := convertTo 32 31 62 0 trunc p.1
    let i := convertTo 32 31 62 0 trunc p.2
    (laneC r.1 i.1, r.2 || i.2)))))

/-- ACLR (R109). -/
def execAclr (e : Eng) (pair : Bool) (q : Fin 4) (an : Fin 8) (s : State) : Host.Outcome State Fault Refusal :=
  .next (s.xslot e pair 0 (fun x => (x.enabled (isCE e) q).flatMap (fun k => accRes an 0 k 0 ++ accRes an 1 k 0)))

/-- ALD: .R loads the real half from the B40 value, .C both halves (R109). -/
def execAld (e : Eng) (pair : Bool) (q : Fin 4) (an : Fin 8) (va : Fin 32) (cplx : Bool) (par : BitVec 16) (s : State) :
    Host.Outcome State Fault Refusal :=
  let ce := isCE e
  .next (s.xslot e pair par.toNat (fun x => (x.enabled ce q).flatMap (fun k =>
    let w : BitVec 64 := if par.getLsbD k then 0 else x.vget ce va k
    if cplx then accRes an 0 k (reOf w * (2 ^ 31 : Nat)) ++ accRes an 1 k (imOf w * (2 ^ 31 : Nat))
    else accRes an 0 k (sig40 w * (2 ^ 31 : Nat)))))

/-- SAT: one half scaled by 2^sh and converted to B40 (R110). -/
def execSat (e : Eng) (pair : Bool) (q : Fin 4) (vd : Fin 32) (an : Fin 8) (im : Bool) (sh : BitVec 4) (trunc : Bool)
    (par : BitVec 16) (s : State) : Host.Outcome State Fault Refusal :=
  .next (s.xslot e pair par.toNat (fun x => vecRes vd 1 (laneRes x (isCE e) q par (fun k =>
    let r := convertTo 40 31 62 sh.toInt trunc (x.aget an (b2n im) k)
    (lane40 r.1, r.2)))))

/-- Width and fraction bits of a pack format (R111). -/
def packBits : PackFmt → Nat × Nat
  | .s32 => (32, 31)
  | .c32 => (32, 30)
  | .g428 => (32, 28)
  | .s24 => (24, 23)

/-- PACK: both halves scaled by 2^sh and converted (R111). -/
def execPack (e : Eng) (pair : Bool) (q : Fin 4) (vd : Fin 32) (an : Fin 8) (fmt : PackFmt) (sh : BitVec 4) (trunc : Bool)
    (par : BitVec 16) (s : State) : Host.Outcome State Fault Refusal :=
  .next (s.xslot e pair par.toNat (fun x => vecRes vd 1 (laneRes x (isCE e) q par (fun k =>
    let r := convertTo (packBits fmt).1 (packBits fmt).2 62 sh.toInt trunc (x.aget an 0 k)
    let i := convertTo (packBits fmt).1 (packBits fmt).2 62 sh.toInt trunc (x.aget an 1 k)
    (laneC r.1 i.1, r.2 || i.2)))))

end Sys2Proof.Machine
end

