-- ==== Sys2Proof/Machine/Ticks.lean ====
section
/-! DEFINITION. The sample tick and the block tick (R40, R143). -/

namespace Sys2Proof.Machine

/-- The sample `sidx` ends: source words are taken, meters and outputs take their words, and raft, network and generators
step on (R143, R152, R210, R268, R298). -/
def State.sampleEnd (s : State) : State :=
  let k := s.sidx
  let s := s.raftDrop
  let (s, ext) := s.extRead k
  let snap := s.sourceWords ext k
  let s := ((s.metersSample snap s.lnd.snk).pairSample).outputsClose.sentClose
  let s := (((s.raftForward (k + 1)).txTick k).gensStep k).dropInbox k
  { s with lnd := { s.lnd with snap := snap } }

/-- The sample that begins: the counter and the time have advanced. -/
def State.sampleBegin (s : State) (edges : Nat) : State :=
  let s := (({ s with sidx := s.sidx + 1 }).onGlb (fun g => { g with up := g.up + 1 })).runTime edges
  let s := s.landingPass
  let s := (keysOf s.str.boom).foldl State.boomTick s
  let s := s.asrcSampleTick.netSampleTick.raftPrepare.mirrorTick
  if s.sidx % s.fs = 0 then s.onFar (fun f => { f with ue := [] }) else s

/-- SAMPLE_TICK: one sample ends and the next begins, `edges` TCLK edges after the last one; while PORST_N is low there is no
clock. -/
def execSampleTick (edges : BitVec 24) (s : State) : Host.Outcome State Fault Refusal :=
  .next (if s.glb.porst then s else s.sampleEnd.sampleBegin edges.toNat)

/-- What the device does at the block tick; `bad` lists the engines whose self-test slice mismatches, each with its tile
(R40, R64, R87, R114, R153, R232, R331). -/
def State.blockTick (s : State) (bad : List (Fin 16 × Fin 4)) : State :=
  let s := s.onGlb (fun g => { g with lastBlock := s.sidx })
  let s := (List.range 16).foldl (fun (s : State) e =>
    s.engTick ((bad.find? (fun p => p.1.val == e)).map (fun p => p.2)) e) s
  let s := s.ceTick.metersTick.outputsTick.pathsCheck
  let s := (List.range 32).foldl State.tdmPublish s
  let s := s.latchMap.asrcBlockTick.netBlockTick.pairBlockTick.dacTick.clkTick
  s.onRef (fun r => { r with wco := s.fld REF_XSEL.WCO })

/-- BLOCK_TICK: once at each block boundary. -/
def execBlockTick (bad : List (Fin 16 × Fin 4)) (s : State) : Host.Outcome State Fault Refusal :=
  .next (if s.atBoundary && s.glb.lastBlock != s.sidx && !s.glb.porst then s.blockTick bad else s)

end Sys2Proof.Machine
end

