-- ==== Sys2Proof/Machine/Vector.lean ====
section
/-! DEFINITION. The vector ALU instructions of an engine (R104, R105). -/

namespace Sys2Proof.Machine

/-- VADD (R104). -/
def execVadd (e : Eng) (pair : Bool) (q : Fin 4) (vd va vb : Fin 32) (cplx : Bool) (par : BitVec 16) (s : State) :
    Host.Outcome State Fault Refusal :=
  .next (s.vecOp e pair q vd va vb par (lane2 cplx (fun a b => a + b)))

/-- VSUB (R104). -/
def execVsub (e : Eng) (pair : Bool) (q : Fin 4) (vd va vb : Fin 32) (cplx : Bool) (par : BitVec 16) (s : State) :
    Host.Outcome State Fault Refusal :=
  .next (s.vecOp e pair q vd va vb par (lane2 cplx (fun a b => a - b)))

/-- VABS (R104). -/
def execVabs (e : Eng) (pair : Bool) (q : Fin 4) (vd va : Fin 32) (cplx : Bool) (par : BitVec 16) (s : State) :
    Host.Outcome State Fault Refusal :=
  .next (s.vecOp e pair q vd va va par (lane2 cplx (fun a _ => if a < 0 then -a else a)))

/-- VNEG (R104). -/
def execVneg (e : Eng) (pair : Bool) (q : Fin 4) (vd va : Fin 32) (cplx : Bool) (par : BitVec 16) (s : State) :
    Host.Outcome State Fault Refusal :=
  .next (s.vecOp e pair q vd va va par (lane2 cplx (fun a _ => -a)))

/-- VMIN (R104). -/
def execVmin (e : Eng) (pair : Bool) (q : Fin 4) (vd va vb : Fin 32) (cplx : Bool) (par : BitVec 16) (s : State) :
    Host.Outcome State Fault Refusal :=
  .next (s.vecOp e pair q vd va vb par (lane2 cplx (fun a b => if a ≤ b then a else b)))

/-- VMAX (R104). -/
def execVmax (e : Eng) (pair : Bool) (q : Fin 4) (vd va vb : Fin 32) (cplx : Bool) (par : BitVec 16) (s : State) :
    Host.Outcome State Fault Refusal :=
  .next (s.vecOp e pair q vd va vb par (lane2 cplx (fun a b => if a ≤ b then b else a)))

/-- VAND (R104). -/
def execVand (e : Eng) (pair : Bool) (q : Fin 4) (vd va vb : Fin 32) (par : BitVec 16) (s : State) :
    Host.Outcome State Fault Refusal :=
  .next (s.vecOp e pair q vd va vb par (fun a b => ((a &&& b).toNat, false)))

/-- VOR, also VMOV (R104). -/
def execVor (e : Eng) (pair : Bool) (q : Fin 4) (vd va vb : Fin 32) (par : BitVec 16) (s : State) :
    Host.Outcome State Fault Refusal :=
  .next (s.vecOp e pair q vd va vb par (fun a b => ((a ||| b).toNat, false)))

/-- VXOR (R104). -/
def execVxor (e : Eng) (pair : Bool) (q : Fin 4) (vd va vb : Fin 32) (par : BitVec 16) (s : State) :
    Host.Outcome State Fault Refusal :=
  .next (s.vecOp e pair q vd va vb par (fun a b => ((a ^^^ b).toNat, false)))

/-- VSHL: a times 2^n, saturating (R104, R105). -/
def execVshl (e : Eng) (pair : Bool) (q : Fin 4) (vd va : Fin 32) (cplx : Bool) (n : Fin 64) (par : BitVec 16) (s : State) :
    Host.Outcome State Fault Refusal :=
  .next (s.vecOp e pair q vd va va par (lane2 cplx (fun a _ => a * ((2 ^ n.val : Nat) : Int))))

/-- VSRA: arithmetic right shift, truncating toward minus infinity (R104, R105). -/
def execVsra (e : Eng) (pair : Bool) (q : Fin 4) (vd va : Fin 32) (cplx : Bool) (n : Fin 64) (par : BitVec 16) (s : State) :
    Host.Outcome State Fault Refusal :=
  .next (s.vecOp e pair q vd va va par (lane2 cplx (fun a _ => floorShift a n.val)))

/-- A vector compare (R104). -/
def vccHolds (cc : Vcc) (a b : Int) : Bool :=
  match cc with
  | .eq => a == b
  | .ne => a != b
  | .lt => decide (a < b)
  | .le => decide (a ≤ b)
  | .gt => decide (b < a)
  | .ge => decide (b ≤ a)

/-- A 16-bit mask from the lanes that satisfy `f`. -/
def maskOf (ls : List Nat) (f : Nat → Bool) : Nat := ls.foldl (fun m k => if f k then m + 2 ^ k else m) 0

/-- VCMP: 0 in disabled lanes and in lanes read in error; VCMP.C compares the real halves (R104, R105, R89). -/
def execVcmp (e : Eng) (pair : Bool) (q qd : Fin 4) (va vb : Fin 32) (cplx : Bool) (cc : Vcc) (par : BitVec 16) (s : State) :
    Host.Outcome State Fault Refusal :=
  let ce := isCE e
  .next (s.xslot e pair par.toNat (fun x =>
    [resX (.q qd) (maskOf (x.enabled ce q) (fun k =>
      !par.getLsbD k && (if cplx then vccHolds cc (reOf (x.vget ce va k)) (reOf (x.vget ce vb k))
        else vccHolds cc (sig40 (x.vget ce va k)) (sig40 (x.vget ce vb k))))) 1]))

/-- VSEL: every lane is written (R104). -/
def execVsel (e : Eng) (pair : Bool) (qn : Fin 4) (vd va vb : Fin 32) (par : BitVec 16) (s : State) :
    Host.Outcome State Fault Refusal :=
  let ce := isCE e
  .next (s.xslot e pair par.toNat (fun x => vecRes vd 1 ((lanesOf ce).map (fun k =>
    (k, if par.getLsbD k then 0 else if (x.qget qn).getLsbD k then (x.vget ce va k).toNat else (x.vget ce vb k).toNat, false)))))

end Sys2Proof.Machine
end

