-- ==== Sys2Proof/Machine/Dispatch.lean ====
section
/-! DEFINITION. One arm per command: the meaning it calls. -/

namespace Sys2Proof.Machine

def exec (i : Instr) (s : State) : Host.Outcome State Fault Refusal :=
  match i with
  | .sampleTick edges => Sys2Proof.Machine.execSampleTick edges s
  | .blockTick bad => Sys2Proof.Machine.execBlockTick bad s
  | .deadlineOverrun e => Sys2Proof.Machine.execDeadlineOverrun e s
  | .nop e imemParity => Sys2Proof.Machine.execNop e imemParity s
  | .illegalBundle e bundle => Sys2Proof.Machine.execIllegalBundle e bundle s
  | .addOp e pair gd ga b => Sys2Proof.Machine.execAddOp e pair gd ga b s
  | .subOp e pair gd ga b => Sys2Proof.Machine.execSubOp e pair gd ga b s
  | .andOp e pair gd ga b => Sys2Proof.Machine.execAndOp e pair gd ga b s
  | .orOp e pair gd ga b => Sys2Proof.Machine.execOrOp e pair gd ga b s
  | .xorOp e pair gd ga b => Sys2Proof.Machine.execXorOp e pair gd ga b s
  | .shl e pair gd ga b => Sys2Proof.Machine.execShl e pair gd ga b s
  | .shr e pair gd ga b => Sys2Proof.Machine.execShr e pair gd ga b s
  | .sra e pair gd ga b => Sys2Proof.Machine.execSra e pair gd ga b s
  | .cmp e pair ga b => Sys2Proof.Machine.execCmp e pair ga b s
  | .min e pair gd ga b => Sys2Proof.Machine.execMin e pair gd ga b s
  | .max e pair gd ga b => Sys2Proof.Machine.execMax e pair gd ga b s
  | .mul e pair gd ga b => Sys2Proof.Machine.execMul e pair gd ga b s
  | .clz e pair gd ga => Sys2Proof.Machine.execClz e pair gd ga s
  | .vadd e pair q vd va vb cplx par => Sys2Proof.Machine.execVadd e pair q vd va vb cplx par s
  | .vsub e pair q vd va vb cplx par => Sys2Proof.Machine.execVsub e pair q vd va vb cplx par s
  | .vabs e pair q vd va cplx par => Sys2Proof.Machine.execVabs e pair q vd va cplx par s
  | .vneg e pair q vd va cplx par => Sys2Proof.Machine.execVneg e pair q vd va cplx par s
  | .vmin e pair q vd va vb cplx par => Sys2Proof.Machine.execVmin e pair q vd va vb cplx par s
  | .vmax e pair q vd va vb cplx par => Sys2Proof.Machine.execVmax e pair q vd va vb cplx par s
  | .vand e pair q vd va vb par => Sys2Proof.Machine.execVand e pair q vd va vb par s
  | .vor e pair q vd va vb par => Sys2Proof.Machine.execVor e pair q vd va vb par s
  | .vxor e pair q vd va vb par => Sys2Proof.Machine.execVxor e pair q vd va vb par s
  | .vshl e pair q vd va cplx n par => Sys2Proof.Machine.execVshl e pair q vd va cplx n par s
  | .vsra e pair q vd va cplx n par => Sys2Proof.Machine.execVsra e pair q vd va cplx n par s
  | .vcmp e pair q qd va vb cplx cc par => Sys2Proof.Machine.execVcmp e pair q qd va vb cplx cc par s
  | .vsel e pair qn vd va vb par => Sys2Proof.Machine.execVsel e pair qn vd va vb par s
  | .mac e pair q an va vb cf par => Sys2Proof.Machine.execMac e pair q an va vb cf par s
  | .msu e pair q an va vb cf par => Sys2Proof.Machine.execMsu e pair q an va vb cf par s
  | .mpy e pair q an va vb cf par => Sys2Proof.Machine.execMpy e pair q an va vb cf par s
  | .mpyn e pair q an va vb cf par => Sys2Proof.Machine.execMpyn e pair q an va vb cf par s
  | .macD e pair q an va vb cf par => Sys2Proof.Machine.execMacD e pair q an va vb cf par s
  | .msuD e pair q an va vb cf par => Sys2Proof.Machine.execMsuD e pair q an va vb cf par s
  | .mpyD e pair q an va vb cf par => Sys2Proof.Machine.execMpyD e pair q an va vb cf par s
  | .mpynD e pair q an va vb cf par => Sys2Proof.Machine.execMpynD e pair q an va vb cf par s
  | .macDx e pair q an va vb cf par => Sys2Proof.Machine.execMacDx e pair q an va vb cf par s
  | .msuDx e pair q an va vb cf par => Sys2Proof.Machine.execMsuDx e pair q an va vb cf par s
  | .mpyDx e pair q an va vb cf par => Sys2Proof.Machine.execMpyDx e pair q an va vb cf par s
  | .mpynDx e pair q an va vb cf par => Sys2Proof.Machine.execMpynDx e pair q an va vb cf par s
  | .cmac e pair q an va vb cf conj par => Sys2Proof.Machine.execCmac e pair q an va vb cf conj par s
  | .cmsu e pair q an va vb cf conj par => Sys2Proof.Machine.execCmsu e pair q an va vb cf conj par s
  | .cmpy e pair q an va vb cf conj par => Sys2Proof.Machine.execCmpy e pair q an va vb cf conj par s
  | .cmpyn e pair q an va vb cf conj par => Sys2Proof.Machine.execCmpyn e pair q an va vb cf conj par s
  | .cmul e pair q vd va vb cf conj trunc par => Sys2Proof.Machine.execCmul e pair q vd va vb cf conj trunc par s
  | .aclr e pair q an => Sys2Proof.Machine.execAclr e pair q an s
  | .ald e pair q an va cplx par => Sys2Proof.Machine.execAld e pair q an va cplx par s
  | .sat e pair q vd an im sh trunc par => Sys2Proof.Machine.execSat e pair q vd an im sh trunc par s
  | .pack e pair q vd an fmt sh trunc par => Sys2Proof.Machine.execPack e pair q vd an fmt sh trunc par s
  | .kget e pair q vd p m upd noAdv dup bcast => Sys2Proof.Machine.execKget e pair q vd p m upd noAdv dup bcast s
  | .tlu e pair q vd p m upd vi banked par => Sys2Proof.Machine.execTlu e pair q vd p m upd vi banked par s
  | .vext e pair gd va lane h par => Sys2Proof.Machine.execVext e pair gd va lane h par s
  | .vins e pair vd gs lane h => Sys2Proof.Machine.execVins e pair vd gs lane h s
  | .vbrd e pair vd gs h => Sys2Proof.Machine.execVbrd e pair vd gs h s
  | .movi32 e gd imm => Sys2Proof.Machine.execMovi32 e gd imm s
  | .vbrdi e vd imm h => Sys2Proof.Machine.execVbrdi e vd imm h s
  | .ld e t p am => Sys2Proof.Machine.execLd e t p am s
  | .st e t p am par => Sys2Proof.Machine.execSt e t p am par s
  | .lsave e p am => Sys2Proof.Machine.execLsave e p am s
  | .lrest e p am => Sys2Proof.Machine.execLrest e p am s
  | .haul e gd p am => Sys2Proof.Machine.execHaul e gd p am s
  | .pmod e p am => Sys2Proof.Machine.execPmod e p am s
  | .movOp e dc d sc sr => Sys2Proof.Machine.execMovOp e dc d sc sr s
  | .movi e dc d imm => Sys2Proof.Machine.execMovi e dc d imm s
  | .movhi e dc d imm => Sys2Proof.Machine.execMovhi e dc d imm s
  | .movsTo e sr gs => Sys2Proof.Machine.execMovsTo e sr gs s
  | .movsFrom e gd sr => Sys2Proof.Machine.execMovsFrom e gd sr s
  | .branch e cc target => Sys2Proof.Machine.execBranch e cc target s
  | .branchReg e cc gs => Sys2Proof.Machine.execBranchReg e cc gs s
  | .call e cc gd target => Sys2Proof.Machine.execCall e cc gd target s
  | .bqz e q target => Sys2Proof.Machine.execBqz e q target s
  | .bqnz e q target => Sys2Proof.Machine.execBqnz e q target s
  | .reti e => Sys2Proof.Machine.execReti e s
  | .repImm e l count last => Sys2Proof.Machine.execRepImm e l count last s
  | .repG e l gs last => Sys2Proof.Machine.execRepG e l gs last s
  | .waitOp e => Sys2Proof.Machine.execWaitOp e s
  | .eob e => Sys2Proof.Machine.execEob e s
  | .hsync e mask => Sys2Proof.Machine.execHsync e mask s
  | .signal e imm => Sys2Proof.Machine.execSignal e imm s
  | .brk e imm => Sys2Proof.Machine.execBrk e imm s
  | .crd e gd g2 resp => Sys2Proof.Machine.execCrd e gd g2 resp s
  | .cwr e g2 gs resp => Sys2Proof.Machine.execCwr e g2 gs resp s
  | .cidle e => Sys2Proof.Machine.execCidle e s
  | .cevt e code gs => Sys2Proof.Machine.execCevt e code gs s
  | .interruptEntry e => Sys2Proof.Machine.execInterruptEntry e s
  | .engCtlRun e v => Sys2Proof.Machine.execEngCtlRun e v s
  | .engCtlStop e v => Sys2Proof.Machine.execEngCtlStop e v s
  | .engGrun mask => Sys2Proof.Machine.execEngGrun mask s
  | .engGstop mask => Sys2Proof.Machine.execEngGstop mask s
  | .engStarted e => Sys2Proof.Machine.execEngStarted e s
  | .engStopped e => Sys2Proof.Machine.execEngStopped e s
  | .engDoorbell e v => Sys2Proof.Machine.execEngDoorbell e v s
  | .engHostWindowWrite e w v be => Sys2Proof.Machine.execEngHostWindowWrite e w v be s
  | .kpsHostWrite e n w v be => Sys2Proof.Machine.execKpsHostWrite e n w v be s
  | .haulTransferEnd e k resp at_ => Sys2Proof.Machine.execHaulTransferEnd e k resp at_ s
  | .progSwapApply e => Sys2Proof.Machine.execProgSwapApply e s
  | .engSwapped e => Sys2Proof.Machine.execEngSwapped e s
  | .modeSet src tag args => Sys2Proof.Machine.execModeSet src tag args s
  | .modeChanged => Sys2Proof.Machine.execModeChanged s
  | .modeFadeEnd => Sys2Proof.Machine.execModeFadeEnd s
  | .safeEntered => Sys2Proof.Machine.execSafeEntered s
  | .glbRateWrite v => Sys2Proof.Machine.execGlbRateWrite v s
  | .rateChanged => Sys2Proof.Machine.execRateChanged s
  | .basicReset lvl v => Sys2Proof.Machine.execBasicReset lvl v s
  | .basicResetApply => Sys2Proof.Machine.execBasicResetApply s
  | .basicResetComplete => Sys2Proof.Machine.execBasicResetComplete s
  | .registerWrite off v be => Sys2Proof.Machine.execRegisterWrite off v be s
  | .pegClear off v => Sys2Proof.Machine.execPegClear off v s
  | .glbScntLoRead cycles => Sys2Proof.Machine.execGlbScntLoRead cycles s
  | .counterSnap src tag args => Sys2Proof.Machine.execCounterSnap src tag args s
  | .counterSnapCapture => Sys2Proof.Machine.execCounterSnapCapture s
  | .regWrite src tag args => Sys2Proof.Machine.execRegWrite src tag args s
  | .bootImage src tag args keyHash sigOk trained => Sys2Proof.Machine.execBootImage src tag args keyHash sigOk trained s
  | .fuseArm src tag args => Sys2Proof.Machine.execFuseArm src tag args s
  | .fuseWrite src tag args => Sys2Proof.Machine.execFuseWrite src tag args s
  | .fuseWritten ok => Sys2Proof.Machine.execFuseWritten ok s
  | .fuseArmExpiry => Sys2Proof.Machine.execFuseArmExpiry s
  | .engStart src tag args => Sys2Proof.Machine.execEngStart src tag args s
  | .engStop src tag args => Sys2Proof.Machine.execEngStop src tag args s
  | .paramSet src tag args => Sys2Proof.Machine.execParamSet src tag args s
  | .paramKerfEnd e n => Sys2Proof.Machine.execParamKerfEnd e n s
  | .progSwap src tag args => Sys2Proof.Machine.execProgSwap src tag args s
  | .routeSet src tag args => Sys2Proof.Machine.execRouteSet src tag args s
  | .routeClear src tag args => Sys2Proof.Machine.execRouteClear src tag args s
  | .meterSet src tag args => Sys2Proof.Machine.execMeterSet src tag args s
  | .sceneArm src tag args => Sys2Proof.Machine.execSceneArm src tag args s
  | .sceneArmDone => Sys2Proof.Machine.execSceneArmDone s
  | .sceneDisarm src tag args => Sys2Proof.Machine.execSceneDisarm src tag args s
  | .sceneCommit src tag args => Sys2Proof.Machine.execSceneCommit src tag args s
  | .schedCancel src tag args => Sys2Proof.Machine.execSchedCancel src tag args s
  | .limitSet src tag args => Sys2Proof.Machine.execLimitSet src tag args s
  | .limitClear src tag args => Sys2Proof.Machine.execLimitClear src tag args s
  | .raftApply src tag args => Sys2Proof.Machine.execRaftApply src tag args s
  | .raftPath src tag args => Sys2Proof.Machine.execRaftPath src tag args s
  | .raftRelay src tag args => Sys2Proof.Machine.execRaftRelay src tag args s
  | .raftBarrier src tag args => Sys2Proof.Machine.execRaftBarrier src tag args s
  | .raftRestore src tag args => Sys2Proof.Machine.execRaftRestore src tag args s
  | .raftReset src tag args => Sys2Proof.Machine.execRaftReset src tag args s
  | .raftSnap src tag args => Sys2Proof.Machine.execRaftSnap src tag args s
  | .flowRxSet src tag args => Sys2Proof.Machine.execFlowRxSet src tag args s
  | .flowTxSet src tag args => Sys2Proof.Machine.execFlowTxSet src tag args s
  | .flowClear src tag args => Sys2Proof.Machine.execFlowClear src tag args s
  | .sapList src tag args => Sys2Proof.Machine.execSapList src tag args s
  | .timeStep src tag args => Sys2Proof.Machine.execTimeStep src tag args s
  | .timeJoin src tag args => Sys2Proof.Machine.execTimeJoin src tag args s
  | .sdrTrain src tag args => Sys2Proof.Machine.execSdrTrain src tag args s
  | .tlyClear src tag args => Sys2Proof.Machine.execTlyClear src tag args s
  | .bulkTransfer src entry => Sys2Proof.Machine.execBulkTransfer src entry s
  | .bulkTransferDone h data moved => Sys2Proof.Machine.execBulkTransferDone h data moved s
  | .routeTableWrite n v => Sys2Proof.Machine.execRouteTableWrite n v s
  | .routeChangeApply => Sys2Proof.Machine.execRouteChangeApply s
  | .routeKerfEnd n => Sys2Proof.Machine.execRouteKerfEnd n s
  | .lndMcWrite m v => Sys2Proof.Machine.execLndMcWrite m v s
  | .meterRestart m => Sys2Proof.Machine.execMeterRestart m s
  | .tpholdExpiry m => Sys2Proof.Machine.execTpholdExpiry m s
  | .lndMclr v => Sys2Proof.Machine.execLndMclr v s
  | .lndXmclr v => Sys2Proof.Machine.execLndXmclr v s
  | .generatorWrite n w v => Sys2Proof.Machine.execGeneratorWrite n w v s
  | .lndToneWrite n v => Sys2Proof.Machine.execLndToneWrite n v s
  | .generatorApply n => Sys2Proof.Machine.execGeneratorApply n s
  | .generatorRampEnd n => Sys2Proof.Machine.execGeneratorRampEnd n s
  | .scnBufWrite n w v => Sys2Proof.Machine.execScnBufWrite n w v s
  | .scnApplied => Sys2Proof.Machine.execScnApplied s
  | .scheduledApply h => Sys2Proof.Machine.execScheduledApply h s
  | .limiterWrite k w v => Sys2Proof.Machine.execLimiterWrite k w v s
  | .limiterApply k => Sys2Proof.Machine.execLimiterApply k s
  | .limiterCrossfadeEnd k => Sys2Proof.Machine.execLimiterCrossfadeEnd k s
  | .stPathWrite n expert v => Sys2Proof.Machine.execStPathWrite n expert v s
  | .stPathApply n => Sys2Proof.Machine.execStPathApply n s
  | .stGainKerfEnd n => Sys2Proof.Machine.execStGainKerfEnd n s
  | .tdmCtlWrite p r v => Sys2Proof.Machine.execTdmCtlWrite p r v s
  | .tdmEnableApply p => Sys2Proof.Machine.execTdmEnableApply p s
  | .tdmRunEntry p => Sys2Proof.Machine.execTdmRunEntry p s
  | .tdmOffEntry p => Sys2Proof.Machine.execTdmOffEntry p s
  | .tdmFrameStart p phase edge sdi => Sys2Proof.Machine.execTdmFrameStart p phase edge sdi s
  | .tdmClkLost p fsync => Sys2Proof.Machine.execTdmClkLost p fsync s
  | .tdmMeasWindow p bclk frate => Sys2Proof.Machine.execTdmMeasWindow p bclk frate s
  | .tdmClkRestored p => Sys2Proof.Machine.execTdmClkRestored p s
  | .tdmSlip q => Sys2Proof.Machine.execTdmSlip q s
  | .tdmTsLoRead p => Sys2Proof.Machine.execTdmTsLoRead p s
  | .tdmSyncDetected p => Sys2Proof.Machine.execTdmSyncDetected p s
  | .tdmSyncConfirm p => Sys2Proof.Machine.execTdmSyncConfirm p s
  | .tdmSyncConfirmApply p => Sys2Proof.Machine.execTdmSyncConfirmApply p s
  | .tdmSyncLost p => Sys2Proof.Machine.execTdmSyncLost p s
  | .tdmSyncRegained p => Sys2Proof.Machine.execTdmSyncRegained p s
  | .tdmMaskWrite p tx expert v => Sys2Proof.Machine.execTdmMaskWrite p tx expert v s
  | .tdmMaskApply q => Sys2Proof.Machine.execTdmMaskApply q s
  | .boomPortsWrite b v => Sys2Proof.Machine.execBoomPortsWrite b v s
  | .boomXmemWrite b m v => Sys2Proof.Machine.execBoomXmemWrite b m v s
  | .boomCfgWrite b expert v => Sys2Proof.Machine.execBoomCfgWrite b expert v s
  | .boomApply b => Sys2Proof.Machine.execBoomApply b s
  | .asrcBportWrite p v => Sys2Proof.Machine.execAsrcBportWrite p v s
  | .asrcXgrpWrite g w v => Sys2Proof.Machine.execAsrcXgrpWrite g w v s
  | .asrcXchWrite c v => Sys2Proof.Machine.execAsrcXchWrite c v s
  | .asrcChannelApply c => Sys2Proof.Machine.execAsrcChannelApply c s
  | .asrcGroupApply g => Sys2Proof.Machine.execAsrcGroupApply g s
  | .asrcLocked g hold flow id => Sys2Proof.Machine.execAsrcLocked g hold flow id s
  | .asrcStep g flow id => Sys2Proof.Machine.execAsrcStep g flow id s
  | .asrcRange g => Sys2Proof.Machine.execAsrcRange g s
  | .asrcPilotChanged g flow id => Sys2Proof.Machine.execAsrcPilotChanged g flow id s
  | .asrcSourceLost g => Sys2Proof.Machine.execAsrcSourceLost g s
  | .asrcHoldExpired g => Sys2Proof.Machine.execAsrcHoldExpired g s
  | .asrcStray g flow id => Sys2Proof.Machine.execAsrcStray g flow id s
  | .asrcStreamRejoin g flow id => Sys2Proof.Machine.execAsrcStreamRejoin g flow id s
  | .raftCtlWrite v => Sys2Proof.Machine.execRaftCtlWrite v s
  | .raftEnableApply => Sys2Proof.Machine.execRaftEnableApply s
  | .raftLinkUp west node nside inv miswired rate => Sys2Proof.Machine.execRaftLinkUp west node nside inv miswired rate s
  | .raftFrameRx west cw fcs slots lag rt => Sys2Proof.Machine.execRaftFrameRx west cw fcs slots lag rt s
  | .raftLinkDown west cause => Sys2Proof.Machine.execRaftLinkDown west cause s
  | .raftFormed ring phase => Sys2Proof.Machine.execRaftFormed ring phase s
  | .raftWrapStart => Sys2Proof.Machine.execRaftWrapStart s
  | .raftWrap => Sys2Proof.Machine.execRaftWrap s
  | .raftWtrExpiry => Sys2Proof.Machine.execRaftWtrExpiry s
  | .raftUnwrap => Sys2Proof.Machine.execRaftUnwrap s
  | .raftTokenResend => Sys2Proof.Machine.execRaftTokenResend s
  | .raftBarrierRelease => Sys2Proof.Machine.execRaftBarrierRelease s
  | .raftBarrierTimeout pos => Sys2Proof.Machine.execRaftBarrierTimeout pos s
  | .raftApplyAtX => Sys2Proof.Machine.execRaftApplyAtX s
  | .raftResetRipple => Sys2Proof.Machine.execRaftResetRipple s
  | .snapshotAtMarker => Sys2Proof.Machine.execSnapshotAtMarker s
  | .netFlowWrite tx f w v => Sys2Proof.Machine.execNetFlowWrite tx f w v s
  | .netFlowApply tx f => Sys2Proof.Machine.execNetFlowApply tx f s
  | .netPacketRx mac frame len tag taken edges => Sys2Proof.Machine.execNetPacketRx mac frame len tag taken edges s
  | .netFlowLost f => Sys2Proof.Machine.execNetFlowLost f s
  | .controlFrameTx mac ptp tag edges => Sys2Proof.Machine.execControlFrameTx mac ptp tag edges s
  | .netLinkDown mac => Sys2Proof.Machine.execNetLinkDown mac s
  | .netLinkUp mac => Sys2Proof.Machine.execNetLinkUp mac s
  | .netArpFail f => Sys2Proof.Machine.execNetArpFail f s
  | .sapAnnounce => Sys2Proof.Machine.execSapAnnounce s
  | .netIrqTimeRead n => Sys2Proof.Machine.execNetIrqTimeRead n s
  | .timTxqRead n => Sys2Proof.Machine.execTimTxqRead n s
  | .refSelWrite v => Sys2Proof.Machine.execRefSelWrite v s
  | .refXcandWrite c w v => Sys2Proof.Machine.execRefXcandWrite c w v s
  | .refMonitorWindow meas dco phase slewing => Sys2Proof.Machine.execRefMonitorWindow meas dco phase slewing s
  | .refLossOfSignal c => Sys2Proof.Machine.execRefLossOfSignal c s
  | .refPhaseHit c => Sys2Proof.Machine.execRefPhaseHit c s
  | .refSwitchEnd phase => Sys2Proof.Machine.execRefSwitchEnd phase s
  | .refLocked => Sys2Proof.Machine.execRefLocked s
  | .refBwStep => Sys2Proof.Machine.execRefBwStep s
  | .refSettleEnd => Sys2Proof.Machine.execRefSettleEnd s
  | .refPullinEnd => Sys2Proof.Machine.execRefPullinEnd s
  | .refLost => Sys2Proof.Machine.execRefLost s
  | .refQualChanged c => Sys2Proof.Machine.execRefQualChanged c s
  | .refLoRead r => Sys2Proof.Machine.execRefLoRead r s
  | .timOffsetMeasurement offset epoch gm cls inc => Sys2Proof.Machine.execTimOffsetMeasurement offset epoch gm cls inc s
  | .timMasterLost => Sys2Proof.Machine.execTimMasterLost s
  | .timStepped => Sys2Proof.Machine.execTimStepped s
  | .timJoined => Sys2Proof.Machine.execTimJoined s
  | .timeJoinTimeout => Sys2Proof.Machine.execTimeJoinTimeout s
  | .timXincHiWrite v => Sys2Proof.Machine.execTimXincHiWrite v s
  | .timeWord0Read r edges => Sys2Proof.Machine.execTimeWord0Read r edges s
  | .ppsOutPulse => Sys2Proof.Machine.execPpsOutPulse s
  | .ppsInEdge edges => Sys2Proof.Machine.execPpsInEdge edges s
  | .pairCtlWrite v => Sys2Proof.Machine.execPairCtlWrite v s
  | .pairResync => Sys2Proof.Machine.execPairResync s
  | .pairIlkHighTimeout => Sys2Proof.Machine.execPairIlkHighTimeout s
  | .pairClaimWaitEnd high => Sys2Proof.Machine.execPairClaimWaitEnd high s
  | .pairActive => Sys2Proof.Machine.execPairActive s
  | .pairIlkTestPulse rose fell => Sys2Proof.Machine.execPairIlkTestPulse rose fell s
  | .pairHbLost absent => Sys2Proof.Machine.execPairHbLost absent s
  | .pairHbRestored => Sys2Proof.Machine.execPairHbRestored s
  | .pairWatchdogLapse => Sys2Proof.Machine.execPairWatchdogLapse s
  | .pairDigestRx m => Sys2Proof.Machine.execPairDigestRx m s
  | .pairGrpdigRx m => Sys2Proof.Machine.execPairGrpdigRx m s
  | .pairStateRx m side groups => Sys2Proof.Machine.execPairStateRx m side groups s
  | .pairCopyctlRx m => Sys2Proof.Machine.execPairCopyctlRx m s
  | .pairHealthRx m => Sys2Proof.Machine.execPairHealthRx m s
  | .pairMissingDigest => Sys2Proof.Machine.execPairMissingDigest s
  | .pairMsgLost => Sys2Proof.Machine.execPairMsgLost s
  | .pairCopyPhase ok items => Sys2Proof.Machine.execPairCopyPhase ok items s
  | .pairCheckingTimeout => Sys2Proof.Machine.execPairCheckingTimeout s
  | .pairHealthPublish => Sys2Proof.Machine.execPairHealthPublish s
  | .hostCmdSubmit n v => Sys2Proof.Machine.execHostCmdSubmit n v s
  | .hostDcplRead => Sys2Proof.Machine.execHostDcplRead s
  | .hostDevqRead => Sys2Proof.Machine.execHostDevqRead s
  | .hostRingWrite r w v => Sys2Proof.Machine.execHostRingWrite r w v s
  | .hostDb r idx entries err => Sys2Proof.Machine.execHostDb r idx entries err s
  | .hostEvenWrite n v => Sys2Proof.Machine.execHostEvenWrite n v s
  | .hostFlr => Sys2Proof.Machine.execHostFlr s
  | .hostLinkDown => Sys2Proof.Machine.execHostLinkDown s
  | .hostLinkUp => Sys2Proof.Machine.execHostLinkUp s
  | .matrixTransaction m id write locked bar2 addr len data => Sys2Proof.Machine.execMatrixTransaction m id write locked bar2 addr len data s
  | .matrixResponse m id corr unc fate => Sys2Proof.Machine.execMatrixResponse m id corr unc fate s
  | .mtxLockBroken t => Sys2Proof.Machine.execMtxLockBroken t s
  | .mtxXmrst v => Sys2Proof.Machine.execMtxXmrst v s
  | .mtxMasterIsolated m cycles beats => Sys2Proof.Machine.execMtxMasterIsolated m cycles beats s
  | .mtxErr0Read => Sys2Proof.Machine.execMtxErr0Read s
  | .yardXpwrWrite w v => Sys2Proof.Machine.execYardXpwrWrite w v s
  | .yardBankReady b => Sys2Proof.Machine.execYardBankReady b s
  | .cruiseStep r => Sys2Proof.Machine.execCruiseStep r s
  | .sdrTrainingEnd c ok => Sys2Proof.Machine.execSdrTrainingEnd c ok s
  | .sdrChannelFail c => Sys2Proof.Machine.execSdrChannelFail c s
  | .dacCtlWrite v => Sys2Proof.Machine.execDacCtlWrite v s
  | .dacEnableApply d => Sys2Proof.Machine.execDacEnableApply d s
  | .dacGainHoldEnd d => Sys2Proof.Machine.execDacGainHoldEnd d s
  | .dacclrAssert => Sys2Proof.Machine.execDacclrAssert s
  | .dacclrRelease => Sys2Proof.Machine.execDacclrRelease s
  | .dacRefFault => Sys2Proof.Machine.execDacRefFault s
  | .dacRefRecovered => Sys2Proof.Machine.execDacRefRecovered s
  | .dacShort d leg => Sys2Proof.Machine.execDacShort d leg s
  | .dacRetryTest d ok => Sys2Proof.Machine.execDacRetryTest d ok s
  | .dacOpen d => Sys2Proof.Machine.execDacOpen d s
  | .dacOpenRecovered d => Sys2Proof.Machine.execDacOpenRecovered d s
  | .dacVddaValid => Sys2Proof.Machine.execDacVddaValid s
  | .tallyRecordWrite err => Sys2Proof.Machine.execTallyRecordWrite err s
  | .tlyWin0Read => Sys2Proof.Machine.execTlyWin0Read s
  | .tlyWin15Read => Sys2Proof.Machine.execTlyWin15Read s
  | .scnLastLoRead => Sys2Proof.Machine.execScnLastLoRead s
  | .supWarn r passed begun => Sys2Proof.Machine.execSupWarn r passed begun s
  | .supRecovered r mv us => Sys2Proof.Machine.execSupRecovered r mv us s
  | .supReset r mv begun => Sys2Proof.Machine.execSupReset r mv begun s
  | .supSenseMismatch => Sys2Proof.Machine.execSupSenseMismatch s
  | .clkFault => Sys2Proof.Machine.execClkFault s
  | .xclkRestored => Sys2Proof.Machine.execXclkRestored s
  | .thmReading t begun => Sys2Proof.Machine.execThmReading t begun s
  | .thmClear => Sys2Proof.Machine.execThmClear s
  | .porstAssert begun => Sys2Proof.Machine.execPorstAssert begun s
  | .porstRelease bootsel testEn fam flash trained => Sys2Proof.Machine.execPorstRelease bootsel testEn fam flash trained s
  | .ceReadyReport => Sys2Proof.Machine.execCeReadyReport s
  | .bootCeTimeout => Sys2Proof.Machine.execBootCeTimeout s
  | .debugAccessRequest e r => Sys2Proof.Machine.execDebugAccessRequest e r s
  | .announceReceiptTimeout => Sys2Proof.Machine.execAnnounceReceiptTimeout s
  | .ilkChange high => Sys2Proof.Machine.execIlkChange high s
  | .ilkStuckLowTimeout => Sys2Proof.Machine.execIlkStuckLowTimeout s
  | .hbInPeriod period high => Sys2Proof.Machine.execHbInPeriod period high s
  | .senseReadingsAgree => Sys2Proof.Machine.execSenseReadingsAgree s

end Sys2Proof.Machine
end

