-- ==== Sys2Proof/WellFormed.lean ====
section
/-! DEFINITION. Commands that can reach the block: lists have the lengths that the spec gives them. The meanings are total
all the same. -/

namespace Sys2Proof

/-- No key twice. -/
def distinctKeys : List Nat → Bool
  | [] => true
  | a :: t => !t.contains a && distinctKeys t

/-- A command carries at most 14 argument words (R365). -/
def argsWf (args : List Word) : Bool := decide (args.length ≤ 14)

/-- A boot image has a header of 256 bytes (R459). -/
def imageWf (m : BootImg) : Bool := m.header.length == 64

/-- A command that can reach the block. -/
def Instr.wf : Instr → Bool
  | .sampleTick .. => true
  | .blockTick bad => distinctKeys (bad.map (fun p => p.1.val))
  | .deadlineOverrun .. => true
  | .nop .. => true
  | .illegalBundle .. => true
  | .addOp .. => true
  | .subOp .. => true
  | .andOp .. => true
  | .orOp .. => true
  | .xorOp .. => true
  | .shl .. => true
  | .shr .. => true
  | .sra .. => true
  | .cmp .. => true
  | .min .. => true
  | .max .. => true
  | .mul .. => true
  | .clz .. => true
  | .vadd .. => true
  | .vsub .. => true
  | .vabs .. => true
  | .vneg .. => true
  | .vmin .. => true
  | .vmax .. => true
  | .vand .. => true
  | .vor .. => true
  | .vxor .. => true
  | .vshl .. => true
  | .vsra .. => true
  | .vcmp .. => true
  | .vsel .. => true
  | .mac .. => true
  | .msu .. => true
  | .mpy .. => true
  | .mpyn .. => true
  | .macD .. => true
  | .msuD .. => true
  | .mpyD .. => true
  | .mpynD .. => true
  | .macDx .. => true
  | .msuDx .. => true
  | .mpyDx .. => true
  | .mpynDx .. => true
  | .cmac .. => true
  | .cmsu .. => true
  | .cmpy .. => true
  | .cmpyn .. => true
  | .cmul .. => true
  | .aclr .. => true
  | .ald .. => true
  | .sat .. => true
  | .pack .. => true
  | .kget .. => true
  | .tlu .. => true
  | .vext .. => true
  | .vins .. => true
  | .vbrd .. => true
  | .movi32 .. => true
  | .vbrdi .. => true
  | .ld .. => true
  | .st .. => true
  | .lsave .. => true
  | .lrest .. => true
  | .haul .. => true
  | .pmod .. => true
  | .movOp .. => true
  | .movi .. => true
  | .movhi .. => true
  | .movsTo .. => true
  | .movsFrom .. => true
  | .branch .. => true
  | .branchReg .. => true
  | .call .. => true
  | .bqz .. => true
  | .bqnz .. => true
  | .reti .. => true
  | .repImm .. => true
  | .repG .. => true
  | .waitOp .. => true
  | .eob .. => true
  | .hsync .. => true
  | .signal .. => true
  | .brk .. => true
  | .crd .. => true
  | .cwr .. => true
  | .cidle .. => true
  | .cevt .. => true
  | .interruptEntry .. => true
  | .engCtlRun .. => true
  | .engCtlStop .. => true
  | .engGrun .. => true
  | .engGstop .. => true
  | .engStarted .. => true
  | .engStopped .. => true
  | .engDoorbell .. => true
  | .engHostWindowWrite .. => true
  | .kpsHostWrite .. => true
  | .haulTransferEnd .. => true
  | .progSwapApply .. => true
  | .engSwapped .. => true
  | .modeSet _ _ args => argsWf args
  | .modeChanged => true
  | .modeFadeEnd => true
  | .safeEntered => true
  | .glbRateWrite .. => true
  | .rateChanged => true
  | .basicReset lvl _ => lvl.toNat % 4 == 0
  | .basicResetApply => true
  | .basicResetComplete => true
  | .registerWrite off _ _ => off.toNat % 4 == 0
  | .pegClear off _ => off.toNat % 4 == 0
  | .glbScntLoRead .. => true
  | .counterSnap _ _ args => argsWf args
  | .counterSnapCapture => true
  | .regWrite _ _ args => argsWf args
  | .bootImage _ _ args _ _ _ => argsWf args
  | .fuseArm _ _ args => argsWf args
  | .fuseWrite _ _ args => argsWf args
  | .fuseWritten .. => true
  | .fuseArmExpiry => true
  | .engStart _ _ args => argsWf args
  | .engStop _ _ args => argsWf args
  | .paramSet _ _ args => argsWf args
  | .paramKerfEnd .. => true
  | .progSwap _ _ args => argsWf args
  | .routeSet _ _ args => argsWf args
  | .routeClear _ _ args => argsWf args
  | .meterSet _ _ args => argsWf args
  | .sceneArm _ _ args => argsWf args
  | .sceneArmDone => true
  | .sceneDisarm _ _ args => argsWf args
  | .sceneCommit _ _ args => argsWf args
  | .schedCancel _ _ args => argsWf args
  | .limitSet _ _ args => argsWf args
  | .limitClear _ _ args => argsWf args
  | .raftApply _ _ args => argsWf args
  | .raftPath _ _ args => argsWf args
  | .raftRelay _ _ args => argsWf args
  | .raftBarrier _ _ args => argsWf args
  | .raftRestore _ _ args => argsWf args
  | .raftReset _ _ args => argsWf args
  | .raftSnap _ _ args => argsWf args
  | .flowRxSet _ _ args => argsWf args
  | .flowTxSet _ _ args => argsWf args
  | .flowClear _ _ args => argsWf args
  | .sapList _ _ args => argsWf args
  | .timeStep _ _ args => argsWf args
  | .timeJoin _ _ args => argsWf args
  | .sdrTrain _ _ args => argsWf args
  | .tlyClear _ _ args => argsWf args
  | .bulkTransfer _ entry => entry.length == 16
  | .bulkTransferDone _ data _ => decide (data.length ≤ 2 ^ 24)
  | .routeTableWrite .. => true
  | .routeChangeApply => true
  | .routeKerfEnd .. => true
  | .lndMcWrite .. => true
  | .meterRestart .. => true
  | .tpholdExpiry .. => true
  | .lndMclr .. => true
  | .lndXmclr .. => true
  | .generatorWrite .. => true
  | .lndToneWrite .. => true
  | .generatorApply .. => true
  | .generatorRampEnd .. => true
  | .scnBufWrite .. => true
  | .scnApplied => true
  | .scheduledApply .. => true
  | .limiterWrite .. => true
  | .limiterApply .. => true
  | .limiterCrossfadeEnd .. => true
  | .stPathWrite .. => true
  | .stPathApply .. => true
  | .stGainKerfEnd .. => true
  | .tdmCtlWrite .. => true
  | .tdmEnableApply .. => true
  | .tdmRunEntry .. => true
  | .tdmOffEntry .. => true
  | .tdmFrameStart _ _ _ sdi => decide (1 ≤ sdi.length) && decide (sdi.length ≤ 2048)
  | .tdmClkLost .. => true
  | .tdmMeasWindow .. => true
  | .tdmClkRestored .. => true
  | .tdmSlip .. => true
  | .tdmTsLoRead .. => true
  | .tdmSyncDetected .. => true
  | .tdmSyncConfirm .. => true
  | .tdmSyncConfirmApply .. => true
  | .tdmSyncLost .. => true
  | .tdmSyncRegained .. => true
  | .tdmMaskWrite .. => true
  | .tdmMaskApply .. => true
  | .boomPortsWrite .. => true
  | .boomXmemWrite .. => true
  | .boomCfgWrite .. => true
  | .boomApply .. => true
  | .asrcBportWrite .. => true
  | .asrcXgrpWrite .. => true
  | .asrcXchWrite .. => true
  | .asrcChannelApply .. => true
  | .asrcGroupApply .. => true
  | .asrcLocked .. => true
  | .asrcStep .. => true
  | .asrcRange .. => true
  | .asrcPilotChanged .. => true
  | .asrcSourceLost .. => true
  | .asrcHoldExpired .. => true
  | .asrcStray .. => true
  | .asrcStreamRejoin .. => true
  | .raftCtlWrite .. => true
  | .raftEnableApply => true
  | .raftLinkUp .. => true
  | .raftFrameRx _ _ _ slots _ _ => distinctKeys (slots.map (fun w => w.slot.val))
  | .raftLinkDown .. => true
  | .raftFormed ring _ => decide (ring.length ≤ 64) && distinctKeys (ring.map (fun h => h.pos.val))
  | .raftWrapStart => true
  | .raftWrap => true
  | .raftWtrExpiry => true
  | .raftUnwrap => true
  | .raftTokenResend => true
  | .raftBarrierRelease => true
  | .raftBarrierTimeout .. => true
  | .raftApplyAtX => true
  | .raftResetRipple => true
  | .snapshotAtMarker => true
  | .netFlowWrite .. => true
  | .netFlowApply .. => true
  | .netPacketRx .. => true
  | .netFlowLost .. => true
  | .controlFrameTx .. => true
  | .netLinkDown .. => true
  | .netLinkUp .. => true
  | .netArpFail .. => true
  | .sapAnnounce => true
  | .netIrqTimeRead .. => true
  | .timTxqRead .. => true
  | .refSelWrite .. => true
  | .refXcandWrite .. => true
  | .refMonitorWindow meas _ _ _ => distinctKeys (meas.map (fun m => m.c.val))
  | .refLossOfSignal .. => true
  | .refPhaseHit .. => true
  | .refSwitchEnd .. => true
  | .refLocked => true
  | .refBwStep => true
  | .refSettleEnd => true
  | .refPullinEnd => true
  | .refLost => true
  | .refQualChanged .. => true
  | .refLoRead .. => true
  | .timOffsetMeasurement .. => true
  | .timMasterLost => true
  | .timStepped => true
  | .timJoined => true
  | .timeJoinTimeout => true
  | .timXincHiWrite .. => true
  | .timeWord0Read .. => true
  | .ppsOutPulse => true
  | .ppsInEdge .. => true
  | .pairCtlWrite .. => true
  | .pairResync => true
  | .pairIlkHighTimeout => true
  | .pairClaimWaitEnd .. => true
  | .pairActive => true
  | .pairIlkTestPulse .. => true
  | .pairHbLost .. => true
  | .pairHbRestored => true
  | .pairWatchdogLapse => true
  | .pairDigestRx .. => true
  | .pairGrpdigRx .. => true
  | .pairStateRx .. => true
  | .pairCopyctlRx .. => true
  | .pairHealthRx .. => true
  | .pairMissingDigest => true
  | .pairMsgLost => true
  | .pairCopyPhase .. => true
  | .pairCheckingTimeout => true
  | .pairHealthPublish => true
  | .hostCmdSubmit .. => true
  | .hostDcplRead => true
  | .hostDevqRead => true
  | .hostRingWrite .. => true
  | .hostDb _ _ entries _ => entries.all (fun e => e.length == 16)
  | .hostEvenWrite .. => true
  | .hostFlr => true
  | .hostLinkDown => true
  | .hostLinkUp => true
  | .matrixTransaction _ _ write _ _ addr len data => decide (1 ≤ len.val) && addr.toNat / 512 == (addr.toNat + len.val - 1) / 512 && data.length == (if write then len.val else 0)
  | .matrixResponse .. => true
  | .mtxLockBroken .. => true
  | .mtxXmrst .. => true
  | .mtxMasterIsolated _ _ beats => distinctKeys (beats.map (fun b => b.1.val))
  | .mtxErr0Read => true
  | .yardXpwrWrite .. => true
  | .yardBankReady .. => true
  | .cruiseStep .. => true
  | .sdrTrainingEnd .. => true
  | .sdrChannelFail .. => true
  | .dacCtlWrite .. => true
  | .dacEnableApply .. => true
  | .dacGainHoldEnd .. => true
  | .dacclrAssert => true
  | .dacclrRelease => true
  | .dacRefFault => true
  | .dacRefRecovered => true
  | .dacShort .. => true
  | .dacRetryTest .. => true
  | .dacOpen .. => true
  | .dacOpenRecovered .. => true
  | .dacVddaValid => true
  | .tallyRecordWrite .. => true
  | .tlyWin0Read => true
  | .tlyWin15Read => true
  | .scnLastLoRead => true
  | .supWarn .. => true
  | .supRecovered .. => true
  | .supReset .. => true
  | .supSenseMismatch => true
  | .clkFault => true
  | .xclkRestored => true
  | .thmReading t _ => t.length == 8
  | .thmClear => true
  | .porstAssert .. => true
  | .porstRelease _ _ _ flash _ => (match flash with
    | none => true
    | some (a, b) => imageWf a && imageWf b)
  | .ceReadyReport => true
  | .bootCeTimeout => true
  | .debugAccessRequest .. => true
  | .announceReceiptTimeout => true
  | .ilkChange .. => true
  | .ilkStuckLowTimeout => true
  | .hbInPeriod .. => true
  | .senseReadingsAgree => true

end Sys2Proof
end

