-- ==== Sys2Proof/Safety.lean ====
section
/-! DEFINITION. What a state must satisfy for statements about every step, what a safe step is, and the terms in which the
statements say what a command does and leaves. -/

namespace Sys2Proof.Machine

/-- The far memories are in canonical form: addresses strictly rising, and no byte listed that reads as an unlisted one. -/
def State.farWf (s : State) : Prop := Memory.wf s.far.yard = true ∧ Memory.wf s.far.sdr = true

/-- Every waiting command is one that can reach the block. -/
def State.queueWf (s : State) : Prop := ∀ c ∈ s.pending, c.wf = true

/-- A step that goes on. -/
def State.goesOn (s : State) : Prop := ∃ t, step s = .next t

/-- The command answers a next state, and that state has the property. -/
def State.runs (s : State) (c : Instr) (P : State → Prop) : Prop := ∃ t, exec c s = .next t ∧ P t

/-- The engine `e` once the bundle of an X half has completed: at once when nothing is paired with it, else when an empty
Y half completes the bundle (R93). -/
def State.bundleOf (t : State) (e : Nat) (pair : Bool) : Engine := (if pair then t.endBundle e else t).engOf e

/-! Engines -/

/-- A result with value `v` is on its way to `d` and is seen once `n` more bundles have completed (R71). -/
def Engine.coming (x : Engine) (d : Dest) (n v : Nat) : Prop := ∃ r ∈ x.infl, r.dst = d ∧ r.left = n ∧ r.val = v

/-- No X-slot result of the bundle in issue goes to the register of `d`; it would be the one that stays (R72). -/
def Engine.clearOf (x : Engine) (d : Dest) : Prop := ∀ r ∈ x.curX, r.dst.regKey ≠ d.regKey

/-! Events and commands -/

/-- The direct event FIFO selects `code` and has room for `n` more events. -/
def State.hears (s : State) (code n : Nat) : Prop :=
  s.flag (HOST_XEVR.FIFO code) = true ∧ s.host.devq.length + n ≤ 64

/-- The direct event FIFO of `t` holds the event that `s` raises with these contents. -/
def State.told (t s : State) (code source : Nat) (a0 a1 : Word) : Prop :=
  ∃ lost, (s.mkEvent code source a0 a1, lost) ∈ t.host.devq

/-- Every command in progress came by the direct port, so that its completion raises no event. -/
def State.direct (s : State) : Prop := ∀ c ∈ s.host.cmds, c.src = directPort

/-- The command of source `src` as its acceptance sees it (R366). -/
def State.ctxOf (s : State) (src op : Nat) (tag : Word) (args : List Word) : Ctx :=
  ⟨src, if src = directPort then directPort else s.fld (HOST_RING.CRING src), src * 2 ^ 25 + s.nextSeqOf src, op, tag, args⟩

/-- Source `src` gives a command with opcode `op` and these arguments, its next sequence is one of R366, and it passes every
check of acceptance that is common to all commands (R366, R370, R373, R383-R387). -/
def State.admits (s : State) (src op : Nat) (args : List Word) : Bool :=
  (s.takeCmd src).2.isSome && decide (s.nextSeqOf src < 2 ^ 25) && ((s.takeCmd src).1.checkCmd (s.ctxOf src op 0 args) false).isNone &&
    (s.takeCmd src).1.schedModeOk (s.ctxOf src op 0 args)

/-- The direct completion FIFO of `t` holds the single completion of command `c` with this status and details (R367). -/
def State.answers (t s : State) (c : Ctx) (status d0 d1 : Nat) : Prop :=
  ({ done := true, acc := true, epoch := s.epoch, opcode := c.opcode, status := status, handle := c.handle, tag := c.tag,
     sidx := s.sidx, d0 := BitVec.ofNat 32 d0, d1 := BitVec.ofNat 32 d1 } : Cpl) ∈ t.host.dcpl

/-- The parts of the device that statements about what a command leaves unchanged speak of. -/
inductive Part where
  | regs | staged | clock | glb | host | tly | eng | scn | lnd | far | out | str | net | raft | ref | tim | pair | dac | sup
  | fuse | boot
  deriving DecidableEq, Repr

/-- A part is the same in two states. -/
def State.same (s t : State) : Part → Prop
  | .regs => t.regs = s.regs
  | .staged => t.stg = s.stg ∧ t.stgB = s.stgB ∧ t.stgAt = s.stgAt
  | .clock => t.sidx = s.sidx ∧ t.time = s.time
  | .glb => t.glb = s.glb
  | .host => t.host = s.host
  | .tly => t.tly = s.tly
  | .eng => t.eng = s.eng
  | .scn => t.scn = s.scn
  | .lnd => t.lnd = s.lnd
  | .far => t.far = s.far
  | .out => t.out = s.out
  | .str => t.str = s.str
  | .net => t.net = s.net
  | .raft => t.raft = s.raft
  | .ref => t.ref = s.ref
  | .tim => t.tim = s.tim
  | .pair => t.pair = s.pair
  | .dac => t.dac = s.dac
  | .sup => t.sup = s.sup
  | .fuse => t.fuse = s.fuse
  | .boot => t.boot = s.boot

/-- Every part but those in `l` is the same. -/
def State.keepsBut (s t : State) (l : List Part) : Prop := ∀ p, p ∉ l → s.same t p

end Sys2Proof.Machine
end

