-- ==== Sys2Proof/Certificates/Slice0/Obligations.lean ====
section
/-! DEFINITION. The statements for the provers. -/

open Sys2Proof Sys2Proof.Machine

/-- A step runs the command at the front of the queue on the state with the rest of the queue. -/
def Obligations.StepRunsFrontCommand : Prop :=
  ∀ (c : Instr) (rest : List Instr) (s : State), s.pending = c :: rest → step s = exec c { s with pending := rest }

/-- Every command of the table is carried out: whatever the command and the state, the block answers a next state, and neither a
fault nor a refusal, since the spec leaves no command of its table without an effect. What that state holds is said by the
statements of each family. -/
def Obligations.EveryCommandCompletes : Prop :=
  ∀ (c : Instr) (s : State), ∃ t : State, exec c s = .next t

/-- Scalar ALU (R102, R103): once the bundle of the instruction has completed, Gd holds the result and EST.FLAGS the four flags,
with b the register or the immediate. Scalar arithmetic wraps and never saturates. -/
def Obligations.ScalarAluResults : Prop :=
  ∀ (e : Eng) (pair : Bool) (gd ga : Fin 16) (b : SOp) (s : State), s.canX e = true →
    let x := s.engOf e
    let a := x.gget ga
    let c := x.sop b
    let n := c.toNat % 32
    let seen (r : Word) (carry ovf : Bool) (t : State) : Prop :=
      (t.bundleOf e pair).gget gd = r ∧ (t.bundleOf e pair).flags = mkFlags r.msb (r == 0) carry ovf
    s.runs (.addOp e pair gd ga b) (seen (a + c) (decide (2 ^ 32 ≤ a.toNat + c.toNat))
      (decide (a.toInt + c.toInt < -2 ^ 31 ∨ 2 ^ 31 ≤ a.toInt + c.toInt))) ∧
    s.runs (.subOp e pair gd ga b) (seen (a - c) (decide (c.toNat ≤ a.toNat))
      (decide (a.toInt - c.toInt < -2 ^ 31 ∨ 2 ^ 31 ≤ a.toInt - c.toInt))) ∧
    s.runs (.cmp e pair ga b) (fun t => (t.bundleOf e pair).flags = mkFlags (a - c).msb (a - c == 0)
      (decide (c.toNat ≤ a.toNat)) (decide (a.toInt - c.toInt < -2 ^ 31 ∨ 2 ^ 31 ≤ a.toInt - c.toInt))) ∧
    s.runs (.andOp e pair gd ga b) (seen (a &&& c) (flagC x.flags) false) ∧
    s.runs (.orOp e pair gd ga b) (seen (a ||| c) (flagC x.flags) false) ∧
    s.runs (.xorOp e pair gd ga b) (seen (a ^^^ c) (flagC x.flags) false) ∧
    s.runs (.shl e pair gd ga b) (seen (a <<< n) (if n = 0 then flagC x.flags else a.getLsbD (32 - n)) (flagV x.flags)) ∧
    s.runs (.shr e pair gd ga b) (seen (a >>> n) (if n = 0 then flagC x.flags else a.getLsbD (n - 1)) (flagV x.flags)) ∧
    s.runs (.sra e pair gd ga b)
      (seen (a.sshiftRight n) (if n = 0 then flagC x.flags else a.getLsbD (n - 1)) (flagV x.flags)) ∧
    s.runs (.min e pair gd ga b) (seen (BitVec.ofInt 32 (min a.toInt c.toInt)) (flagC x.flags) (flagV x.flags)) ∧
    s.runs (.max e pair gd ga b) (seen (BitVec.ofInt 32 (max a.toInt c.toInt)) (flagC x.flags) (flagV x.flags)) ∧
    s.runs (.mul e pair gd ga b) (seen (BitVec.ofInt 32 (a.toInt * c.toInt)) (flagC x.flags) (flagV x.flags)) ∧
    s.runs (.clz e pair gd ga) (fun t => ∃ z : Nat, z ≤ 32 ∧ a.toNat < 2 ^ (32 - z) ∧ (z < 32 → 2 ^ (31 - z) ≤ a.toNat) ∧
      seen (BitVec.ofNat 32 z) (flagC x.flags) (flagV x.flags) t)

/-- Vector ALU (R104, R105): once the bundle has completed, every enabled lane that was read without a parity error holds the
result of its two source lanes; a .R result is saturated to B40 and sign-extended, a .C result is saturated in each half.
VSEL writes every lane. VCMP (R96, R104, R105): bit k of Qd is the comparison in an enabled lane and 0 in a disabled one;
VCMP.C compares the real halves only; Q0 keeps reading ones. -/
def Obligations.VectorAluResults : Prop :=
  (∀ (e : Eng) (pair cplx : Bool) (q : Fin 4) (vd va vb : Fin 32) (n : Fin 64) (par : BitVec 16) (s : State) (k : Nat),
      s.canX e = true → k ∈ lanesOf (isCE e) → par.getLsbD k = false →
      let x := s.engOf e
      let a := x.vget (isCE e) va k
      let b := x.vget (isCE e) vb k
      let lane (f : Int → Int → Int) : BitVec 64 :=
        if cplx then BitVec.ofInt 32 (satS 32 (f (imOf a) (imOf b))) ++ BitVec.ofInt 32 (satS 32 (f (reOf a) (reOf b)))
        else BitVec.ofInt 64 (satS 40 (f (sig40 a) (sig40 b)))
      let seen (r : BitVec 64) (t : State) : Prop := (t.bundleOf e pair).vget (isCE e) vd k = r
      ((x.qget q).getLsbD k = true →
        s.runs (.vadd e pair q vd va vb cplx par) (seen (lane (fun a b => a + b))) ∧
        s.runs (.vsub e pair q vd va vb cplx par) (seen (lane (fun a b => a - b))) ∧
        s.runs (.vmin e pair q vd va vb cplx par) (seen (lane (fun a b => min a b))) ∧
        s.runs (.vmax e pair q vd va vb cplx par) (seen (lane (fun a b => max a b))) ∧
        s.runs (.vabs e pair q vd va cplx par) (seen (lane (fun a _ => (a.natAbs : Int)))) ∧
        s.runs (.vneg e pair q vd va cplx par) (seen (lane (fun a _ => -a))) ∧
        s.runs (.vshl e pair q vd va cplx n par) (seen (lane (fun a _ => a * 2 ^ n.val))) ∧
        s.runs (.vsra e pair q vd va cplx n par) (seen (lane (fun a _ => a / 2 ^ n.val))) ∧
        s.runs (.vand e pair q vd va vb par) (seen (a &&& b)) ∧
        s.runs (.vor e pair q vd va vb par) (seen (a ||| b)) ∧
        s.runs (.vxor e pair q vd va vb par) (seen (a ^^^ b))) ∧
      s.runs (.vsel e pair q vd va vb par) (seen (if (x.qget q).getLsbD k then a else b))) ∧
  (∀ (e : Eng) (pair cplx : Bool) (q qd : Fin 4) (va vb : Fin 32) (cc : Vcc) (par : BitVec 16) (s : State) (k : Fin 16),
      s.canX e = true →
      let x := s.engOf e
      let a := x.vget (isCE e) va k
      let b := x.vget (isCE e) vb k
      let holds := if cplx then vccHolds cc (reOf a) (reOf b) else vccHolds cc (sig40 a) (sig40 b)
      s.runs (.vcmp e pair q qd va vb cplx cc par) (fun t => ((t.bundleOf e pair).qget qd).getLsbD k =
        (qd == 0 || (decide (k.val ∈ x.enabled (isCE e) q) && !par.getLsbD k && holds))))

/-- Multiply-accumulate (R106, R107): in every enabled lane read without error, the halves of An that a MAC-class instruction of
the next bundle sees are the accumulator, or 0 with CLR, plus the aligned products, negated with SUB, saturated to 80 bits.
The wide form leaves the imaginary half. Accumulator moves and conversions (R108-R111): ACLR and ALD give what MAC-class
instructions see next; SAT and PACK write the scaled and converted halves; the CMUL result is on its way for three more
bundles. -/
def Obligations.AccumulatorResults : Prop :=
  (∀ (e : Eng) (pair conj : Bool) (q : Fin 4) (an : Fin 8) (va vb : Fin 32) (cf : Cf) (par : BitVec 16) (s : State) (k : Nat),
      s.canX e = true → k ∈ (s.engOf e).enabled (isCE e) q → par.getLsbD k = false →
      let x := s.engOf e
      let a := x.vget (isCE e) va k
      let b := x.vget (isCE e) vb k
      let prod (s c : Int) : Int := s * c * (match cf with | .q31 => 1 | .q30 => 2 | .q28 => 8)
      let bi : Int := if conj then -imOf b else imOf b
      let acc (clr : Bool) (h : Nat) : Int := if clr then 0 else x.amget an h k
      let re (clr : Bool) (p : Int) (t : State) : Prop := (t.bundleOf e pair).amget an 0 k = satS 80 (acc clr 0 + p)
      let both (clr : Bool) (p i : Int) (t : State) : Prop :=
        re clr p t ∧ (t.bundleOf e pair).amget an 1 k = satS 80 (acc clr 1 + i)
      let wide (clr : Bool) (p : Int) (t : State) : Prop :=
        re clr p t ∧ ((∀ r ∈ x.infl ++ x.curY, r.dst ≠ .am an 1 k) → (t.bundleOf e pair).amget an 1 k = x.amget an 1 k)
      let w := prod (sig40 a) (reOf b)
      let d := (prod (reOf a) (reOf b), prod (imOf a) (imOf b))
      let dx := (prod (reOf a) (reOf b), prod (reOf a) (imOf b))
      let c := (prod (reOf a) (reOf b) - prod (imOf a) bi, prod (reOf a) bi + prod (imOf a) (reOf b))
      (s.runs (.mac e pair q an va vb cf par) (wide false w) ∧ s.runs (.msu e pair q an va vb cf par) (wide false (-w)) ∧
        s.runs (.mpy e pair q an va vb cf par) (wide true w) ∧ s.runs (.mpyn e pair q an va vb cf par) (wide true (-w))) ∧
      (s.runs (.macD e pair q an va vb cf par) (both false d.1 d.2) ∧
        s.runs (.msuD e pair q an va vb cf par) (both false (-d.1) (-d.2)) ∧
        s.runs (.mpyD e pair q an va vb cf par) (both true d.1 d.2) ∧
        s.runs (.mpynD e pair q an va vb cf par) (both true (-d.1) (-d.2))) ∧
      (s.runs (.macDx e pair q an va vb cf par) (both false dx.1 dx.2) ∧
        s.runs (.msuDx e pair q an va vb cf par) (both false (-dx.1) (-dx.2)) ∧
        s.runs (.mpyDx e pair q an va vb cf par) (both true dx.1 dx.2) ∧
        s.runs (.mpynDx e pair q an va vb cf par) (both true (-dx.1) (-dx.2))) ∧
      (s.runs (.cmac e pair q an va vb cf conj par) (both false c.1 c.2) ∧
        s.runs (.cmsu e pair q an va vb cf conj par) (both false (-c.1) (-c.2)) ∧
        s.runs (.cmpy e pair q an va vb cf conj par) (both true c.1 c.2) ∧
        s.runs (.cmpyn e pair q an va vb cf conj par) (both true (-c.1) (-c.2)))) ∧
  (∀ (e : Eng) (pair cplx im trunc conj : Bool) (q : Fin 4) (an : Fin 8) (vd va vb : Fin 32) (sh : BitVec 4) (fmt : PackFmt)
      (cf : Cf) (par : BitVec 16) (s : State) (k : Nat),
      s.canX e = true → k ∈ (s.engOf e).enabled (isCE e) q → par.getLsbD k = false →
      let x := s.engOf e
      let a := x.vget (isCE e) va k
      let b := x.vget (isCE e) vb k
      let acc (t : State) (h : Nat) : Int := (t.bundleOf e pair).amget an h k
      let conv (n drop : Nat) (v : Int) : Int := satS n (if trunc then v / 2 ^ drop else rneShift v drop)
      let p := macProducts (.cplx conj) cf a b
      let pk : Nat × Nat := match fmt with | .s32 => (32, 31) | .c32 => (32, 32) | .g428 => (32, 34) | .s24 => (24, 39)
      let pack (h : Nat) : Int := conv pk.1 ((pk.2 : Int) - sh.toInt).toNat (x.aget an h k)
      s.runs (.aclr e pair q an) (fun t => acc t 0 = 0 ∧ acc t 1 = 0) ∧
      s.runs (.ald e pair q an va cplx par) (fun t =>
        if cplx then acc t 0 = reOf a * 2 ^ 31 ∧ acc t 1 = imOf a * 2 ^ 31 else acc t 0 = sig40 a * 2 ^ 31) ∧
      s.runs (.sat e pair q vd an im sh trunc par) (fun t => (t.bundleOf e pair).vget (isCE e) vd k =
        BitVec.ofInt 64 (conv 40 (31 - sh.toInt).toNat (x.aget an (if im then 1 else 0) k))) ∧
      s.runs (.pack e pair q vd an fmt sh trunc par) (fun t => (t.bundleOf e pair).vget (isCE e) vd k =
        BitVec.ofInt 32 (pack 1) ++ BitVec.ofInt 32 (pack 0)) ∧
      s.runs (.cmul e pair q vd va vb cf conj trunc par) (fun t => ∃ r ∈ (t.bundleOf e pair).infl, r.dst = .v vd k ∧ r.left = 3 ∧
        BitVec.ofNat 64 r.val = BitVec.ofInt 32 (conv 32 31 p.2) ++ BitVec.ofInt 32 (conv 32 31 p.1)))

/-- KGET and TLU (R112, R113, R116): the value of the lane's entry, or the table word the lane's index names, is on its way for
two more bundles. An idle entry gives START and stays idle; a kerf before its lead gives START and counts the lead down; a
kerf at its last sample settles on TGT; without further changes in the block nothing else happens to it. -/
def Obligations.KgetAndTlu : Prop :=
  ∀ (e : Fin 16) (pair upd dup banked : Bool) (q : Fin 4) (vd vi : Fin 32) (p m : Fin 16) (par : BitVec 16) (s : State) (k : Nat),
    s.canX e = true → k ∈ (s.engOf e).enabled false q →
    let x := s.engOf e
    let e' : Eng := ⟨e.val, by omega⟩
    let ptr := bitsOf (x.pget p) 23 0
    let coming (v : Nat) (t : State) : Prop := ∃ r ∈ (t.bundleOf e pair).infl, r.dst = .v vd k ∧ r.left = 2 ∧ r.val = v
    (ptr % 16 = 0 → inKps (ptr + 16 * k) = true →
      let i := (ptr + 16 * k - 0x200000) / 16
      let c := x.kpsOf i
      c.fmt ≠ 3 →
      let value (v : Word) : Nat := v.toNat + (if dup then 2 ^ 32 * v.toNat else 0)
      let next (t : State) : KpsEntry := (t.bundleOf e pair).kpsOf i
      (∀ noAdv, c.busy = false →
        s.runs (.kget e' pair q vd p m upd noAdv dup false) (coming (value c.start))) ∧
      (x.adv = [] → c.ahead = [] →
        (c.busy = false → s.runs (.kget e' pair q vd p m upd false dup false) (fun t => next t = { c with pos := c.pos + 1 })) ∧
        (c.busy = true → 0 < c.lead → s.runs (.kget e' pair q vd p m upd false dup false) (fun t =>
          coming (value c.start) t ∧ next t = { c with lead := c.lead - 1, pos := c.pos + 1 })) ∧
        (c.busy = true → c.lead = 0 → c.elapsed = c.spanm1 → s.runs (.kget e' pair q vd p m upd false dup false) (fun t =>
          coming (value c.tgt) t ∧ next t = { c with start := c.tgt, busy := false, elapsed := 0, pos := c.pos + 1 })) ∧
        (c.busy = true → c.lead = 0 → c.elapsed ≠ c.spanm1 → s.runs (.kget e' pair q vd p m upd false dup false) (fun t =>
          next t = { c with elapsed := c.elapsed + 1, pos := c.pos + 1 })))) ∧
    (par.getLsbD k = false →
      let a := ptr / 8 * 8 + (if banked then 0x8000 * k else 0) + 8 * ((x.vget false vi k).toNat % 4096)
      inDmem a = true →
      s.runs (.tlu e' pair q vd p m upd vi banked par) (coming (leValue (Memory.readBytes x.mem a 8))))

/-- Element moves and long immediates (R117): VEXT reads a half of a lane or the lane converted to S32, VINS and VBRD write a
half, the B40 lane, or for VBRD both halves. -/
def Obligations.ElementMoves : Prop :=
  ∀ (e : Eng) (pair : Bool) (gd gs : Fin 16) (vd va : Fin 32) (lane : Fin 16) (imm : Word) (par : BitVec 16) (s : State) (k : Nat),
    s.canX e = true → k ∈ lanesOf (isCE e) →
    let x := s.engOf e
    let g := x.gget gs
    let a := x.vget (isCE e) va lane
    let old := x.vget (isCE e) vd k
    let ins (w : Word) : Half → BitVec 64
      | .re => old.extractLsb' 32 32 ++ w
      | .im => w ++ old.extractLsb' 0 32
      | .b40 => w.signExtend 64
      | .both => w ++ w
    let lane' (t : State) (pair : Bool) : BitVec 64 := (t.bundleOf e pair).vget (isCE e) vd k
    (par.getLsbD lane = false →
      s.runs (.vext e pair gd va lane .re par) (fun t => (t.bundleOf e pair).gget gd = a.extractLsb' 0 32) ∧
      s.runs (.vext e pair gd va lane .im par) (fun t => (t.bundleOf e pair).gget gd = a.extractLsb' 32 32) ∧
      s.runs (.vext e pair gd va lane .b40 par) (fun t => (t.bundleOf e pair).gget gd = BitVec.ofInt 32 (satS 32 (sig40 a)) ∧
        (satS 32 (sig40 a) ≠ sig40 a → bitOf (t.bundleOf e pair).r.est 23 = true))) ∧
    (∀ h : Half, (h ≠ .both → lane.val = k → s.runs (.vins e pair vd gs lane h) (fun t => lane' t pair = ins g h)) ∧
      s.runs (.vbrd e pair vd gs h) (fun t => lane' t pair = ins g h) ∧
      s.runs (.vbrdi e vd imm h) (fun t => lane' t false = ins imm h)) ∧
    s.runs (.movi32 e gd imm) (fun t => (t.bundleOf e false).gget gd = imm)

/-- Address modes and pointer updates (R74, R75, R118, R121): what PMOD, and equally a scalar load or store, leaves in a linear
pointer and in a circular one whose address lies in its enabled ring. Loads (R62, R71, R118-R120): every destination receives
the word its address names, seen three bundles after the load; a refused address gives 0, and it or an address whose low bits
were cleared sets ACCERR. -/
def Obligations.LoadsAndPointers : Prop :=
  (∀ (e : Eng) (p : Fin 16) (m : Fin 16) (n : BitVec 11) (s : State), s.engRuns e = true →
      let x := s.engOf e
      x.clearOf (.p p) →
      let w := x.pget p
      let a := bitsOf w 23 0
      let next (a' : Nat) (t : State) : Prop := (t.engOf e).pget p = setBits (setBits w 23 0 a') 26 24 0
      let moved (inc : Int) : Nat := match (x.pmode w).1 with
        | .lin => (((a : Int) + inc) % 2 ^ 24).toNat
        | _ => x.rbase (bitsOf w 29 27) + (((a : Int) - x.rbase (bitsOf w 29 27) + inc) % (x.rlen (bitsOf w 29 27) : Int)).toNat
      (x.pmode w).1 ≠ .rev → (x.paddr w).2 = false →
      s.runs (.pmod e p (.postM m)) (next (moved (x.mget m).toInt)) ∧
      s.runs (.pmod e p (.postN n)) (next (moved (n.toInt * 8))) ∧
      (∀ r : Fin 16, s.runs (.ld e (.m r) p (.postM m)) (next (moved (x.mget m).toInt)) ∧
        s.runs (.ld e (.m r) p (.postN n)) (next (moved (n.toInt * 4))) ∧
        s.runs (.ld e (.m r) p (.offset n)) (fun t =>
          (∀ a ∈ x.infl ++ x.curY, a.dst ≠ .p p) → (t.engOf e).pget p = w) ∧
        ∀ par, s.runs (.st e (.m r) p (.postM m) par) (next (moved (x.mget m).toInt)))) ∧
  (∀ (e : Eng) (p : Fin 16) (am : AMode) (s : State), s.engRuns e = true →
      let x := s.engOf e
      let ea (lo k : Nat) : Nat := x.eaOf p (x.addrOf p am lo) k
      let word (a n : Nat) : Nat := if x.readable (isCE e) (a / n * n) then x.rawRead (a / n * n) n else 0
      let err (a n : Nat) (t : State) : Prop := (∀ r ∈ x.curX, r.dst ≠ .sys 1) →
        (a % n ≠ 0 ∨ x.readable (isCE e) (a / n * n) = false) → bitOf (t.engOf e).r.est 20 = true
      let scalar (d : Dest) (t : State) : Prop := (t.engOf e).coming d 2 (word (ea 2 0) 4) ∧ err (ea 2 0) 4 t
      (∀ r : Fin 16, s.runs (.ld e (.g r) p am) (scalar (.g r)) ∧ s.runs (.ld e (.p r) p am) (scalar (.p r)) ∧
        s.runs (.ld e (.m r) p am) (scalar (.m r))) ∧
      (∀ (v : Fin 32) (q : Fin 4) (k : Nat), k ∈ x.enabled (isCE e) q →
        s.runs (.ld e (.vec v q) p am) (fun t => (t.engOf e).coming (.v v k) 2 (word (ea 7 (8 * k)) 8) ∧ err (ea 7 (8 * k)) 8 t) ∧
        s.runs (.ld e (.bcast v q) p am) (fun t => (t.engOf e).coming (.v v k) 2 (word (ea 3 0) 8) ∧ err (ea 3 0) 8 t)))

/-- Stores (R62, R92, R118-R120): the stored bytes read back, every other byte of the engine's memory reads as before, a refused
store changes no byte, and no other engine or far memory changes. A broadcast store halts the engine. -/
def Obligations.StoreResults : Prop :=
  ∀ (e : Eng) (p : Fin 16) (am : AMode) (par : BitVec 16) (s : State), s.engRuns e = true →
    let x := s.engOf e
    let ce := isCE e
    let at_ (lo k n : Nat) : Nat := x.eaOf p (x.addrOf p am lo) k / n * n
    let bank (y : Engine) (a : Nat) : Memory := if x.twin && inBlk a x.ocur then y.kbuf else y.mem
    let frame (stored : Nat → Bool → Prop) (t : State) : Prop :=
      (∀ b, ¬ stored b false → Memory.read (t.engOf e).mem b = Memory.read x.mem b) ∧
      (∀ b, ¬ stored b true → Memory.read (t.engOf e).kbuf b = Memory.read x.kbuf b) ∧
      (∀ k, k ≠ e.val → t.engOf k = s.engOf k) ∧ t.far = s.far
    let a := at_ 2 0 4
    let scalar (v : Word) (t : State) : Prop :=
      (x.writable ce a = true → leValue (Memory.readBytes (bank (t.engOf e) a) a 4) = v.toNat) ∧
      frame (fun b inK => x.writable ce a = true ∧ inK = (x.twin && inBlk a x.ocur) ∧ a ≤ b ∧ b < a + 4) t
    (∀ r : Fin 16, s.runs (.st e (.g r) p am par) (scalar (x.gget r)) ∧ s.runs (.st e (.p r) p am par) (scalar (x.pget r)) ∧
      s.runs (.st e (.m r) p am par) (scalar (x.mget r))) ∧
    (∀ (v : Fin 32) (q : Fin 4), s.runs (.st e (.vec v q) p am par) (fun t =>
      (∀ k ∈ x.enabled ce q, x.writable ce (at_ 7 (8 * k) 8) = true →
        (∀ j ∈ x.enabled ce q, k < j → at_ 7 (8 * j) 8 ≠ at_ 7 (8 * k) 8) →
        leValue (Memory.readBytes (bank (t.engOf e) (at_ 7 (8 * k) 8)) (at_ 7 (8 * k) 8) 8) =
          if par.getLsbD k then 0 else (x.vget ce v k).toNat) ∧
      frame (fun b inK => ∃ k ∈ x.enabled ce q, x.writable ce (at_ 7 (8 * k) 8) = true ∧
        inK = (x.twin && inBlk (at_ 7 (8 * k) 8) x.ocur) ∧ at_ 7 (8 * k) 8 ≤ b ∧ b < at_ 7 (8 * k) 8 + 8) t) ∧
      s.runs (.st e (.bcast v q) p am par) (fun t => t.engState e = engHalted ∧ t.fld (ENG_STAT.CAUSE e) = 1))

/-- Repeats (R77, R78, R128): REP fills level n and goes on in the set-up slot; with count 0 the body is skipped after that slot;
a REP at the wrong depth, with an empty body or a body that is not nested halts the engine with cause 2. At the last bundle
of the innermost body the engine loops back or leaves the level. LSAVE and LREST (R82, R122): the image of 64 bytes, LDEPTH
going to 0 two bundles after LSAVE, the loop registers two bundles after LREST, and an image with LDEPTH above 4 halting the
engine with cause 2. -/
def Obligations.RepeatsAndTheirState : Prop :=
  (∀ (e : Eng) (n : Fin 4) (g : Fin 16) (count : BitVec 24) (last : Fin 16384) (s : State),
      s.engRuns e = true → (s.engOf e).inSetup = false →
      let x := s.engOf e
      let loc (a : Nat) : Nat := x.r.pc / 16384 * 16384 + a % 16384
      let w (t : Tbl Nat) (n : Nat) : Nat := Tbl.get (fun _ => 0) t n
      let beg := loc (x.r.pc + 2)
      let nested : Prop := n.val = 0 ∨ (w x.r.lbeg (n.val - 1) ≤ beg ∧ loc last ≤ w x.r.lend (n.val - 1))
      let quiet : Prop := x.dly = 0 ∧ ∀ r ∈ x.infl ++ x.curY ++ x.curX,
        r.dst ≠ .ldepth ∧ r.dst ≠ .lcnt n ∧ r.dst ≠ .lbeg n ∧ r.dst ≠ .lend n
      let filled (c : Nat) (t : State) : Prop := (t.engOf e).r.pc = loc (x.r.pc + 1) ∧ (t.engOf e).setup = 2 ∧
        w (t.engOf e).r.lcnt n = c ∧ w (t.engOf e).r.lbeg n = beg ∧ w (t.engOf e).r.lend n = loc last ∧
        if c = 0 then (t.engOf e).skip = some (loc (last.val + 1)) ∧ (t.engOf e).r.ldepth = n.val
        else (t.engOf e).skip = none ∧ (t.engOf e).r.ldepth = n.val + 1
      (x.r.ldepth = n.val → beg ≤ loc last → nested → quiet →
        (x.mid = false → s.runs (.repImm e n count last) (filled count.toNat)) ∧
        s.runs (.repG e n g last) (filled (min (x.gget g).toNat 16777215))) ∧
      (x.r.ldepth ≠ n.val ∨ loc last < beg ∨ ¬ nested →
        (x.mid = false → s.runs (.repImm e n count last) (fun t => t.engState e = engHalted ∧ t.fld (ENG_STAT.CAUSE e) = 2)) ∧
        s.runs (.repG e n g last) (fun t => t.engState e = engHalted ∧ t.fld (ENG_STAT.CAUSE e) = 2)) ∧
      (x.r.ldepth = n.val + 1 → x.r.pc = w x.r.lend n → quiet → x.setup = 0 → s.runs (.nop e false) (fun t =>
        if 1 < w x.r.lcnt n then w (t.engOf e).r.lcnt n = w x.r.lcnt n - 1 ∧ (t.engOf e).r.pc = loc (w x.r.lbeg n) ∧
          (t.engOf e).r.ldepth = n.val + 1
        else w (t.engOf e).r.lcnt n = 0 ∧ (t.engOf e).r.pc = loc (x.r.pc + 1) ∧ (t.engOf e).r.ldepth = n.val))) ∧
  (∀ (e : Eng) (p : Fin 16) (am : AMode) (s : State), s.engRuns e = true → (s.engOf e).inSetup = false →
      let x := s.engOf e
      let ce := isCE e
      let w (t : Tbl Nat) (n : Nat) : Nat := Tbl.get (fun _ => 0) t n
      let a (j : Nat) : Nat := x.eaOf p (x.addrOf p am 6) (8 * j) / 8 * 8
      let img (j : Nat) : Nat := if x.readable ce (a j) then x.rawRead (a j) 8 else 0
      let half (i : Nat) : Nat := img (i / 2) / 2 ^ (32 * (i % 2)) % 2 ^ 32
      let image (j : Nat) : Nat := match j with
        | 0 => w x.r.lcnt 0 + 2 ^ 32 * w x.r.lcnt 1
        | 1 => w x.r.lcnt 2 + 2 ^ 32 * w x.r.lcnt 3
        | 2 => w x.r.lbeg 0 + 2 ^ 32 * w x.r.lbeg 1
        | 3 => w x.r.lbeg 2 + 2 ^ 32 * w x.r.lbeg 3
        | 4 => w x.r.lend 0 + 2 ^ 32 * w x.r.lend 1
        | 5 => w x.r.lend 2 + 2 ^ 32 * w x.r.lend 3
        | 6 => x.r.ldepth
        | _ => 0
      s.runs (.lsave e p am) (fun t => (t.engOf e).coming .ldepth 1 0 ∧ (t.engOf e).lwin = 2 ∧
        ∀ j < 8, inDmem (a j) = true → x.ocur = 0x310000 ∨ x.ocur = 0x318000 → (∀ i < 8, j < i → a i ≠ a j) →
          leValue (Memory.readBytes (t.engOf e).mem (a j) 8) = image j % 2 ^ 64) ∧
      (half 12 % 8 ≤ 4 → s.runs (.lrest e p am) (fun t => (t.engOf e).lwin = 2 ∧ (t.engOf e).coming .ldepth 1 (half 12 % 8) ∧
        ∀ n < 4, (t.engOf e).coming (.lcnt n) 1 (half n) ∧ (t.engOf e).coming (.lbeg n) 1 (half (4 + n)) ∧
          (t.engOf e).coming (.lend n) 1 (half (8 + n)))) ∧
      (4 < half 12 % 8 → s.runs (.lrest e p am) (fun t => t.engState e = engHalted ∧ t.fld (ENG_STAT.CAUSE e) = 2)))

/-- Haul queue (R83-R85, R129): HAUL takes the lowest free slot and writes its number; the slot holds the descriptor; a
descriptor that cannot start leaves the slot free and sets its error bit; with no free slot the engine counts a stall and
stays at the bundle. HSYNC completes once no named slot is busy and waits otherwise. -/
def Obligations.HaulQueue : Prop :=
  ∀ (e : Eng) (gd p : Fin 16) (am : AMode) (mask : BitVec 8) (s : State), s.engRuns e = true →
    let x := s.engOf e
    let busy (k : Nat) : Bool := (x.haulOf k).isSome
    let a (j : Nat) : Nat := x.eaOf p (x.addrOf p am 5) 0 / 8 * 8 + 8 * j
    let word (j : Nat) : Nat := if inDmem (a j) then leValue (Memory.readBytes x.mem (a j) 8) else 0
    let h := x.haulOfWords [word 0, word 1, word 2, word 3]
    (∀ k : Nat, k < 8 → busy k = false → (∀ j < k, busy j = true) → x.clearOf (.g gd) →
      s.runs (.haul e gd p am) (fun t => (t.engOf e).gget gd = BitVec.ofNat 32 k ∧
        (h.bad = false → (t.engOf e).haulOf k = some h ∧ (t.engOf e).herr = x.herr) ∧
        (h.bad = true → (t.engOf e).haulOf k = none ∧ (t.engOf e).herr = x.herr ||| BitVec.ofNat 8 (2 ^ k) ∧
          bitOf (t.engOf e).estRead 25 = true) ∧
        ∀ j, j ≠ k → (t.engOf e).haulOf j = x.haulOf j)) ∧
    ((∀ k < 8, busy k = true) → s.runs (.haul e gd p am) (fun t => (t.engOf e).mid = true ∧ (t.engOf e).r = x.r ∧
      (t.engOf e).cyc = x.cyc + 1 ∧ (t.engOf e).haul = x.haul ∧ (s.reg (ENG_HSTALL_CNT.adr e) ≠ 0xFFFFFFFF →
        t.reg (ENG_HSTALL_CNT.adr e) = s.reg (ENG_HSTALL_CNT.adr e) + 1))) ∧
    ((∀ k < 8, mask.getLsbD k = true → busy k = false) → x.dly = 0 → x.setup = 0 → x.r.ldepth = 0 →
      s.runs (.hsync e mask) (fun t => (t.engOf e).r.pc = x.r.pc / 16384 * 16384 + (x.r.pc + 1) % 16384 ∧ (t.engOf e).mid = false)) ∧
    (∀ k < 8, mask.getLsbD k = true → busy k = true → s.runs (.hsync e mask) (fun t => (t.engOf e).r = x.r ∧
      (t.engOf e).stall = true ∧ (t.engOf e).mid = true ∧ (t.engOf e).haul = x.haul))

/-- Register moves (R60, R123-R125): what the next bundle reads. MOVS to a system register (R76, R84, R124, R125): ECTL, IPC, IVB
and the loop registers; a ring descriptor is staged and not in force yet; raising LDEPTH halts the engine with cause 2. -/
def Obligations.RegisterMoves : Prop :=
  (∀ (e : Eng) (d sr : Fin 16) (imm : BitVec 16) (s : State), s.engRuns e = true →
      let x := s.engOf e
      let get (y : Engine) (c : RegC) (n : Nat) : Word := match c with
        | .g => y.gget n
        | .p => y.pget n
        | .m => y.mget n
        | .q => (y.qget n).setWidth 32
      let kept (c : RegC) (w : Word) : Word := match c with
        | .p => setBits w 26 24 0
        | .q => (if d.val = 0 then 0xFFFF else w.setWidth 16 : BitVec 16).setWidth 32
        | _ => w
      let ok (c : RegC) (n : Fin 16) : Prop := c = .q → n.val < 4
      (∀ dc sc : RegC, ok dc d → ok sc sr → x.clearOf (classDest dc d) →
        s.runs (.movOp e dc d sc sr) (fun t => get (t.engOf e) dc d = kept dc (get x sc sr)) ∧
        s.runs (.movi e dc d imm) (fun t => get (t.engOf e) dc d = kept dc (imm.signExtend 32)) ∧
        s.runs (.movhi e dc d imm) (fun t => get (t.engOf e) dc d = kept dc (setBits (get x dc d) 31 16 imm.toNat))) ∧
      (∀ dc sc : RegC, ¬ (ok dc d ∧ ok sc sr) →
        s.runs (.movOp e dc d sc sr) (fun t => t.engState e = engHalted ∧ t.fld (ENG_STAT.CAUSE e) = 1)) ∧
      (x.clearOf (.g d) → s.runs (.movsFrom e d 0x00) (fun t => (t.engOf e).gget d = x.r.ectl) ∧
        s.runs (.movsFrom e d 0x02) (fun t => (t.engOf e).gget d = BitVec.ofNat 32 x.r.ipc) ∧
        s.runs (.movsFrom e d 0x08) (fun t => (t.engOf e).gget d = x.dbell) ∧
        (∀ n : Fin 8, s.runs (.movsFrom e d ⟨0x18 + n.val, by omega⟩) (fun t =>
          (t.engOf e).gget d = Tbl.get (fun _ => 0) x.r.b n)))) ∧
  (∀ (e : Eng) (gs : Fin 16) (s : State), s.engRuns e = true → (s.engOf e).inSetup = false →
      let x := s.engOf e
      let v := x.gget gs
      (x.clearOf .ectl → s.runs (.movsTo e 0x00 gs) (fun t => (t.engOf e).r.ectl = v &&& 0xFF82)) ∧
      (x.clearOf (.sys 2) → s.runs (.movsTo e 0x02 gs) (fun t => (t.engOf e).r.ipc = v.toNat % 2 ^ 15)) ∧
      (x.clearOf (.sys 4) → s.runs (.movsTo e 0x04 gs) (fun t => (t.engOf e).r.ivb = v.toNat % 2 ^ 15)) ∧
      (v.toNat ≤ x.r.ldepth → s.runs (.movsTo e 0x0B gs) (fun t => (t.engOf e).coming .ldepth 1 v.toNat)) ∧
      (x.r.ldepth < v.toNat → s.runs (.movsTo e 0x0B gs) (fun t => t.engState e = engHalted ∧ t.fld (ENG_STAT.CAUSE e) = 2)) ∧
      (∀ n : Fin 4, s.runs (.movsTo e ⟨0x0C + n.val, by omega⟩ gs) (fun t => (t.engOf e).coming (.lcnt n) 1 v.toNat)) ∧
      (∀ n : Fin 8, s.runs (.movsTo e ⟨0x20 + n.val, by omega⟩ gs) (fun t => (t.engOf e).r.b = x.r.b ∧
        Tbl.find (t.engOf e).r.bStg (0x20 + n.val) = some v)))

/-- Branches (R126, R127, R498): once the branch's bundle has completed, two delay slots follow and the target, in the executing
bank, comes after them; CALL writes the address after its second delay slot; RETI sets GIE and restores the flags. A branch
in a delay slot halts the engine with cause 1, one in a set-up slot with cause 2. -/
def Obligations.Branches : Prop :=
  ∀ (e : Eng) (cc : Cond) (q : Fin 4) (g : Fin 16) (target : Fin 16384) (s : State), s.engRuns e = true →
    let x := s.engOf e
    let bank := x.r.pc / 16384 * 16384
    let goes (taken : Bool) (a : Nat) (t : State) : Prop :=
      (t.engOf e).dly = 2 ∧ (t.engOf e).dtgt = if taken then some (bank + a % 16384) else none
    let qv : BitVec 16 := if e.val = 16 then x.qget q &&& 1 else x.qget q
    (x.inSetup = false → x.inDelay = false →
      s.runs (.branch e cc target) (goes (condHolds cc x.flags) target) ∧
      s.runs (.branchReg e cc g) (goes (condHolds cc x.flags) (x.gget g).toNat) ∧
      s.runs (.bqz e q target) (goes (qv == 0) target) ∧
      s.runs (.bqnz e q target) (goes (qv != 0) target) ∧
      (x.clearOf (.g g) → s.runs (.call e cc g target) (fun t => goes (condHolds cc x.flags) target t ∧
        (condHolds cc x.flags = true → (t.engOf e).gget g = BitVec.ofNat 32 (bank + (x.r.pc + 3) % 16384)))) ∧
      (x.clearOf .ectl → x.clearOf .flags → s.runs (.reti e) (fun t => goes true x.r.ipc t ∧
        bitOf (t.engOf e).r.ectl 7 = true ∧ (t.engOf e).flags = bitsOf x.r.iest 3 0))) ∧
    (∀ cause : Nat, (cause = 2 ∧ x.inSetup = true) ∨ (cause = 1 ∧ x.inSetup = false ∧ x.inDelay = true) →
      let halts (t : State) : Prop := t.engState e = engHalted ∧ t.fld (ENG_STAT.CAUSE e) = cause
      s.runs (.branch e cc target) halts ∧ s.runs (.branchReg e cc g) halts ∧ s.runs (.bqz e q target) halts ∧
      s.runs (.bqnz e q target) halts ∧ s.runs (.call e cc g target) halts ∧ s.runs (.reti e) halts ∧
      s.runs (.waitOp e) halts ∧ s.runs (.eob e) halts)

/-- End-of-block markers (R52, R53, R81, R130): a WAIT in time marks the block ended and sleeps, one after the deadline completes
at once; EOB marks and completes. A late marker moves on to the newest input block and counts those skipped; a second marker
of a block marks nothing. -/
def Obligations.BlockMarkers : Prop :=
  ∀ (e : Eng) (s : State), s.engRuns e = true → (s.engOf e).inSetup = false → (s.engOf e).inDelay = false →
    let x := s.engOf e
    x.hidden = none → x.twin = false →
    let marked (t : State) : Prop :=
      (x.ended = false → x.late = false → (t.engOf e).ended = true ∧ (t.engOf e).work = x.work) ∧
      (x.ended = false → x.late = true → (t.engOf e).ended = false ∧ (t.engOf e).late = false ∧ (t.engOf e).work = x.bidx ∧
        let k := (x.bidx - x.work) / s.nb - 1
        ((s.reg (ENG_SKIP_CNT.adr e)).toNat + k < 0xFFFFFFFF →
          t.reg (ENG_SKIP_CNT.adr e) = s.reg (ENG_SKIP_CNT.adr e) + BitVec.ofNat 32 k)) ∧
      (x.ended = true → (t.engOf e).ended = true ∧ (t.engOf e).work = x.work ∧ t.reg (ENG_CYC.adr e) = s.reg (ENG_CYC.adr e))
    s.runs (.eob e) (fun t => marked t ∧ (t.engOf e).mid = false ∧ t.engState e = s.engState e) ∧
    (x.waitFor = none → s.runs (.waitOp e) (fun t => marked t ∧
      if x.late && !x.ended then (t.engOf e).mid = false ∧ t.engState e = s.engState e
      else t.engState e = engWaiting ∧ (t.engOf e).waitFor = some (x.bidx + 2 * s.nb) ∧ (t.engOf e).r = x.r)) ∧
    (∀ n, x.waitFor = some n → s.runs (.waitOp e) (fun t =>
      if n ≤ x.bidx + s.nb then (t.engOf e).waitFor = none ∧ (t.engOf e).mid = false
      else t.engState e = engWaiting ∧ (t.engOf e).waitFor = some n))

/-- Signals and the control engine's own instructions (R94, R131, R132): SIGNAL and CEVT raise their events, BRK pends the debug
interrupt and latches its immediate, CIDLE puts the control engine to sleep, CRD and CWR of an address that answers an error
give 0 and set ACCERR; all four C instructions halt a processing engine with cause 1. -/
def Obligations.SignalsAndControl : Prop :=
  ∀ (e : Eng) (imm : BitVec 16) (b : BitVec 8) (g g2 : Fin 16) (resp : Fin 5) (s : State), s.engRuns e = true →
    let x := s.engOf e
    let off := (x.gget g2).toNat / 4 * 4
    (s.hears 0x28 1 → s.runs (.signal e imm) (fun t => t.told s 0x28 e (imm.setWidth 32) 0)) ∧
    s.runs (.brk e b) (fun t => (t.engOf e).brk = b ∧ bitOf (t.engOf e).estRead 27 = true) ∧
    (e.val = 16 →
      s.runs (.cidle e) (fun t => (t.engOf e).idle = true ∧ t.engRuns e = false ∧ (t.engOf e).mid = false) ∧
      (s.hears b.toNat 1 → s.runs (.cevt e b g) (fun t => t.told s b.toNat e (x.gget g) 0)) ∧
      (off < 0x1000000 → resp ≠ 0 → x.clearOf (.g g) → (∀ r ∈ x.curX, r.dst ≠ .sys 1) →
        s.runs (.crd e g g2 resp) (fun t => (t.engOf e).gget g = 0 ∧ bitOf (t.engOf e).r.est 20 = true) ∧
        s.runs (.cwr e g2 g resp) (fun t => bitOf (t.engOf e).r.est 20 = true ∧ ∀ o, 0x380000 ≤ o → o < 0xB00000 →
          t.reg o = s.reg o)) ∧
      (off = SCN_DEF.adr → resp = 0 → s.runs (.cwr e g2 g resp) (fun t => t.fld SCN_XDEF.LOCAL = bitsOf (x.gget g) 0 0)) ∧
      (0x380000 ≤ off → off < 0x3FFFFF → resp = 0 → x.clearOf (.g g) →
        s.runs (.crd e g g2 resp) (fun t => (t.engOf e).gget g = (s.barRead off).2))) ∧
    (e.val < 16 → let halts (t : State) : Prop := t.engState e = engHalted ∧ t.fld (ENG_STAT.CAUSE e) = 1
      s.runs (.crd e g g2 resp) halts ∧ s.runs (.cwr e g2 g resp) halts ∧ s.runs (.cidle e) halts ∧
      s.runs (.cevt e b g) halts)

/-- Interrupt entry (R73, R79, R80): at a boundary where it may, an engine with GIE takes the pending enabled source of the
lowest number: IPC, IEST, the vector, GIE and the source's IP bit. Elsewhere nothing changes. -/
def Obligations.InterruptEntry : Prop :=
  ∀ (e : Eng) (k : Nat) (s : State), k < 8 →
    let x := s.engOf e
    let pends (j : Nat) : Bool := x.ip.getLsbD j && bitOf x.r.ectl (8 + j)
    (s.engState e = engRunning ∨ s.engState e = engTwin ∨ s.engState e = engWaiting) → x.stopping = none →
    pends k = true → (∀ j < k, pends j = false) →
    let boundary : Prop := (x.mid = false ∨ x.stall = true) ∧ x.dly = 0 ∧ x.setup = 0 ∧ x.lwin = 0 ∧ bitOf x.r.ectl 7 = true
    (boundary → x.infl = [] → s.runs (.interruptEntry e) (fun t => (t.engOf e).r.ipc = x.r.pc ∧
      (t.engOf e).r.iest = x.estRead ∧ bitOf (t.engOf e).r.ectl 7 = false ∧ (t.engOf e).ip = x.ip &&& ~~~(BitVec.ofNat 8 (2 ^ k)) ∧
      (t.engOf e).r.pc = 16384 * x.bank + (x.r.ivb + 4 * k) % 16384 ∧ (t.engOf e).r.g = x.r.g ∧ (t.engOf e).mem = x.mem)) ∧
    (boundary → (∀ r ∈ x.infl, r.left ≤ 4) → s.runs (.interruptEntry e) (fun t => (t.engOf e).infl = [])) ∧
    (¬ boundary → s.runs (.interruptEntry e) (fun t => t = s))

/-- Latency (R71, R72): with nothing else issued, a result on its way with `left` bundles to go lands with the bundle that brings
it to 0, at its own value, and not before; two results of different bundles that land in one register together leave the
later one and set WCOLL. NOP issues a bundle; an IMEM parity error halts the engine with cause 4 and an illegal bundle with
cause 1. -/
def Obligations.ResultsInFlight : Prop :=
  ∀ (e : Eng) (g : Fin 16) (v : Nat) (s : State), s.engRuns e = true →
    let x := s.engOf e
    let into (r : Res) : Prop := r.dst = .g g
    (∀ l1 l2 a, x.infl = l1 ++ a :: l2 → x.curY = [] → x.curX = [] → a.dst = .g g → a.val = v →
      (∀ r ∈ l1 ++ l2, ¬ into r) →
      (a.left = 1 → s.runs (.nop e false) (fun t => (t.engOf e).gget g = BitVec.ofNat 32 v)) ∧
      (1 < a.left → s.runs (.nop e false) (fun t => (t.engOf e).gget g = x.gget g ∧
        (t.engOf e).coming (.g g) (a.left - 1) v))) ∧
    (∀ a b l, x.infl = a :: b :: l → x.curY = [] → x.curX = [] → a.dst = .g g → b.dst = .g g → a.left = 1 → b.left = 1 →
      a.age ≠ b.age → b.val = v → (∀ r ∈ l, ¬ into r) →
      s.runs (.nop e false) (fun t => (t.engOf e).gget g = BitVec.ofNat 32 v ∧ bitOf (t.engOf e).r.est 21 = true)) ∧
    s.runs (.nop e true) (fun t => t.engState e = engHalted ∧ t.fld (ENG_STAT.CAUSE e) = 4 ∧ (t.engOf e).haul = [] ∧
      t.isolated e = true) ∧
    (∀ w, bundleLegal (isCE e) x.inDelay w = false → x.mid = false → x.stall = false →
      s.runs (.illegalBundle e w) (fun t => t.engState e = engHalted ∧ t.fld (ENG_STAT.CAUSE e) = 1)) ∧
    (∀ w, bundleLegal (isCE e) x.inDelay w = true → s.runs (.illegalBundle e w) (fun t => t = s))

/-- Starts and stops of engines (R56-R58, R67-R70): a request of an engine at rest waits for the next block tick, which starts it
with registers zeroed at bundle 0 of the selected bank; a stop waits for the first boundary after it and reads STOPPED once
no haul transfer is left; ENG_START and ENG_STOP request the same of every engine of their mask (R388). -/
def Obligations.EngineStartStop : Prop :=
  ∀ (e : Eng) (v w tag : Word) (s : State),
    let x := s.engOf e
    let inMask (k : Nat) : Prop := k < 16 ∧ bitOf v k = true
    let rest (k : Nat) : Prop := s.engState k = engStopped ∨ s.engState k = engHalted
    let tableBad : Prop := w ≠ 0 ∧ (w.toNat < 0x100000 ∨ 0x180000 < w.toNat + 64 ∨ w.toNat % 4 ≠ 0)
    let c := s.ctxOf directPort 0x0201 tag [v, w]
    let d := s.ctxOf directPort 0x0202 tag [v]
    (s.admits directPort 0x0201 [v, w] = true →
      (tableBad → s.runs (.engStart 127 tag [v, w]) (fun t => t.answers s c stBadArg 0 0 ∧ t.eng = s.eng)) ∧
      (¬ tableBad → (∃ k, inMask k ∧ ¬ rest k) → s.runs (.engStart 127 tag [v, w]) (fun t => t.answers s c stBusy 0 0 ∧
        t.eng = s.eng)) ∧
      (¬ tableBad → v ≠ 0 → (∀ k, inMask k → rest k ∧ (s.engOf k).startReq = none) →
        s.runs (.engStart 127 tag [v, w]) (fun t => (t.cmdOf c.handle).isSome = true ∧ ∀ k, inMask k →
          (t.engOf k).startReq = some s.sidx ∧ (t.engOf k).startRing = (if w = 0 then none else some w.toNat)))) ∧
    (s.admits directPort 0x0202 [v] = true →
      ((∀ k, inMask k → s.engState k = engStopped) → s.runs (.engStop 127 tag [v]) (fun t =>
        t.answers s d stOk v.toNat 0 ∧ t.eng = s.eng)) ∧
      ((∃ k, inMask k ∧ s.engState k ≠ engStopped) → s.runs (.engStop 127 tag [v]) (fun t =>
        (t.cmdOf d.handle).isSome = true ∧ ∀ k, inMask k → s.engState k ≠ engStopped → (s.engOf k).stopReq = none →
          (t.engOf k).stopReq = some s.sidx))) ∧
    let allowed : Prop := e.val < 16 ∨ s.mode = 4
    (allowed → s.engState e = engStopped ∨ s.engState e = engHalted → x.startReq = none → s.mode ≠ 0 → s.mode ≠ 5 →
      s.runs (.engCtlRun e (v &&& 0xFFFFFFFD)) (fun t => (t.engOf e).startReq = some s.sidx ∧ t.fld (ENG_CTL.RUN e) = 1 ∧
        t.fld (ENG_CTL.BANK e) = bitsOf v 3 3 ∧ t.engState e = s.engState e)) ∧
    (allowed → s.engState e ≠ engStopped → x.stopReq = none →
      s.runs (.engCtlStop e v) (fun t => (t.engOf e).stopReq = some s.sidx ∧ t.fld (ENG_CTL.STOP e) = 1)) ∧
    (∀ mask : BitVec 16, s.mode ≠ 0 → s.mode ≠ 5 →
      s.runs (.engGrun mask) (fun t => ∀ k : Fin 16, mask.getLsbD k = true →
        s.engState k = engStopped ∨ s.engState k = engHalted → (s.engOf k).startReq = none →
        (t.engOf k).startReq = some s.sidx) ∧
      s.runs (.engGstop mask) (fun t => ∀ k : Fin 16, mask.getLsbD k = true → s.engState k ≠ engStopped →
        (s.engOf k).stopReq = none → (t.engOf k).stopReq = some s.sidx)) ∧
    (∀ n, x.startReq = some n → n < s.sidx → s.sidx % s.nb = 0 → s.engState e = engStopped ∨ s.engState e = engHalted →
      x.startRing = none →
      s.runs (.engStarted e) (fun t => t.engState e = engRunning ∧ t.fld (ENG_CTL.RUN e) = 0 ∧
        (t.engOf e).r = { ERegs.zero (s.fld (ENG_CTL.BANK e)) with ipc := x.r.ipc, iest := x.r.iest, ivb := x.r.ivb, hr := x.r.hr } ∧
        ∀ b, inDmem b = true → Memory.read (t.engOf e).mem b = Memory.read x.mem b)) ∧
    (∀ n, x.stopping = none → x.stopReq = some n → n < s.sidx → s.sidx % s.nb = 0 → x.prog = none →
      (∀ k < 8, x.haulOf k = none) → s.runs (.engStopped e) (fun t => t.engState e = engStopped ∧
        t.fld (ENG_CTL.STOP e) = 0 ∧ (t.engOf e).mem = x.mem ∧ (t.engOf e).kps = x.kps ∧ t.engRuns e = false))

/-- Host accesses to an engine (R67, R68, R79, R90): the doorbell sets its register and pends source 7; a window write to a bank
at rest or to DMEM stores the enabled bytes and no others; a write to an executing bank and to a busy kerf parameter entry
changes nothing and raises ENG_HOST_REFUSED; a write to an idle entry changes the entry; a CE window takes writes in SERVICE
only. The debug access port (R79, R467): locked for good by DEBUG_LOCK; a halt pends source 3, a single-step request sets
ECTL.SSTEP, a write stores one byte of the engine's local memory and a read changes nothing. -/
def Obligations.EngineHostAccess : Prop :=
  (∀ (e : Eng) (v : Word) (be : BitVec 4) (w : Fin 0xE0000) (s : State),
      let x := s.engOf e
      (e.val < 16 ∨ s.mode = 4 → s.runs (.engDoorbell e v) (fun t => (t.engOf e).dbell = v ∧
        bitOf (t.engOf e).estRead 31 = true ∧ (t.engOf e).r = x.r)) ∧
      (e.val = 16 → s.mode ≠ 4 → s.runs (.engDoorbell e v) (fun t => t = s) ∧
        s.runs (.engHostWindowWrite e w v be) (fun t => t = s)) ∧
      (e.val < 16 → 0x40000 ≤ w.val → w.val < 0xC0000 → s.runs (.engHostWindowWrite e w v be) (fun t => ∀ b,
        Memory.read (t.engOf e).mem b =
          if 0x100000 + (w.val - 0x40000) / 4 * 4 ≤ b ∧ b < 0x100000 + (w.val - 0x40000) / 4 * 4 + 4 ∧ be.getLsbD (b % 4) = true then
            v.extractLsb' (8 * (b % 4)) 8
          else Memory.read x.mem b)) ∧
      (e.val < 16 → w.val < 0x40000 → s.engState e = engRunning → x.bank = w.val / 0x20000 → s.hears 0x27 1 →
        s.runs (.engHostWindowWrite e w v be) (fun t => (t.engOf e).mem = x.mem ∧
          t.told s 0x27 e (BitVec.ofNat 32 (0x1000000 + e.val * 0xF0000 + w.val / 4 * 4)) v)) ∧
      (∀ (k : Fin 16) (i : Fin 4096),
        (((s.engOf k).kpsOf i).busy = true → s.hears 0x27 1 → ∀ j : Fin 4, s.runs (.kpsHostWrite k i j v be) (fun t =>
          (t.engOf k).kps = (s.engOf k).kps ∧
          t.told s 0x27 k (BitVec.ofNat 32 (0x10C0000 + k.val * 0xF0000 + 16 * i.val + 4 * j.val)) v)) ∧
        (((s.engOf k).kpsOf i).busy = false →
          s.runs (.kpsHostWrite k i 0 v 15) (fun t => ((t.engOf k).kpsOf i).start = v ∧ ((t.engOf k).kpsOf i).busy = false ∧
            ∀ j, j ≠ i.val → (t.engOf k).kpsOf j = (s.engOf k).kpsOf j)))) ∧
  (∀ (e : Eng) (a : BitVec 22) (b : Byte) (s : State),
      let x := s.engOf e
      (s.flag FUSE_STAT.DBGLOCK = true → ∀ r, s.runs (.debugAccessRequest e r) (fun t => t = s)) ∧
      (s.flag FUSE_STAT.DBGLOCK = false →
        s.runs (.debugAccessRequest e .halt) (fun t => bitOf (t.engOf e).estRead 27 = true ∧ (t.engOf e).r = x.r) ∧
        s.runs (.debugAccessRequest e .sstep) (fun t => bitOf (t.engOf e).r.ectl 1 = true ∧ (t.engOf e).mem = x.mem) ∧
        s.runs (.debugAccessRequest e (.read a)) (fun t => t = s) ∧
        s.runs (.debugAccessRequest e (.write a b)) (fun t => ∀ n, Memory.read (t.engOf e).mem n =
          if n = a.toNat then b else Memory.read x.mem n)))

/-- Program swaps (R91, R92, R176, R177, R179): a swap is refused BUSY while one is pending and WRONG_MODE on an engine at rest;
else it waits for the next block boundary. There a plain swap goes to bundle 0 of the other bank with every register
inherited and a twin run gets a zeroed second context; ENG_SWAPPED comes once the crossfade is over. -/
def Obligations.ProgramSwaps : Prop :=
  ∀ (e : Fin 16) (a1 tag : Word) (s : State),
    let x := s.engOf e
    let args : List Word := [BitVec.ofNat 32 e.val, a1]
    let c := s.ctxOf directPort 0x0204 tag args
    (s.admits directPort 0x0204 args = true → schedBlock 0x0204 args = none →
      (x.prog.isSome = true → s.runs (.progSwap 127 tag args) (fun t => t.answers s c stBusy 0 0 ∧ t.eng = s.eng)) ∧
      (x.prog = none → s.engState e = engStopped ∨ s.engState e = engHalted →
        s.runs (.progSwap 127 tag args) (fun t => t.answers s c stWrongMode 0 0 ∧ t.eng = s.eng)) ∧
      (x.prog = none → s.engState e ≠ engStopped → s.engState e ≠ engHalted → s.runs (.progSwap 127 tag args) (fun t =>
        ∃ k, (t.engOf e).prog = some k ∧ s.sidx < k.s ∧ k.s ≤ s.sidx + s.nb ∧ k.s % s.nb = 0 ∧ k.started = false ∧
          (t.engOf e).r = x.r))) ∧
    (∀ k, x.prog = some k → k.started = false → k.s ≤ s.sidx → s.sidx % s.nb = 0 → s.engState e ≠ engStopped →
      s.engState e ≠ engHalted →
      (k.span = 0 → x.infl = [] → s.runs (.progSwapApply e) (fun t => (t.engOf e).bank = 1 - x.bank ∧
        (t.engOf e).r = { x.r with pc := 16384 * (1 - x.bank) } ∧ (t.engOf e).mem = x.mem)) ∧
      (0 < k.span → s.runs (.progSwapApply e) (fun t => (t.engOf e).hidden = some (ERegs.zero (1 - x.bank)) ∧
        (t.engOf e).r = x.r ∧ (t.engOf e).bank = x.bank))) ∧
    (∀ k, x.prog = some k → k.alone = true → k.s + s.nb + k.span ≤ s.sidx → s.hears 0x25 1 →
      s.runs (.engSwapped e) (fun t => (t.engOf e).prog = none ∧ t.told s 0x25 e (BitVec.ofNat 32 x.bank) (lo32 k.s)))

/-- Parameter changes (R161-R168, R388): PARAM_SET on an entry that is at rest puts a kerf, or with span 0 or another FMT a step,
into the entry's record from the first sample of the block on; a kerf's command waits, a step's is done; a reserved FMT or a
dB-linear change to a negative value is refused and changes nothing. A kerf that has reached its target completes its
command. -/
def Obligations.ParameterChanges : Prop :=
  ∀ (e : Fin 16) (i : Fin 4096) (tgt kerf tag : Word) (old : KSt) (s : State),
    let x := s.engOf e
    let args : List Word := [BitVec.ofNat 32 (e.val * 2 ^ 28 + i.val), tgt, kerf]
    let c := s.ctxOf directPort 0x0203 tag args
    let n := s.sidx / s.nb * s.nb
    let fmt := bitsOf kerf 24 23
    let span := if bitOf kerf 31 then s.fld KRF_XPDEF.SPAN else bitsOf kerf 16 0
    let curve := if bitOf kerf 31 then s.fld KRF_XPDEF.CURVE else bitsOf kerf 27 26
    let prev := old.valueAt (n - 1)
    (s.admits directPort 0x0203 args = true → schedBlock 0x0203 args = none →
      (fmt = 3 ∨ (curve = 2 ∧ (fmt = 2 ∨ tgt.toInt < 0)) →
        s.runs (.paramSet 127 tag args) (fun t => t.answers s c stBadArg 0 0 ∧ t.eng = s.eng)) ∧
      (x.recOf i = [old] → old.busy = false → old.s0 < n → old.handle = none → span ≤ 65536 → fmt ≠ 3 →
        (curve = 2 → fmt ≠ 2 ∧ 0 ≤ tgt.toInt ∧ 0 ≤ prev.toInt) →
        s.runs (.paramSet 127 tag args) (fun t =>
          let k := recAt ((t.engOf e).recOf i) n
          (∀ m, m < n → recAt ((t.engOf e).recOf i) m = old) ∧ k.s0 = n ∧ k.fmt = fmt ∧ k.tgt = tgt ∧
          if span = 0 ∨ fmt ≠ old.fmt then k.busy = false ∧ k.start = tgt ∧ (s.scn.runs = [] → t.cmdOf c.handle = none)
          else k.busy = true ∧ k.start = prev ∧ k.span = span ∧ k.curve = curve ∧ k.handle = some c.handle ∧
            (t.cmdOf c.handle).isSome = true))) ∧
    s.runs (.paramKerfEnd e i) (fun t =>
      (∀ k ∈ (t.engOf e).recOf i, k.busy = true → k.s0 + k.span ≤ s.sidx → k.handle = none) ∧
      (∀ m, (recAt ((t.engOf e).recOf i) m).valueAt m = (recAt (x.recOf i) m).valueAt m) ∧
      (s.scn.runs = [] → ∀ k ∈ x.recOf i, k.busy = true → k.s0 + k.span ≤ s.sidx → ∀ h, k.handle = some h → t.cmdOf h = none))

/-- The block tick of an engine (R40, R53, R54, R64, R76, R79, R130) and a deadline overrun (R53, R90): the blocks change roles;
an executing engine that has marked its block plays it, and one that has not is late and fades its last good block out; WAIT
ends; ENG_OVERRUN names the late block. -/
def Obligations.EngineBlockTick : Prop :=
  ∀ (e : Fin 16) (s : State),
    let x := s.engOf e
    let runs : Prop := (s.engState e = engRunning ∨ s.engState e = engWaiting) ∧ x.stopping = none ∧ x.prog = none
    (s.sidx % s.nb = 0 → s.glb.lastBlock ≠ s.sidx → s.glb.porst = false → s.runs (.blockTick []) (fun t =>
      let y := t.engOf e
      y.bidx = s.sidx - s.nb ∧ y.ocur = otherBlk x.ocur ∧ y.icur = otherBlk x.icur ∧ y.ended = false ∧
      (runs → bitOf y.estRead 28 = true ∧ (s.engState e = engWaiting → y.waitFor = none) ∧
        y.late = !x.ended ∧ y.missed = !x.ended ∧
        (x.ended = true → y.play = if x.clean then .good else .fadeIn) ∧
        (x.ended = false → y.play = if x.play = .good ∨ x.play = .fadeIn then .fadeOut else .zero)))) ∧
    (s.glb.porst = false → ∀ edges, s.runs (.sampleTick edges) (fun t => t.sidx = s.sidx + 1 ∧
      ∀ k, (t.engOf k).r = (s.engOf k).r ∧ (t.engOf k).kps = (s.engOf k).kps)) ∧
    (s.glb.porst = true → ∀ edges, s.runs (.sampleTick edges) (fun t => t = s)) ∧
    (x.missed = true → s.hears 0x21 1 → s.runs (.deadlineOverrun e) (fun t => (t.engOf e).missed = false ∧
      t.told s 0x21 e (lo32 (x.bidx - s.nb)) (hi32 (x.bidx - s.nb)) ∧
      (bitOf x.r.ectl 10 = true → bitOf (t.engOf e).estRead 26 = true) ∧
      (s.reg (ENG_OVR_CNT.adr e) ≠ 0xFFFFFFFF → t.reg (ENG_OVR_CNT.adr e) = s.reg (ENG_OVR_CNT.adr e) + 1)))

/-- The end of a haul transfer (R83-R85): the slot is free; a transfer of one row without a ring has moved its bytes between DMEM
and the yard and no others; an error response sets the slot's error bit, pends source 1 and raises ENG_HAUL_ERR. -/
def Obligations.HaulTransfers : Prop :=
  ∀ (e : Eng) (k : Fin 8) (h : Haul) (resp : Fin 5) (pos : Word) (s : State),
    let x := s.engOf e
    x.haulOf k = some h → s.isolated e = false → h.yrows = 1 → h.ringed = false → 8 ≤ h.xbytes →
    0x100000 ≤ h.laddr → h.laddr + h.xbytes ≤ 0x180000 → h.fbase + h.xbytes ≤ 0x2000000 →
    (∀ j < h.xbytes, s.bankPwr ((h.fbase + j) / 0x80000) = 0) →
    (resp = 0 → s.runs (.haulTransferEnd e k resp pos) (fun t => (t.engOf e).haulOf k = none ∧ (t.engOf e).herr = x.herr ∧
      (h.irq = true → bitOf (t.engOf e).estRead 30 = true) ∧ t.far.sdr = s.far.sdr ∧
      (h.toFar = true → (t.engOf e).mem = x.mem ∧ ∀ a, Memory.read t.far.yard a =
        if h.fbase ≤ a ∧ a < h.fbase + h.xbytes then Memory.read x.mem (h.laddr + (a - h.fbase)) else Memory.read s.far.yard a) ∧
      (h.toFar = false → t.far.yard = s.far.yard ∧ ∀ a, Memory.read (t.engOf e).mem a =
        if h.laddr ≤ a ∧ a < h.laddr + h.xbytes then Memory.read s.far.yard (h.fbase + (a - h.laddr)) else Memory.read x.mem a))) ∧
    (resp ≠ 0 → pos.toNat < h.xbytes → s.hears 0x24 1 → s.runs (.haulTransferEnd e k resp pos) (fun t =>
      (t.engOf e).haulOf k = none ∧ (t.engOf e).herr = x.herr ||| BitVec.ofNat 8 (2 ^ k.val) ∧
      bitOf (t.engOf e).estRead 25 = true ∧
      t.told s 0x24 e (BitVec.ofNat 32 (k.val * 256 + resp.val)) (BitVec.ofNat 32 h.foff)))

/-- Mode changes (R21, R22, R24): MODE_SET answers at once where R21 forbids the change, names the current mode or another change
waits; else it waits for the next block boundary, where MODE_CHANGED enters the mode and raises its event, and it is done
when the outputs have faded and every running port has begun a frame in the new mode. Automatic entry to SAFE (R23, R25,
R451): at the first block boundary after the cause the mode is SAFE with its cause, a pending MODE_SET is over, no engine
executes and no scene is armed; before that boundary nothing changes. -/
def Obligations.ModeChanges : Prop :=
  (∀ (m : Fin 8) (tag : Word) (s : State),
      let args : List Word := [BitVec.ofNat 32 m.val]
      let c := s.ctxOf directPort 0x0101 tag args
      let listed : Prop := (s.mode, m.val) ∈ [(1, 2), (1, 3), (1, 4), (1, 5), (2, 1), (2, 3), (2, 5), (3, 1), (3, 2), (3, 5),
        (4, 1), (4, 5), (5, 1), (5, 4)]
      let waits : Prop := s.glb.modePend.isSome = true ∨ s.flag GLB_RATE.PENDING = true ∨ s.glb.burning = true
      (s.admits directPort 0x0101 args = true →
        (m.val = 0 ∨ 6 ≤ m.val → s.runs (.modeSet 127 tag args) (fun t => t.answers s c stBadArg 0 0 ∧ t.mode = s.mode)) ∧
        (m.val = s.mode → 1 ≤ m.val → m.val ≤ 5 → s.runs (.modeSet 127 tag args) (fun t =>
          t.answers s c stOk s.mode 0 ∧ t.glb = s.glb)) ∧
        (1 ≤ m.val → m.val ≤ 5 → m.val ≠ s.mode → ¬ listed → s.runs (.modeSet 127 tag args) (fun t =>
          t.answers s c stWrongMode 0 0 ∧ t.glb = s.glb)) ∧
        (listed → waits → s.runs (.modeSet 127 tag args) (fun t => t.answers s c stBusy 0 0 ∧ t.glb = s.glb)) ∧
        (listed → ¬ waits → (s.mode = 5 → s.flag THM_STAT.WARN = false) → m.val ≠ 2 ∧ m.val ≠ 3 →
          s.runs (.modeSet 127 tag args) (fun t => t.mode = s.mode ∧ t.flag GLB_MODE.PENDING = true ∧
            t.fld GLB_MODE.TARGET = m.val ∧ ∃ p, t.glb.modePend = some p ∧ p.target = m.val ∧ p.accepted = s.sidx ∧
              p.changedAt = none ∧ p.handle = c.handle))) ∧
      (∀ p, s.glb.modePend = some p → p.changedAt = none → p.accepted < s.sidx → s.sidx % s.nb = 0 → s.pairOn = false →
        1 ≤ p.target → p.target ≤ 5 → s.runs .modeChanged (fun t => t.mode = p.target ∧
          (∃ q, t.glb.modePend = some q ∧ q.changedAt = some s.sidx ∧ q.prev = s.mode) ∧
          (p.target ≤ 3 → s.out.paths = [] → s.hears 0x01 1 → t.told s 0x01 p.target (BitVec.ofNat 32 p.target) (BitVec.ofNat 32 s.mode)))) ∧
      (∀ p n, s.glb.modePend = some p → p.changedAt = some n → n < s.sidx →
        (∀ fade ∈ [s.out.mode, s.out.safe], fade.span = 0 ∨ fade.at_ + fade.span ≤ s.sidx) →
        (∀ p < 32, s.tdmState p = tdmRun → (s.tdmOf p).fmode = s.mode) →
        s.runs .modeFadeEnd (fun t => t.glb.modePend = none ∧ t.flag GLB_MODE.PENDING = false ∧ t.cmdOf p.handle = none ∧
          t.mode = s.mode))) ∧
  (∀ (cause n : Nat) (s : State), s.glb.safePend = some (cause, n) →
      (n < s.sidx → s.sidx % s.nb = 0 → cause < 256 → s.runs .safeEntered (fun t => t.mode = 5 ∧
        t.fld GLB_MODE.SAFE_CAUSE = cause ∧ t.glb.safePend = none ∧ t.glb.modePend = none ∧ (s.fld SCN_STAT.STATE ≠ 0 → t.scn.acts = []) ∧
        (s.fld SCN_STAT.STATE = 0 → s.scn.sched = [] → s.pairOn = false → ∀ e : Fin 16,
          t.engState e = if s.engState e = engStopped then engStopped else engHalted))) ∧
      (s.sidx ≤ n ∨ s.sidx % s.nb ≠ 0 → s.runs .safeEntered (fun t => t = s)))

/-- Rate changes (R33-R35): a write of GLB_RATE that R33 refuses sets REFUSE and raises RATE_REFUSED; an accepted one applies at
a multiple of 64 at least 64 samples on. -/
def Obligations.RateChanges : Prop :=
  ∀ (v : Word) (s : State), s.glb.testEn = false → s.xmode ⟨0xFC, 0, false⟩ = false → s.inReset ⟨0xFC, 0, false⟩ = false →
    (s.mode ≠ 1 → s.mode ≠ 4 → s.hears 0x06 1 → s.runs (.glbRateWrite v) (fun t => t.fld GLB_RATE.REFUSE = 1 ∧
      t.fs = s.fs ∧ t.nb = s.nb ∧ t.glb = s.glb ∧ t.told s 0x06 0 1 v)) ∧
    (s.mode = 1 → s.rateOfFamily (bitsOf v 2 0) = false → s.runs (.glbRateWrite v) (fun t => t.fld GLB_RATE.REFUSE = 2 ∧
      t.fs = s.fs ∧ t.glb = s.glb)) ∧
    (s.mode = 1 → s.rateOfFamily (bitsOf v 2 0) = true → s.flag GLB_RATE.PENDING = true → s.runs (.glbRateWrite v)
      (fun t => t.fld GLB_RATE.REFUSE = 4 ∧ t.fs = s.fs ∧ t.glb = s.glb)) ∧
    (s.rateCause (bitsOf v 2 0) (bitsOf v 9 8) = 0 → s.runs (.glbRateWrite v) (fun t => t.flag GLB_RATE.PENDING = true ∧
      t.fld GLB_RATE.REFUSE = 0 ∧ t.fs = s.fs ∧ ∃ n, t.glb.ratePend = some (bitsOf v 2 0, bitsOf v 9 8, n) ∧ n % 64 = 0 ∧
        s.sidx + 64 ≤ n ∧ n < s.sidx + 128)) ∧
    (∀ r b n, s.glb.ratePend = some (r, b, n) → r < 6 → b < 4 → n ≤ s.sidx → s.sidx % 64 = 0 → s.runs .rateChanged (fun t => t.fs = rateHz r ∧
      t.nb = 8 * 2 ^ b ∧ t.flag GLB_RATE.PENDING = false ∧ t.glb.ratePend = none ∧ t.sidx = s.sidx))

/-- XMODE and the level registers (R29, R30, R32, R41, R51): a write to an Expert page sets XMODE; a write to a Basic page under
XMODE changes nothing and raises BASIC_LOCKED; in a Basic reset either page answers LEVEL_BUSY; a plain register takes its
value; PEG bits clear with their counters; GLB_SCNT_LO latches the rest of the sample counter. REG_WRITE (R30, R32, R187,
R388): an offset that R187 does not allow is refused; a Basic page under XMODE answers WRONG_MODE and a function in a Basic
reset BUSY, with no register changed; else the masked bits are written. Basic resets (R31, R32): the write sets the
function's BASIC_RESET bit; at the next boundary its Expert registers are rewritten from the Basic page and the defaults; at
the second one XMODE and BASIC_RESET clear together. -/
def Obligations.RegisterPages : Prop :=
  (∀ (v : Word) (s : State), s.glb.testEn = false →
      let o : Owner := ⟨0x3000FC, 0, false⟩
      (s.inReset o = false → bitsOf v 16 0 ≤ 65536 → s.runs (.registerWrite 0x300104 v 15) (fun t => t.xmode o = true ∧
        t.fld KRF_TDEF.SPAN = bitsOf v 16 0 ∧ t.reg KRF_DEF.adr = s.reg KRF_DEF.adr)) ∧
      (s.xmode o = true → s.inReset o = false → s.hears 0x03 1 → s.runs (.registerWrite 0x300004 v 15) (fun t =>
        t.reg KRF_DEF.adr = s.reg KRF_DEF.adr ∧ t.told s 0x03 1 0x3000FC 0x300004)) ∧
      (s.xmode o = false → s.inReset o = true → s.hears 0x04 1 →
        s.runs (.registerWrite 0x300004 v 15) (fun t => t.reg KRF_DEF.adr = s.reg KRF_DEF.adr ∧
          t.told s 0x04 1 0x3000FC 0x300004) ∧
        s.runs (.registerWrite 0x300104 v 15) (fun t => t.reg KRF_TDEF.adr = s.reg KRF_TDEF.adr ∧ t.xmode o = false)) ∧
      (s.inReset o = false → s.runs (.pegClear (BitVec.ofNat 26 KRF_PEG.adr) v) (fun t =>
        ∀ k : Fin 3, t.reg (KRF_QUEUED_CNT.adr + 4 * k.val) = (if v.getLsbD k then 0 else s.reg (KRF_QUEUED_CNT.adr + 4 * k.val)) ∧
          bitOf (t.reg KRF_PEG.adr) k = (bitOf (s.reg KRF_PEG.adr) k && !v.getLsbD k))) ∧
      (∀ cyc : Fin 1024, s.runs (.glbScntLoRead cyc) (fun t => t.reg GLB_SCNT_HI.adr = hi32 s.sidx ∧ t.sidx = s.sidx ∧
        (s.fld GLB_RATE.RATE = 3 → cyc.val < 512 → t.fld GLB_SPHASE.PHASE = cyc.val * 128)))) ∧
  (∀ (off v mask tag : Word) (s : State),
      let args : List Word := [off, v, mask]
      let c := s.ctxOf directPort 0x0103 tag args
      let o : Owner := ⟨0x3800FC, 0, false⟩
      let new := (s.written OUT_DEF.adr &&& ~~~ mask) ||| (v &&& mask)
      s.admits directPort 0x0103 args = true → schedBlock 0x0103 args = none →
      (off.toNat < 0x380000 → s.runs (.regWrite 127 tag args) (fun t => t.answers s c stBadArg 0 0 ∧
        ∀ a, 0x200000 ≤ a → a < 0xF00000 → t.reg a = s.reg a)) ∧
      (off.toNat = OUT_DEF.adr →
        (s.xmode o = true → s.runs (.regWrite 127 tag args) (fun t => t.answers s c stWrongMode 0 0 ∧
          t.reg OUT_DEF.adr = s.reg OUT_DEF.adr)) ∧
        (s.xmode o = false → s.inReset o = true → s.runs (.regWrite 127 tag args) (fun t => t.answers s c stBusy 0 0 ∧
          t.reg OUT_DEF.adr = s.reg OUT_DEF.adr)) ∧
        (s.xmode o = false → s.inReset o = false → bitsOf new 22 16 ≤ 64 → 1 ≤ bitsOf new 10 0 → bitsOf new 10 0 ≤ 2000 →
          s.runs (.regWrite 127 tag args) (fun t => t.fld OUT_DEF.LA = bitsOf new 22 16 ∧ t.fld OUT_DEF.REL = bitsOf new 10 0 ∧
            t.answers s c stOk 0 (t.readReg OUT_DEF.adr).toNat)))) ∧
  (∀ (v : Word) (s : State),
      (∀ (lvl : BitVec 24) (o : Owner), owner lvl.toNat = some o → o.lvl = lvl.toNat → s.glb.testEn = false →
        s.runs (.basicReset lvl v) (fun t => ∀ k, k < lvlFuncs lvl.toNat →
          bitOf (t.reg lvl.toNat) k = bitOf (s.reg lvl.toNat) k ∧
          bitOf (t.reg lvl.toNat) (8 + k) = (bitOf (s.reg lvl.toNat) (8 + k) || bitOf v (8 + k)) ∧
          (bitOf v (8 + k) = true → bitOf (s.reg lvl.toNat) (8 + k) = false →
            (⟨lvl.toNat, k, s.sidx, none⟩ : BasicRst) ∈ t.glb.resets))) ∧
      (∀ n, s.sidx % s.nb = 0 → n < s.sidx → s.glb.resets = [⟨0x3000FC, 0, n, none⟩] → s.runs .basicResetApply (fun t =>
        t.reg KRF_XPDEF.adr = s.reg KRF_DEF.adr ∧ t.reg KRF_TDEF.adr = regReset KRF_TDEF.adr ∧
        t.glb.resets = [⟨0x3000FC, 0, n, some s.sidx⟩])) ∧
      (∀ lvl k a n, s.sidx % s.nb = 0 → n < s.sidx → k < 4 → s.glb.resets = [⟨lvl, k, a, some n⟩] →
        s.runs .basicResetComplete (fun t => bitOf (t.reg lvl) k = false ∧ bitOf (t.reg lvl) (8 + k) = false ∧
          t.glb.resets = [])) ∧
      (∀ c : Instr, c = .basicResetApply ∨ c = .basicResetComplete → s.sidx % s.nb ≠ 0 → s.runs c (fun t => t = s)))

/-- Counter snapshots (R51, R281, R388): a command for no window or with too small an area is refused; else it waits for the
block boundary, where each counter is written with its offset and cleared; RAFT_SNAP's marker uses the area kept. -/
def Obligations.CounterSnapshots : Prop :=
  ∀ (off cap tag : Word) (s : State),
    let far (a : Word) : List Word := [off, a, 0, cap]
    let offs := snapOffsets false 0x300000
    (∀ a, s.admits directPort 0x0102 (far a) = true → bitOf off 31 = false →
      let c := s.ctxOf directPort 0x0102 tag (far a)
      ((windowAt (bitsOf off 25 0)).isNone = true →
        s.runs (.counterSnap 127 tag (far a)) (fun t => t.answers s c stBadArg 0 0 ∧ t.glb = s.glb)) ∧
      (bitsOf off 25 0 = 0x300000 → cap.toNat < 48 →
        s.runs (.counterSnap 127 tag (far a)) (fun t => t.answers s c stNoResource 0 0 ∧ t.glb = s.glb)) ∧
      (bitsOf off 25 0 = 0x300000 → 48 ≤ cap.toNat → s.runs (.counterSnap 127 tag (far a)) (fun t =>
        t.glb.snaps = s.glb.snaps ++ [⟨some c.handle, false, 0x300000, a.toNat, cap.toNat, s.sidx⟩]))) ∧
    (∀ h a n, s.sidx % s.nb = 0 → n < s.sidx → s.glb.snaps = [⟨h, false, 0x300000, a, cap.toNat, n⟩] → a + 48 ≤ 0x2000000 →
      (∀ j < 48, s.bankPwr ((a + j) / 0x80000) = 0) →
      (48 ≤ cap.toNat → s.runs .counterSnapCapture (fun t => t.glb.snaps = [] ∧ offs.length = 6 ∧ ∀ i : Fin 6,
        t.reg (offs.getD i 0) = 0 ∧ leValue (Memory.readBytes t.far.yard (a + 8 * i.val) 4) = offs.getD i 0 ∧
        leValue (Memory.readBytes t.far.yard (a + 8 * i.val + 4) 4) = (s.reg (offs.getD i 0)).toNat)) ∧
      (cap.toNat < 48 → s.runs .counterSnapCapture (fun t => t.glb.snaps = [] ∧ t.far = s.far ∧
        ∀ i : Fin 6, t.reg (offs.getD i 0) = s.reg (offs.getD i 0)))) ∧
    (∀ n h, s.raft.snaps = [(n, h)] → n ≤ s.sidx →
      (s.host.snapArea = none → s.runs .snapshotAtMarker (fun t => t.raft.snaps = [] ∧ ∀ i : Fin 6,
        t.reg (offs.getD i 0) = s.reg (offs.getD i 0))) ∧
      (∀ a c, s.host.snapArea = some (a, c) → 8 * ctrOffsets.length ≤ c → a + 8 * ctrOffsets.length ≤ 0x2000000 →
        (∀ j < 8 * ctrOffsets.length, s.bankPwr ((a + j) / 0x80000) = 0) →
        s.runs .snapshotAtMarker (fun t => t.raft.snaps = [] ∧ ∀ i : Fin 6, t.reg (offs.getD i 0) = 0)))

/-- Lifetime settings (R391, R466-R470): FUSE_ARM gives a code for a setting with a slot left, FUSE_WRITE with that code burns,
any other code drops the arming; a burn consumes a slot whether or not it verifies. -/
def Obligations.FuseCommands : Prop :=
  ∀ (args : List Word) (tag : Word) (s : State),
    let ca := s.ctxOf directPort 0x0105 tag args
    let cw := s.ctxOf directPort 0x0106 tag args
    let k := bitsOf (args.getD 0 0) 2 0
    (s.admits directPort 0x0105 args = true →
      (armValue args = none → s.runs (.fuseArm 127 tag args) (fun t => t.answers s ca stBadArg 0 0 ∧ t.fuse.armed = none)) ∧
      (∀ v, armValue args = some v → s.fuse.burn = none → s.flag SUP_STAT.WARN = false →
        (s.slotsLeft k = 0 → s.runs (.fuseArm 127 tag args) (fun t => t.answers s ca stFuseExhausted 0 0 ∧
          t.fuse.armed = none)) ∧
        (0 < s.slotsLeft k → s.runs (.fuseArm 127 tag args) (fun t => ∃ code, 0 < code ∧ code < 65536 ∧
          t.fuse.armed = some (k, v, code) ∧ t.answers s ca stOk code (s.slotsLeft k) ∧ t.fuse.arr = s.fuse.arr)))) ∧
    (s.admits directPort 0x0106 args = true → s.fuse.burn = none → ∀ j v code, s.fuse.armed = some (j, v, code) →
      (j ≠ k ∨ code ≠ bitsOf (args.getD 1 0) 15 0 → s.runs (.fuseWrite 127 tag args) (fun t =>
        t.answers s cw stBadArg 0 (s.slotsLeft k) ∧ t.fuse.armed = none ∧ t.fuse.burn = none)) ∧
      (j = k → code = bitsOf (args.getD 1 0) 15 0 → s.flag SUP_STAT.WARN = false → s.runs (.fuseWrite 127 tag args) (fun t =>
        t.fuse.burn = some (cw.handle, k, v) ∧ t.fuse.armed = none ∧ t.flag FUSE_STAT.BURNING = true ∧
        t.fuse.arr = s.fuse.arr))) ∧
    (∀ h j v, s.fuse.burn = some (h, j, v) → j < 5 →
      (s.direct → s.hears 0x0E 1 → s.runs (.fuseWritten true) (fun t => t.fuse.burn = none ∧ t.consumed j = s.consumed j ++ [(true, v)] ∧
        t.fuseValue j = some v ∧ t.flag FUSE_STAT.BURNING = false ∧
        t.told s 0x0E j (BitVec.ofNat 32 (s.consumed j).length) 0)) ∧
      (s.runs (.fuseWritten false) (fun t => t.fuse.burn = none ∧
        t.consumed j = s.consumed j ++ [(false, v)] ∧ t.fuseValue j = s.fuseValue j))) ∧
    s.runs .fuseArmExpiry (fun t => t.fuse.armed = none ∧ t.flag FUSE_STAT.ARMED = false ∧ t.fuse.arr = s.fuse.arr)

/-- Reset and boot (R39, R391, R454-R465): PORST_N returns everything but the fuse array to reset; its release starts the ROM at
sample 0; a source that fails falls back to the host or stays in BOOT; the control engine's report enters the boot mode and
its silence fails the image with cause 7; BOOT_IMAGE is for the host source only. -/
def Obligations.ResetAndBoot : Prop :=
  ∀ (b : Bool) (sel : Fin 4) (fam : Bool) (tr : BitVec 2) (tag : Word) (args : List Word) (key : BitVec 256) (ok : Bool) (s : State),
    let c := s.ctxOf directPort 0x0104 tag args
    (s.fuse.burn = none → s.runs (.porstAssert b) (fun t => t.eng = [] ∧ t.sidx = 0 ∧ t.mode = 0 ∧ t.glb.porst = true ∧
      t.fuse.arr = s.fuse.arr ∧ t.host.cmds = [] ∧ t.fld GLB_RSTCAUSE.CAUSE = 1 ∧ t.pending = s.pending)) ∧
    (s.glb.porst = true →
      s.runs (.porstRelease sel true (some fam) none tr) (fun t => t.glb.testEn = true ∧ t.boot.phase = s.boot.phase) ∧
      s.runs (.porstRelease 1 false (some fam) none tr) (fun t => t.boot.phase = .host ∧ t.glb.porst = false ∧ t.sidx = 0 ∧
        t.fld GLB_BOOT.SRC = 1 ∧ t.fld GLB_RATE.FAM = b2n fam) ∧
      s.runs (.porstRelease 0 false (some fam) none tr) (fun t => t.boot.phase = .failed ∧ t.fld GLB_BOOT.FAIL = 1) ∧
      s.runs (.porstRelease 2 false (some fam) none tr) (fun t => t.boot.phase = .host ∧ t.fld GLB_BOOT.FAIL = 1) ∧
      s.runs (.porstRelease sel false none none tr) (fun t => t.fld GLB_RSTCAUSE.CAUSE = 4)) ∧
    (∀ f, s.boot.phase = .ce f →
      s.runs .ceReadyReport (fun t => t.boot.phase = .up ∧ t.fld GLB_BOOT.STEP = 6 ∧
        t.mode = (if s.fld GLB_BOOT.SRC = 3 then 4 else 1)) ∧
      (s.boot.copyB = none → s.runs .bootCeTimeout (fun t => t.fld GLB_BOOT.FAIL = 7 ∧ t.engState 16 = engStopped ∧
        t.boot.phase = (if f = 2 ∨ s.fld GLB_BOOT.SRC = 2 then .host else .failed)))) ∧
    (s.admits directPort 0x0104 args = true →
      (s.boot.phase = .up ∨ s.boot.phase = .failed → s.runs (.bootImage 127 tag args key ok tr) (fun t =>
        t.answers s c stWrongMode 0 0 ∧ t.boot = s.boot)) ∧
      (s.boot.phase = .host →
        let m := s.yardImage ((args.getD 0 0).toNat + 2 ^ 32 * (args.getD 1 0).toNat) key ok
        (s.imageCause m = 5 → (hdrW m 2).toNat = (args.getD 2 0).toNat →
          (args.getD 0 0).toNat + 2 ^ 32 * (args.getD 1 0).toNat + (args.getD 2 0).toNat ≤ 0x2000000 →
          s.runs (.bootImage 127 tag args key ok tr) (fun t => t.boot.phase = .host ∧ t.fld GLB_BOOT.FAIL = 5 ∧
            t.cmdOf c.handle = none)) ∧
        (s.imageCause m = 0 → (hdrW m 2).toNat = (args.getD 2 0).toNat →
          (args.getD 0 0).toNat + 2 ^ 32 * (args.getD 1 0).toNat + (args.getD 2 0).toNat ≤ 0x2000000 →
          s.runs (.bootImage 127 tag args key ok tr) (fun t => t.boot.phase = .ce 2 ∧ t.boot.cmd = some c.handle ∧
            t.engState 16 = engRunning ∧ (t.engOf 16).r.pc = 0))))

/-- Route commands and table writes on their way (R29, R142, R146, R148-R150): a table write is staged and sets XMODE; a route
command whose sink or source is not listed or not present answers BAD_ARG with the cause and the sink, records LND_REFUSE and
its counter; else it completes at the next sample tick, where with span 0 and a free sink its source is in force, or silence
after a ROUTE_CLEAR. Route changes that apply (R143-R149, R161, R170): with no kerf in flight, a staged entry or a route
command takes a free sink: with span 0 the source is in force at once and the sink's word is the source's word of the one
snapshot; with a longer span a kerf starts from the source in force. A sink that another entry owns is refused with cause 3.
When a kerf is over, its target is in force. -/
def Obligations.Routes : Prop :=
  (∀ (i : Fin 16384) (v a0 a1 tag : Word) (s : State),
      let o : Owner := ⟨0x2000FC, 0, false⟩
      let sink := bitsOf a0 30 16
      let src := bitsOf a0 14 0
      let span := if bitOf a1 31 then 64 else bitsOf a1 16 0
      let curve := if bitOf a1 31 then 1 else bitsOf a1 27 26
      let word (cause : Nat) : Word := BitVec.ofNat 32 (cause * 2 ^ 24 + 0x8000 + sink)
      let still : Prop := s.lnd.kerfs = [] ∧ s.lnd.queue = [] ∧ s.lnd.held = [] ∧ s.lnd.reqs = [] ∧ s.dueEntries = []
      let atTick (t : State) (P : State → Prop) : Prop := ({ t with sidx := t.sidx + 1 } : State).runs .routeChangeApply P
      let reach (span : Nat) (n : Nat) (t u : State) : Prop := u.lnd.reqs = [] ∧
        (span = 0 → u.srcInForce n = src ∧ wordOf u.lnd.snk sink = wordOf t.lnd.snap src)
      (s.glb.testEn = false → s.inReset o = false → s.runs (.routeTableWrite i v) (fun t =>
        Tbl.find t.stg (LND_RT_CFG.adr i) = some (v &&& 0xFFFF7FFF) ∧ t.xmode o = true ∧ t.lnd = s.lnd ∧
        t.reg (LND_RT_CFG.adr i) = s.reg (LND_RT_CFG.adr i) ∧ t.sidx = s.sidx ∧
        (still → s.stgAt = [] → s.fld LND_KDEF.SPAN = 0 → s.owns i = false →
          s.addrCause true (bitsOf v 30 16) = 0 → s.addrCause false (bitsOf v 14 0) = 0 → s.ownerOf (bitsOf v 30 16) = none →
          bitOf v 31 = true → atTick t (fun u => u.reg (LND_RT_CFG.adr i) = v &&& 0xFFFF7FFF ∧
            u.srcInForce i = bitsOf v 14 0)))) ∧
      (s.admits directPort 0x0301 [a0, a1] = true → schedBlock 0x0301 [a0, a1] = none →
        let c := s.ctxOf directPort 0x0301 tag [a0, a1]
        (∀ cause, cause = 1 ∨ cause = 2 → s.addrCause true sink = cause → s.addrCause false src = 0 →
          (s.reg LND_REFUSE_CNT.adr).toNat + 1 < 0xFFFFFFFF → s.hears 0x40 1 → s.runs (.routeSet 127 tag [a0, a1]) (fun t =>
            t.answers s c stBadArg cause (0x8000 + sink) ∧ t.reg LND_REFUSE.adr = word cause ∧ t.lnd = s.lnd ∧
            t.reg LND_REFUSE_CNT.adr = s.reg LND_REFUSE_CNT.adr + 1 ∧ t.told s 0x40 0 (word cause) 0)) ∧
        (s.addrCause true sink = 0 → s.addrCause false src = 0 → s.runs (.routeSet 127 tag [a0, a1]) (fun t =>
          t.lnd = { s.lnd with reqs := s.lnd.reqs ++ [⟨s.sidx, c.handle, false, sink, src, span, curve⟩] } ∧
          (t.cmdOf c.handle).isSome = true ∧
          (still → s.ownerOf sink = none → s.freeEntry = some i.val → bitOf (s.reg (LND_RT_CFG.adr i)) 31 = false →
            atTick t (reach span i t))))) ∧
      (s.admits directPort 0x0302 [a0, a1] = true → schedBlock 0x0302 [a0, a1] = none → s.addrCause true sink = 0 →
        let c := s.ctxOf directPort 0x0302 tag [a0, a1]
        s.runs (.routeClear 127 tag [a0, a1]) (fun t =>
          t.lnd = { s.lnd with reqs := s.lnd.reqs ++ [⟨s.sidx, c.handle, true, sink, src, span, curve⟩] } ∧
          (still → s.reg (LND_SD.adr sink) = BitVec.ofNat 32 (2 ^ 31 + i) → s.sinkOf i = sink → bitOf (s.reg (LND_RT_CFG.adr i)) 31 = true → span = 0 →
            atTick t (fun u => u.lnd.reqs = [] ∧ bitOf (u.reg (LND_RT_CFG.adr i)) 31 = false ∧ u.srcInForce i = silence ∧
              u.ownerOf sink = none))))) ∧
  (∀ (i : Fin 16384) (s : State), s.lnd.queue = [] → s.lnd.held = [] →
      let entry (w : Word) (span : Nat) (t : State) : Prop := t.reg (LND_RT_CFG.adr i) = w ∧
        if span = 0 then t.kerfOf i = none ∧ t.srcInForce i = bitsOf w 14 0 ∧
          wordOf t.lnd.snk (bitsOf w 30 16) = wordOf s.lnd.snap (bitsOf w 14 0)
        else ∃ k, t.kerfOf i = some k ∧ k.s = s.sidx ∧ k.span = span ∧ k.arr = bitsOf w 14 0 ∧ k.src0 = s.srcInForce i
      (∀ (v : Word) (l : List Nat), s.lnd.kerfs = [] → s.dueEntries = i.val :: l → s.due (LND_RT_CFG.adr i) = some v →
        bitOf v 31 = true → s.addrCause true (bitsOf v 30 16) = 0 → s.addrCause false (bitsOf v 14 0) = 0 → s.owns i = false →
        (s.ownerOf (bitsOf v 30 16) = none → s.runs .routeChangeApply (entry v (s.fld LND_KDEF.SPAN))) ∧
        (∀ j, s.ownerOf (bitsOf v 30 16) = some j → j ≠ i.val → s.runs .routeChangeApply (fun t =>
          t.reg (LND_RT_CFG.adr i) = s.reg (LND_RT_CFG.adr i) ∧ t.lnd = s.lnd ∧
          t.reg LND_REFUSE.adr = BitVec.ofNat 32 (3 * 2 ^ 24 + i.val)))) ∧
      (∀ r : RouteReq, s.lnd.kerfs = [] → s.dueEntries = [] → s.lnd.reqs = [r] → r.reach < s.sidx → r.sink < 2 ^ 15 →
        r.src < 2 ^ 15 → r.clear = false → s.addrCause true r.sink = 0 → s.addrCause false r.src = 0 → s.ownerOf r.sink = none →
        s.freeEntry = some i.val → bitOf (s.reg (LND_RT_CFG.adr i)) 31 = false →
        s.runs .routeChangeApply (fun t => entry (BitVec.ofNat 32 (2 ^ 31 + r.sink * 2 ^ 16 + r.src)) r.span t ∧
          t.lnd.reqs = [] ∧ t.ownerOf r.sink = some i.val)) ∧
      (∀ k, s.kerfOf i = some k → k.s + k.span ≤ s.sidx → s.runs (.routeKerfEnd i) (fun t => t.kerfOf i = none ∧
        t.srcInForce i = k.arr ∧ wordOf t.lnd.snk (s.sinkOf i) = wordOf s.lnd.snap k.arr)))

/-- Meters (R142, R151, R154, R388): a configuration naming no present address is refused; else it is staged and, at the block
boundary, in force with the detectors restarted and its METER_SET done; the hold falls to the current true peak after HOLDT;
a write of LND_MCLR or LND_XMCLR names the holds to clear at the next boundary. -/
def Obligations.Meters : Prop :=
  ∀ (m : Fin 4096) (v tag : Word) (s : State),
    let o : Owner := ⟨0x2000FC, 0, false⟩
    let args : List Word := [BitVec.ofNat 32 m.val, v]
    let c := s.ctxOf directPort 0x0303 tag args
    let named (t : State) : Prop := if bitOf v 31 then t.lnd.clearAll = some s.sidx ∧ t.lnd.clear = s.lnd.clear
      else t.lnd.clearAll = s.lnd.clearAll ∧ t.lnd.clear = s.lnd.clear ++ [(bitsOf v 11 0, s.sidx)]
    (s.glb.testEn = false → s.inReset o = false →
      (s.meterCause v = 0 → s.runs (.lndMcWrite m v) (fun t => Tbl.find t.stg (LND_MC.adr m) = some (v &&& 0xFFF07FFF) ∧
        t.xmode o = true ∧ t.lnd = s.lnd)) ∧
      (s.meterCause v ≠ 0 → s.runs (.lndMcWrite m v) (fun t => t.stg = s.stg ∧
        t.reg LND_REFUSE.adr = BitVec.ofNat 32 (2 ^ 30 + s.meterCause v * 2 ^ 24 + m.val))) ∧
      (s.xmode o = false → s.runs (.lndMclr v) named) ∧ s.runs (.lndXmclr v) named) ∧
    (s.admits directPort 0x0303 args = true →
      (s.meterCause v = 0 → s.runs (.meterSet 127 tag args) (fun t => Tbl.find t.stg (LND_MC.adr m) = some v ∧
        t.lnd.meterCmds = s.lnd.meterCmds ++ [(m.val, c.handle)] ∧ (t.cmdOf c.handle).isSome = true)) ∧
      (s.meterCause v ≠ 0 → s.runs (.meterSet 127 tag args) (fun t => t.answers s c stBadArg (s.meterCause v) m ∧
        t.stg = s.stg))) ∧
    (s.sidx % s.nb = 0 → s.due (LND_MC.adr m) = some v → s.runs (.meterRestart m) (fun t => t.reg (LND_MC.adr m) = v ∧
      t.due (LND_MC.adr m) = none ∧ t.meterOf m = ⟨0, 0, 0, 0x8000, s.sidx, []⟩ ∧
      ∀ p ∈ s.lnd.meterCmds, p.1 = m.val → t.cmdOf p.2 = none)) ∧
    (s.flag (LND_MC.EN m) = true → s.fld (LND_MC.HOLDT m) ≠ 0 →
      s.fld (LND_MC.HOLDT m) * s.fs ≤ 10 * (s.sidx - (s.meterOf m).holdAt) → s.runs (.tpholdExpiry m) (fun t =>
        t.fld (LND_MR.TPHOLD m) = s.fld (LND_MR.TPEAK m) ∧ t.fld (LND_MR.TPEAK m) = s.fld (LND_MR.TPEAK m) ∧
        (t.meterOf m).holdAt = s.sidx))

/-- Tone and noise generators (R26, R155-R157): a value out of range is refused with cause 5 of table 2; else it is staged,
LND_TONE driving all four Expert registers; at a block boundary the staged values are in force, BUSY reads 1 while a change
of TYPE fades, and 480 samples later it returns to 0. -/
def Obligations.Generators : Prop :=
  ∀ (n : Fin 16) (w : Fin 4) (v : Word) (s : State),
    let o : Owner := ⟨0x2000FC, 0, false⟩
    let bad : Prop := match w.val with
      | 0 => 4 ≤ bitsOf v 31 28
      | 1 => 100 * s.fs ≤ 2 * bitsOf v 23 0
      | 2 => toSigned 16 (bitsOf v 15 0) ≠ -32768 ∧ (toSigned 16 (bitsOf v 15 0) < -12000 ∨ 0 < toSigned 16 (bitsOf v 15 0))
      | _ => False
    let refused (t : State) : Prop := t.reg LND_REFUSE.adr = BitVec.ofNat 32 (2 * 2 ^ 30 + 5 * 2 ^ 24 + n.val) ∧ t.stg = s.stg ∧
      t.stgB = s.stgB
    let held (t : State) (k : Nat) (x : Nat) : Prop := Tbl.find t.stgB (genReg n k) = some (BitVec.ofNat 32 x)
    (s.glb.testEn = false → s.inReset o = false →
      (bad → s.runs (.generatorWrite n w v) refused) ∧
      (¬ bad → s.runs (.generatorWrite n w v) (fun t => (Tbl.find t.stg (genReg n w)).isSome = true ∧ t.xmode o = true ∧
        t.lnd = s.lnd)) ∧
      (s.xmode o = false → (4 ≤ bitsOf v 31 28 ∨ s.fs ≤ 2 * bitsOf v 15 0) → s.runs (.lndToneWrite n v) refused) ∧
      (s.xmode o = false → bitsOf v 31 28 < 4 → 2 * bitsOf v 15 0 < s.fs → s.runs (.lndToneWrite n v) (fun t =>
        held t 0 (bitsOf v 31 28 * 2 ^ 28) ∧ held t 1 (bitsOf v 15 0 * 100) ∧ held t 3 (n.val + 1) ∧
        held t 2 (if 1200 < bitsOf v 27 16 then 0x8000 else (65536 - 10 * bitsOf v 27 16) % 65536)))) ∧
    (∀ x, s.sidx % s.nb = 0 → s.flag (LND_GEN_CTL.BUSY n) = false → (s.genOf n).idleAt = none →
      s.due (LND_TONE.adr n) = none → s.due (genReg n 0) = some x → s.due (genReg n 1) = none → s.due (genReg n 2) = none →
      s.due (genReg n 3) = none → s.runs (.generatorApply n) (fun t => t.fld (LND_GEN_CTL.TYPE n) = bitsOf x 31 28 ∧
        (bitsOf x 31 28 ≠ s.fld (LND_GEN_CTL.TYPE n) → t.flag (LND_GEN_CTL.BUSY n) = true ∧
          (t.genOf n).transAt = some s.sidx ∧ (t.genOf n).old = some (s.genSet n)))) ∧
    (∀ a b, s.flag (LND_GEN_CTL.BUSY n) = true → (s.genOf n).rampAt = some a → (s.genOf n).transAt = some b → a + 480 ≤ s.sidx →
      b + 480 ≤ s.sidx → s.runs (.generatorRampEnd n) (fun t => t.flag (LND_GEN_CTL.BUSY n) = false ∧
        (t.genOf n).transAt = none ∧ (t.genOf n).rampAt = none ∧ (t.genOf n).ph = (s.genOf n).ph))

/-- Scene buffers and arming (R184, R185, R188-R191): a descriptor takes writes while its buffer is EMPTY or STAGED and refuses a
count above CAP; SCENE_ARM puts a STAGED buffer into ARMING; arming ends ARMED with the actions read from the buffer, or
STAGED when one fails; SCENE_DISARM empties the armed scene. -/
def Obligations.SceneArming : Prop :=
  ∀ (b : Fin 64) (v tag : Word) (s : State),
    let o : Owner := ⟨0x3000FC, 1, false⟩
    let st := s.fld (SCN_BUF.STATE b)
    let arm := s.ctxOf directPort 0x0401 tag [BitVec.ofNat 32 b.val]
    let dis := s.ctxOf directPort 0x0402 tag []
    (s.glb.testEn = false → s.inReset o = false →
      (2 ≤ st → ∀ w, s.runs (.scnBufWrite b w v) (fun t => ∀ k : Fin 4,
        t.reg (SCN_BUF.adr b + 4 * k.val) = s.reg (SCN_BUF.adr b + 4 * k.val))) ∧
      (st < 2 → s.runs (.scnBufWrite b 0 v) (fun t => t.fld (SCN_BUF.BASE_LO b) = v.toNat)) ∧
      (st < 2 → s.fld (SCN_BUF.CAP b) < bitsOf v 16 0 → s.runs (.scnBufWrite b 3 v) (fun t =>
        t.fld (SCN_BUF.CNT b) = s.fld (SCN_BUF.CNT b) ∧ t.fld (SCN_BUF.STATE b) = st)) ∧
      (st < 2 → bitsOf v 16 0 ≤ s.fld (SCN_BUF.CAP b) → s.runs (.scnBufWrite b 3 v) (fun t =>
        t.fld (SCN_BUF.CNT b) = bitsOf v 16 0 ∧ t.fld (SCN_BUF.STATE b) = (if bitsOf v 16 0 = 0 then bufEmpty else bufStaged)))) ∧
    (s.admits directPort 0x0401 [BitVec.ofNat 32 b.val] = true →
      (s.fld SCN_STAT.STATE = 0 → s.fld (SCN_BUF.CAP b) ≠ 0 → st = bufStaged →
        s.runs (.sceneArm 127 tag [BitVec.ofNat 32 b.val]) (fun t => t.fld SCN_STAT.STATE = bufArming ∧
          t.fld SCN_STAT.BUF = b.val ∧ t.fld (SCN_BUF.STATE b) = bufArming ∧ t.scn.armCmd = some arm.handle)) ∧
      (s.fld SCN_STAT.STATE ≠ 0 → s.fld SCN_STAT.BUF ≠ b.val →
        s.runs (.sceneArm 127 tag [BitVec.ofNat 32 b.val]) (fun t => t.answers s arm stBusy 0 0 ∧ t.scn = s.scn))) ∧
    (s.fld SCN_STAT.STATE = bufArming → s.fld SCN_STAT.BUF = b.val → s.scn.auto = none →
      let n := s.fld (SCN_BUF.CNT b)
      let a := s.bufAddr b
      let word (k : Nat) : Word := BitVec.ofNat 32 (leValue (Memory.readBytes s.far.yard (a + 4 * k) 4))
      let acts := (List.range n).map (fun i => (⟨word (4 * i), word (4 * i + 1), word (4 * i + 2), word (4 * i + 3)⟩ : SceneAct))
      a + 16 * n ≤ 0x2000000 → (∀ j < 16 * n, s.bankPwr ((a + j) / 0x80000) = 0) →
      s.runs .sceneArmDone (fun t => t.scn.armCmd = none ∧
        if (s.armCheck 0 [] acts).isNone then t.scn.acts = acts ∧ t.fld SCN_STAT.STATE = bufArmed ∧
          t.fld (SCN_BUF.STATE b) = bufArmed
        else t.scn.acts = s.scn.acts ∧ t.fld SCN_STAT.STATE = 0 ∧ t.fld (SCN_BUF.STATE b) = bufStaged)) ∧
    (s.admits directPort 0x0402 [] = true → s.fld SCN_STAT.BUF = b.val →
      (s.fld SCN_STAT.STATE < bufArmed → s.runs (.sceneDisarm 127 tag []) (fun t =>
        t.answers s dis stBadArg 0 0 ∧ t.scn = s.scn)) ∧
      (bufArmed ≤ s.fld SCN_STAT.STATE → s.runs (.sceneDisarm 127 tag []) (fun t => t.scn.acts = [] ∧ t.scn.commit = none ∧
        t.fld SCN_STAT.STATE = 0 ∧ t.fld (SCN_BUF.STATE b) = bufStaged ∧
        t.answers s dis stOk b.val (b2n s.scn.commit.isSome))))

/-- Commits and scheduled commands (R192-R196, R199, R200, R208): a commit of the armed scene to a later sample waits for it, one
to a sample that is past is rejected with policy REJECT; at its index, once nothing that comes before it in the order of R201
waits, the scene's action applies and SCN_APPLIED is raised; a scheduled command applies at its index in the same way;
SCHED_CANCEL ends it. -/
def Obligations.SceneCommits : Prop :=
  ∀ (b : Fin 64) (n : BitVec 64) (tag : Word) (s : State),
    let args (policy : Nat) : List Word :=
      [BitVec.ofNat 32 b.val, BitVec.ofNat 32 (2 ^ 30 + policy * 2 ^ 27), n.setWidth 32, (n >>> 32).setWidth 32, 0]
    let c (policy : Nat) := s.ctxOf directPort 0x0403 tag (args policy)
    let step (e i : Nat) (w1 : Word) (old : KSt) : Prop := bitsOf w1 31 28 = e ∧ bitsOf w1 11 0 = i ∧
      (s.engOf e).recOf i = [old] ∧ old.busy = false ∧ old.handle = none ∧ old.fmt = 0
    (∀ policy, policy < 3 → s.admits directPort 0x0403 (args policy) = true →
      (s.fld (SCN_BUF.STATE b) = bufArmed → s.scn.acts.any (fun a => a.type == 3) = false → s.sidx < n.toNat →
        s.runs (.sceneCommit 127 tag (args policy)) (fun t => t.fld SCN_STAT.STATE = bufCommitted ∧ t.scn.acts = s.scn.acts ∧
          ∃ k, t.scn.commit = some k ∧ k.idx = n.toNat ∧ k.handle = (c policy).handle ∧ k.late = 0 ∧ k.sys = false)) ∧
      (s.fld (SCN_BUF.STATE b) = bufArmed → s.scn.acts.any (fun a => a.type == 3) = false → policy = 2 → n.toNat ≤ s.sidx → s.hears 0x46 1 →
        s.runs (.sceneCommit 127 tag (args policy)) (fun t => t.scn = s.scn ∧ t.answers s (c policy) stRejectedLate 0 0 ∧
          t.told s 0x46 b (BitVec.ofNat 32 (c policy).handle) (BitVec.ofNat 32 (s.sidx + 1 - n.toNat)))) ∧
      (s.fld (SCN_BUF.STATE b) < 2 → s.runs (.sceneCommit 127 tag (args policy)) (fun t =>
        t.answers s (c policy) stBadArg 0 0 ∧ t.scn = s.scn))) ∧
    (∀ k e i v w1 old, s.scn.commit = some k → k.idx ≤ s.sidx → s.scn.acts = [⟨2 ^ 28, w1, v, 0⟩] → s.scn.runs = [] →
      s.lnd.kerfs = [] → s.lnd.queue = [] → s.lnd.held = [] → step e i w1 old → old.s0 < k.idx → s.routesApplied = true →
      (∀ it ∈ s.scn.sched, s.sidx < it.idx) → s.fld SCN_STAT.BUF = b.val → s.hears 0x44 1 → s.runs .scnApplied (fun t =>
        (recAt ((t.engOf e).recOf i) k.idx).start = v ∧ t.scn.acts = [] ∧ t.scn.commit = none ∧ t.cmdOf k.handle = none ∧
        t.fld SCN_STAT.STATE = 0 ∧ t.told s 0x44 b (lo32 k.idx) (hi32 k.idx) ∧ t.reg SCN_LAST_LO.adr = lo32 k.idx)) ∧
    (∀ k, s.scn.commit = some k → s.sidx < k.idx ∨ s.routesApplied = false ∨ (∃ it ∈ s.scn.sched, it.idx ≤ s.sidx) →
      s.runs .scnApplied (fun t => t = s)) ∧
    (∀ (h : Word) (it : SchedItem) e i v w1 old, s.scn.sched = [it] → it.handle = h.toNat → it.opcode = 0x0203 →
      it.args = [w1, v, 0] → step e i w1 old → old.s0 < it.idx →
      (it.idx ≤ s.sidx → s.routesApplied = true → s.runs (.scheduledApply h) (fun t => (recAt ((t.engOf e).recOf i) it.idx).start = v ∧
        t.scn.sched = [])) ∧
      (s.sidx < it.idx ∨ s.routesApplied = false → s.runs (.scheduledApply h) (fun t => t = s))) ∧
    (∀ h : Word, s.admits directPort 0x0404 [h] = true →
      let x := s.ctxOf directPort 0x0404 tag [h]
      ((∃ it ∈ s.scn.sched, it.handle = h.toNat) → s.runs (.schedCancel 127 tag [h]) (fun t => t.answers s x stOk 0 0 ∧
        t.cmdOf h.toNat = none ∧ ∀ it ∈ t.scn.sched, it.handle ≠ h.toNat)) ∧
      ((∀ it ∈ s.scn.sched, it.handle ≠ h.toNat) → s.runs (.schedCancel 127 tag [h]) (fun t =>
        t.answers s x stBadArg 0 0 ∧ t.scn = s.scn))) ∧
    s.runs .scnLastLoRead (fun t => t.reg SCN_LAST_HI.adr = hi32 s.scn.lastIdx ∧ t.reg SCN_LAST_LO.adr = s.reg SCN_LAST_LO.adr)

/-- Limiters (R211, R214, R215, R389): a write whose entry R215 refuses sets OUT_REFUSE and stages nothing; else it is staged. At
a block boundary the entry is in force, an enabled limiter starts at 0 dB in a crossfade of 64 samples, and the crossfade's
end completes the commands of the limiter. LIMIT_SET takes the lowest free limiter with LA and REL of OUT_DEF, and a leader
that already leads; a refusal answers BAD_ARG with its cause and the limiter; LIMIT_CLEAR disables the limiter of its sink. -/
def Obligations.Limiters : Prop :=
  ∀ (k : Fin 1024) (w : Fin 2) (v a0 a1 tag : Word) (s : State),
    let o : Owner := ⟨0x3800FC, 0, false⟩
    let off := OUT_LIM.adr k
    let u := v &&& (if w.val = 0 then 0xFFFF7FFF else 0x83FF07FF)
    let cfg := if w.val = 0 then limCfg u (s.written (off + 4)) else limCfg (s.written off) u
    let args : List Word := [a0, a1]
    let c := s.ctxOf directPort 0x0501 tag args
    let d := s.ctxOf directPort 0x0502 tag [a0]
    let entry (linked : Bool) (lead : Nat) : LimCfg :=
      ⟨true, bitsOf a0 30 16, s.fld OUT_DEF.LA, bitsOf a0 7 0, linked, lead, s.fld OUT_DEF.REL⟩
    let refused (cause j : Nat) (t : State) : Prop := t.reg OUT_REFUSE.adr = BitVec.ofNat 32 (cause * 2 ^ 24 + j) ∧ t.stg = s.stg
    (s.glb.testEn = false → s.inReset o = false → s.runs (.limiterWrite k w v) (fun t =>
      if s.limCause k cfg (w.val == 0) = 0 then Tbl.find t.stg (off + 4 * w.val) = some u ∧ t.xmode o = true ∧ t.out = s.out ∧
        t.reg (off + 4 * w.val) = s.reg (off + 4 * w.val)
      else refused (s.limCause k cfg (w.val == 0)) k t)) ∧
    (∀ x, s.sidx % s.nb = 0 → s.due off = some x → s.due (off + 4) = none → s.runs (.limiterApply k) (fun t =>
      t.reg off = x ∧ t.due off = none ∧ t.reg (off + 4) = s.reg (off + 4) ∧ t.flag (OUT_LIMST.ACTIVE k) = bitOf x 31 ∧
      (bitOf x 31 = true → bitOf (s.reg off) 31 = false → (s.limOf k).xf = [] →
        t.limOf k = ⟨0, [⟨s.sidx, false, bitsOf (s.reg off) 14 8, (s.limOf k).gdb⟩], 0⟩) ∧
      (bitOf x 31 = false → bitOf (s.reg off) 31 = false → t.limOf k = s.limOf k))) ∧
    (∀ x, (s.limOf k).xf.getLast? = some x →
      (x.at_ + 64 ≤ s.sidx → s.runs (.limiterCrossfadeEnd k) (fun t => (t.limOf k).xf = [] ∧
        (∀ q ∈ s.out.limCmds, q.1 = k.val → t.cmdOf q.2.1 = none) ∧ ∀ q ∈ t.out.limCmds, q.1 ≠ k.val)) ∧
      (s.sidx < x.at_ + 64 → s.runs (.limiterCrossfadeEnd k) (fun t => t = s))) ∧
    (s.admits directPort 0x0501 args = true →
      (bitOf a1 31 = false → a1 ≠ 0 → s.runs (.limitSet 127 tag args) (fun t => t.answers s c stBadArg 0 0 ∧ t.stg = s.stg)) ∧
      (bitOf a1 31 = true ∨ a1 = 0 → s.limFree = none → s.runs (.limitSet 127 tag args) (fun t =>
        t.answers s c stNoResource 0 0 ∧ t.stg = s.stg)) ∧
      (bitOf a1 31 = true ∨ a1 = 0 → s.limFree = some k.val → s.limCause k (entry false 0) true ≠ 0 →
        s.runs (.limitSet 127 tag args) (fun t => t.answers s c stBadArg (s.limCause k (entry false 0) true) k ∧
          refused (s.limCause k (entry false 0) true) k t)) ∧
      (a1 = 0 → s.limFree = some k.val → s.limCause k (entry false 0) true = 0 → s.runs (.limitSet 127 tag args) (fun t =>
        t.limWritten k = entry false 0 ∧ t.out.limCmds = s.out.limCmds ++ [(k.val, c.handle, 0)] ∧
        (t.cmdOf c.handle).isSome = true)) ∧
      (bitOf a1 31 = true → s.limFree = some k.val → s.limCause k (entry false 0) true = 0 → s.limOn (bitsOf a1 30 16) = none →
        s.runs (.limitSet 127 tag args) (fun t => refused 5 k t ∧ t.answers s c stBadArg 5 k)) ∧
      (∀ l : Nat, l < 1024 → bitOf a1 31 = true → s.limFree = some k.val → s.limCause k (entry false 0) true = 0 →
        s.limOn (bitsOf a1 30 16) = some l → (s.limWritten l).linked = true → s.limCause k (entry true l) true = 0 →
        s.runs (.limitSet 127 tag args) (fun t => t.limWritten k = entry true l ∧
          t.out.limCmds = s.out.limCmds ++ [(k.val, c.handle, l)]))) ∧
    (s.admits directPort 0x0502 [a0] = true →
      (s.limOn (bitsOf a0 30 16) = none → s.runs (.limitClear 127 tag [a0]) (fun t => t.answers s d stOk 0 0 ∧ t.stg = s.stg)) ∧
      (s.limOn (bitsOf a0 30 16) = some k.val → s.limCause k { s.limWritten k with en := false, linked := false, lead := 0 } true = 0 →
        s.runs (.limitClear 127 tag [a0]) (fun t => (t.limWritten k).en = false ∧
          t.out.limCmds = s.out.limCmds ++ [(k.val, d.handle, 0)])))

/-- Side-tone paths (R217, R218, R220): a write with a gain or destination out of range is refused with cause 6; else it is
staged, a Basic write driving the Expert register too. At a block boundary a path that is not enabled falls silent, one that
is enabled starts from silence, a change of gain kerfs from the gain in force, and a change of source, destination or filter
kerfs to silence first and switches when that kerf ends. -/
def Obligations.SideTone : Prop :=
  ∀ (n : Fin 16) (v : Word) (s : State),
    let o : Owner := ⟨0x3800FC, 1, false⟩
    let off := ST_XPATH.adr n
    let p := s.pathOf n
    let old := s.reg off
    let span := s.fld ST_XRAMP.SPAN
    (s.glb.testEn = false → s.inReset o = false →
      (pathBad v = true → s.runs (.stPathWrite n true v) (fun t => t.stg = s.stg ∧
        t.reg OUT_REFUSE.adr = BitVec.ofNat 32 (2 ^ 30 + 6 * 2 ^ 24 + n.val))) ∧
      (pathBad v = false → s.runs (.stPathWrite n true v) (fun t => Tbl.find t.stg off = some v ∧ t.xmode o = true ∧
        t.reg off = old ∧ t.out = s.out) ∧
        (s.xmode o = false → s.runs (.stPathWrite n false v) (fun t => Tbl.find t.stg off = some v ∧
          t.reg (ST_PATH.adr n) = v ∧ t.xmode o = false ∧ t.reg off = old)))) ∧
    (∀ x, s.sidx % s.nb = 0 → s.due off = some x →
      (bitOf x 31 = false → s.runs (.stPathApply n) (fun t => t.reg off = x ∧ t.pathAdd n = 0 ∧
        t.flag (ST_XPATH.EN n) = false)) ∧
      (bitOf x 31 = true → bitOf old 31 = true → bitsOf x 29 8 = bitsOf p.heard 29 8 → 0 < span →
        s.runs (.stPathApply n) (fun t => t.reg off = x ∧ (t.pathOf n).heard = x ∧ (t.pathOf n).kerf.busy = true ∧
          (t.pathOf n).kerf.s0 = s.sidx ∧ (t.pathOf n).kerf.start = p.kerf.valueAt (s.sidx - 1) ∧
          (t.pathOf n).kerf.tgt = pathGain x ∧ (t.pathOf n).kerf.span = span)) ∧
      (bitOf x 31 = true → bitOf old 31 = true → bitsOf x 29 8 ≠ bitsOf p.heard 29 8 → 0 < span → p.switching = false →
        s.runs (.stPathApply n) (fun t => t.reg off = x ∧ (t.pathOf n).heard = p.heard ∧ (t.pathOf n).switching = true ∧
          (t.pathOf n).kerf.tgt = 0 ∧ (t.pathOf n).kerf.start = p.kerf.valueAt (s.sidx - 1))) ∧
      (bitOf x 31 = true → bitOf old 31 = false → s.runs (.stPathApply n) (fun t => t.reg off = x ∧
        (t.pathOf n).heard = x ∧ (t.pathOf n).hx = 0 ∧ (t.pathOf n).hy = 0 ∧ (t.pathOf n).switching = false))) ∧
    (p.kerf.busy = true → p.kerf.s0 + p.kerf.span ≤ s.sidx →
      (p.switching = true → s.runs (.stGainKerfEnd n) (fun t => (t.pathOf n).heard = s.reg off ∧
        (t.pathOf n).hx = 0 ∧ (t.pathOf n).hy = 0 ∧ (t.pathOf n).switching = false)) ∧
      (p.switching = false → s.runs (.stGainKerfEnd n) (fun t => (t.pathOf n).kerf = { p.kerf with busy := false, start := p.kerf.tgt } ∧
        (t.pathOf n).heard = p.heard)))

/-- Serial port configuration and masks (R222, R223, R226, R227, R236, R237, R243): a write that R227 forbids leaves the register
and raises TDM_REFUSED with its cause; else XCTL and a Basic CTL wait for the block boundary and XCFG changes. At that
boundary EN = 1 enters ACQUIRE and EN = 0 starts the fade-out; at a frame boundary after that the port is OFF. Mask writes
wait for a frame start of the port that they reach in time, which sets the masks and shows its frame index. -/
def Obligations.SerialPortSettings : Prop :=
  ∀ (p : Fin 32) (tx : Bool) (v : Word) (s : State),
    let o : Owner := ⟨0x4000FC + 0x1000 * p.val, 0, false⟩
    let xctl := TDM_XCTL.adr p
    let xcfg := TDM_XCFG.adr p
    let ctl := tdmCtlWord v
    let cfg := setBits (setBits v 31 23 0) 6 0 0
    let basic := setBits (tdmBasicCfg ctl) 31 23 0
    let refused (off cause : Nat) (t : State) : Prop := t.stg = s.stg ∧ t.stgB = s.stgB ∧ t.reg xcfg = s.reg xcfg ∧
      (s.hears 0x67 1 → t.told s 0x67 p (BitVec.ofNat 32 off) (BitVec.ofNat 32 cause))
    (s.glb.testEn = false → s.inReset o = false →
      s.runs (.tdmCtlWrite p .xctl v) (fun t =>
        if s.tdmCause p ctl (s.tdmWritten p).2 = 0 then Tbl.find t.stg xctl = some ctl ∧ t.xmode o = true ∧ t.reg xctl = s.reg xctl
        else refused 0x100 (s.tdmCause p ctl (s.tdmWritten p).2) t) ∧
      s.runs (.tdmCtlWrite p .xcfg v) (fun t =>
        if s.tdmCause p (s.tdmWritten p).1 cfg = 0 then t.reg xcfg = cfg ∧ t.xmode o = true
        else refused 0x10C (s.tdmCause p (s.tdmWritten p).1 cfg) t) ∧
      s.runs (.tdmMaskWrite p tx true v) (fun t => Tbl.find t.stg (maskAdr p tx true) = some v ∧ t.xmode o = true ∧
        t.reg (maskAdr p tx true) = s.reg (maskAdr p tx true)) ∧
      (s.xmode o = false →
        s.runs (.tdmCtlWrite p .ctl v) (fun t =>
          if s.tdmCause p ctl basic = 0 then t.reg (TDM_CTL.adr p) = ctl ∧ Tbl.find t.stgB xctl = some ctl ∧
            Tbl.find t.stgB xcfg = some basic ∧ t.reg xctl = s.reg xctl
          else refused 0 (s.tdmCause p ctl basic) t ∧ t.reg (TDM_CTL.adr p) = s.reg (TDM_CTL.adr p)) ∧
        s.runs (.tdmMaskWrite p tx false v) (fun t => t.reg (maskAdr p tx false) = v ∧
          Tbl.find t.stgB (maskAdr p tx true) = some v))) ∧
    (∀ x, s.sidx % s.nb = 0 → s.due xctl = some x → s.due xcfg = none →
      s.runs (.tdmEnableApply p) (fun t => t.reg xctl = x ∧ t.due xctl = none ∧
        (bitOf x 31 = true → s.flag (TDM_XCTL.EN p) = false → s.tdmState p = tdmOff → t.tdmState p = tdmAcquire ∧
          (t.tdmOf p).good = 0 ∧ (t.tdmOf p).fade = none) ∧
        (bitOf x 31 = false → s.flag (TDM_XCTL.EN p) = true → t.tdmState p = s.tdmState p ∧
          (t.tdmOf p).fade = turnFade 64 (s.tdmOf p).fade false s.sidx))) ∧
    (s.tdmState p ≠ tdmOff → s.flag (TDM_XCTL.EN p) = false → fadedOut (s.tdmOf p).fade s.sidx = true →
      (s.tdmOf p).last = s.sidx →
      s.runs (.tdmOffEntry p) (fun t => t.tdmState p = tdmOff ∧ t.tdmSync p = syncNone ∧ (t.tdmOf p).sdo = none)) ∧
    (∀ now other : Bool, s.tdmState p = tdmRun → (s.tdmOf p).last = s.sidx →
      let edge : MaskEdge := if tx then ⟨p, other, now⟩ else ⟨p, now, other⟩
      s.runs (.tdmMaskApply edge) (fun t =>
        (∀ m, now = true → s.waiting (maskAdr p tx true) = some m → t.reg (maskAdr p tx true) = m ∧
          t.waiting (maskAdr p tx true) = none ∧ t.reg (TDM_MASK_APPLIED.adr p) = BitVec.ofNat 32 (s.tdmOf p).fidx) ∧
        (now = false → t.reg (maskAdr p tx true) = s.reg (maskAdr p tx true) ∧
          t.waiting (maskAdr p tx true) = s.waiting (maskAdr p tx true)) ∧
        (s.waiting (TDM_XRXMASK.adr p) = none → s.waiting (TDM_XTXMASK.adr p) = none →
          t.reg (TDM_MASK_APPLIED.adr p) = s.reg (TDM_MASK_APPLIED.adr p))))

/-- Serial ports in operation (R226, R228-R232): after 8 good frames a port enters RUN at a frame boundary with its index at 0
and a fade-in, from ACQUIRE or, with TDM_CLK_RESTORED, from FAULT; a frame in RUN starts at the edge and level that the
format gives, is stamped and counted, and its words are those of its slots' capture edges; lost clocks, swapped clocks, two
frames of wrong length, two windows out of rate and too many slots enter FAULT; a slip zeroes the words of one FIFO and is
counted; a read of TDM_TS_LO latches one block's record. -/
def Obligations.SerialPortFrames : Prop :=
  ∀ (p : Fin 32) (phase : BitVec 16) (edge : FrameEdge) (sdi : List Bool) (bclk frate : Word) (fsync tx : Bool) (s : State),
    let x := s.tdmOf p
    let len := sdi.length - 1
    let frame : Prop := frameEdge (s.reg (TDM_XCTL.adr p)) (s.reg (TDM_XCFG.adr p)) edge = true
    let running (t : State) : Prop := t.tdmState p = tdmRun ∧ t.fld (TDM_STAT.FAULT p) = 0 ∧ (t.tdmOf p).fidx = 0 ∧
      (t.tdmOf p).fade = some (true, s.sidx)
    let faulted (n : Nat) (t : State) : Prop := t.tdmState p = tdmFault ∧ t.fld (TDM_STAT.FAULT p) = n ∧
      (t.tdmOf p).sdo = none ∧ (t.tdmOf p).faultAt = s.sidx ∧ ((s.reg (TDM_FAULT_CNT.adr p)).toNat + 1 < 0xFFFFFFFF →
        t.reg (TDM_FAULT_CNT.adr p) = s.reg (TDM_FAULT_CNT.adr p) + 1)
    let live : Prop := s.tdmState p = tdmAcquire ∨ s.tdmState p = tdmRun
    let swap : Prop := bclk.toNat < 500000 ∧ 1000000 < frate.toNat
    let limit := slotLimit frate.toNat
    let slots := cfgSlots (s.reg (TDM_XCTL.adr p))
    (s.flag (TDM_XCTL.EN p) = true → 8 ≤ x.good → x.last = s.sidx →
      (s.tdmState p = tdmAcquire → s.runs (.tdmRunEntry p) running) ∧
      (s.tdmState p = tdmFault → s.hears 0x63 1 → s.runs (.tdmClkRestored p) (fun t => running t ∧
        t.told s 0x63 p (BitVec.ofNat 32 p) (BitVec.ofNat 32 (s.sidx - x.faultAt))))) ∧
    (x.good < 8 → s.runs (.tdmRunEntry p) (fun t => t = s) ∧ s.runs (.tdmClkRestored p) (fun t => t = s)) ∧
    (¬ frame → s.runs (.tdmFrameStart p phase edge sdi) (fun t => t = s)) ∧
    (frame → len = s.fld (TDM_XCFG.FLEN p) → len < 2048 → s.tdmState p = tdmRun → x.byp = none →
      s.runs (.tdmFrameStart p phase edge sdi) (fun t => t.tdmState p = tdmRun ∧ t.fld (TDM_MEAS.FLEN p) = len ∧
        (t.tdmOf p).fidx = x.fidx + 1 ∧ (t.tdmOf p).last = s.sidx ∧ (t.tdmOf p).phase = phase.toNat ∧
        (t.tdmOf p).hist.head? = some (x.fidx, s.tdmRxWords p sdi) ∧ (t.tdmOf p).frames = min 1023 (x.frames + 1))) ∧
    (frame → len ≠ s.fld (TDM_XCFG.FLEN p) → live → 1 ≤ x.bad → s.runs (.tdmFrameStart p phase edge sdi) (faulted 4)) ∧
    (live → s.runs (.tdmClkLost p fsync) (faulted (if fsync then 2 else 1)) ∧
      (s.hears 0x60 1 → (s.reg (TDM_FAULT_CNT.adr p)).toNat + 1 < 0xFFFFFFFF → s.runs (.tdmClkLost p fsync) (fun t =>
        t.told s 0x60 p (BitVec.ofNat 32 p) (if fsync then 2 else 1)))) ∧
    (live → s.runs (.tdmMeasWindow p bclk frate) (fun t =>
      (swap → faulted 3 t) ∧ (¬ swap → limit = 0 → 1 ≤ x.badRate → faulted 5 t) ∧
      (¬ swap → 0 < limit → limit < slots → faulted 6 t) ∧
      (¬ swap → slots ≤ limit → 50000000 < bclk.toNat → 1 ≤ x.badBclk → faulted 7 t) ∧
      (¬ swap → 0 < limit → slots ≤ limit → bclk.toNat ≤ 50000000 → t.tdmState p = s.tdmState p ∧
        t.fld (TDM_MEAS.FRATE p) = frate.toNat))) ∧
    (s.tdmState p = tdmFault → s.fld (TDM_STAT.FAULT p) = 1 → swap → s.runs (.tdmMeasWindow p bclk frate) (fun t =>
      t.tdmState p = tdmFault ∧ t.fld (TDM_STAT.FAULT p) = 3)) ∧
    (s.tdmState p = tdmRun → s.tdmSync p ≠ syncConfirmed → (s.reg (TDM_SLIP_CNT.adr p)).toNat + 1 < 0xFFFFFFFF →
      s.hears 0x66 1 → s.runs (.tdmSlip ⟨p, tx⟩) (fun t => t.reg (TDM_SLIP_CNT.adr p) = s.reg (TDM_SLIP_CNT.adr p) + 1 ∧
        t.told s 0x66 p (BitVec.ofNat 32 p) 0 ∧
        (tx = true → t.tdmOf p = { x with sdo := x.sdo.map (fun l => l.map (fun q => (q.1, 0))) }) ∧
        (tx = false → ∀ h l, x.hist = h :: l → t.tdmOf p = { x with hist := (h.1, []) :: l }))) ∧
    s.runs (.tdmTsLoRead p) (fun t => t.reg (TDM_TS_LO.adr p) = lo32 x.pub.1 ∧ t.reg (TDM_TS_HI.adr p) = hi32 x.pub.1 ∧
      t.reg (TDM_TS_INFO.adr p) = BitVec.ofNat 32 (x.pub.2.1 * 2 ^ 16 + x.pub.2.2.2) ∧
      t.reg (TDM_TS_FIDX.adr p) = BitVec.ofNat 32 x.pub.2.2.1)

/-- Synchronous ports (R233-R235): a window of one second that no frame has failed passes, and two in a row are DETECTED; CONFIRM
outside DETECTED is refused with cause 3, else it waits for the block boundary, at which the port latches its phase and the
bypass fades in; more than 1,024 units from that phase it is LOST and counted; after a fault 64 frames near the latched phase
bring CONFIRMED back at a block boundary. -/
def Obligations.SerialPortSync : Prop :=
  ∀ (p : Fin 32) (phase : BitVec 16) (edge : FrameEdge) (sdi : List Bool) (s : State),
    let o : Owner := ⟨0x4000FC + 0x1000 * p.val, 0, false⟩
    let x := s.tdmOf p
    let port : Word := BitVec.ofNat 32 p
    let start (phase : Nat) : Nat := ((((x.last * 65536 + x.phase : Nat) : Int) - phaseDiff x.phase phase) / 65536).toNat
    let confirmed (phase : Nat) (t : State) : Prop := t.tdmSync p = syncConfirmed ∧ (t.tdmOf p).lphase = phase ∧
      t.fld (TDM_STAT.NEXT p) = (if 0xF800 ≤ phase then 1 else 0) ∧ (t.tdmOf p).byp = turnFade 0 x.byp true s.sidx ∧
      (t.tdmOf p).asg = start phase + (if 0xF800 ≤ phase then 1 else 0)
    (∀ n, x.since = some n → n + s.fs ≤ s.sidx → s.tdmState p = tdmRun → x.byp = none → sdi.length - 1 = s.fld (TDM_XCFG.FLEN p) →
      frameEdge (s.reg (TDM_XCTL.adr p)) (s.reg (TDM_XCFG.adr p)) edge = true →
      s.runs (.tdmFrameStart p phase edge sdi) (fun t => (t.tdmOf p).since = some (n + s.fs) ∧
        (t.tdmOf p).passes = (if x.winBad then 0 else x.passes + 1) ∧
        (s.tdmSync p = syncDetected → t.tdmSync p = if x.winBad then syncNone else syncDetected))) ∧
    (s.tdmState p = tdmRun → s.tdmSync p = syncNone ∨ s.tdmSync p = syncLost →
      (2 ≤ x.passes → s.hears 0x64 1 → s.runs (.tdmSyncDetected p) (fun t => t.tdmSync p = syncDetected ∧
        t.told s 0x64 p port 0)) ∧
      (x.passes < 2 → s.runs (.tdmSyncDetected p) (fun t => t = s))) ∧
    (s.glb.testEn = false → s.inReset o = false → s.xmode o = false →
      (s.tdmSync p = syncDetected → s.runs (.tdmSyncConfirm p) (fun t => (t.tdmOf p).confirm = some s.sidx ∧
        t.tdmSync p = syncDetected)) ∧
      (s.tdmSync p ≠ syncDetected → s.hears 0x67 1 → s.runs (.tdmSyncConfirm p) (fun t => t.str = s.str ∧
        t.told s 0x67 p 0x0C 3))) ∧
    (s.sidx % s.nb = 0 → s.tdmSync p = syncDetected → s.flag (TDM_XCFG.AUTOCONF p) = true ∨ (∃ n, x.confirm = some n ∧ n < s.sidx) →
      s.runs (.tdmSyncConfirmApply p) (confirmed x.phase)) ∧
    (s.tdmSync p = syncConfirmed →
      (1024 < (phaseDiff x.phase x.lphase).natAbs → (s.reg (TDM_SYNCLOSS_CNT.adr p)).toNat + 1 < 0xFFFFFFFF → s.hears 0x65 1 →
        s.runs (.tdmSyncLost p) (fun t => t.tdmSync p = syncLost ∧ t.told s 0x65 p port 0 ∧
          t.reg (TDM_SYNCLOSS_CNT.adr p) = s.reg (TDM_SYNCLOSS_CNT.adr p) + 1 ∧
          (t.tdmOf p).byp = turnFade 0 x.byp false s.sidx)) ∧
      ((phaseDiff x.phase x.lphase).natAbs ≤ 1024 → s.runs (.tdmSyncLost p) (fun t => t = s))) ∧
    (s.tdmState p = tdmRun → s.tdmSync p = syncLost → x.regain = some 64 → s.sidx % s.nb = 0 → s.runs (.tdmSyncRegained p) (confirmed x.lphase))

/-- Booms (R238, R239, R242, R245): a member entry that R238 forbids raises BOOM_REFUSED with its cause and stays; else it waits
for the block boundary. BOOM_PORTS fills the entries with its ports in ascending order and refuses more than 16; an enable
that does not fit the pool is refused with cause 3. At the boundary the entries are in force, and a change of EN or of the
delay begins with a fade-out before the move. -/
def Obligations.Booms : Prop :=
  ∀ (b m : Fin 16) (v : Word) (s : State),
    let o : Owner := ⟨0x4400FC, 0, false⟩
    let mem := BOOM_XMEM.adr b m
    let cfg := BOOM_XCFG.adr b
    let x := s.boomOf b
    let u := setBits v 30 10 0
    let cause := s.memCause b m (bitsOf v 31 30) (bitsOf v 11 0)
    let refused (j n : Nat) (t : State) : Prop := t.stg = s.stg ∧ t.stgB = s.stgB ∧ t.str = s.str ∧
      (s.hears 0x6B 1 → t.told s 0x6B b (BitVec.ofNat 32 j) (BitVec.ofNat 32 n))
    let tooBig : Prop := bitOf u 31 = true ∧ s.boomFits b u = false
    (s.glb.testEn = false → s.inReset o = false →
      (cause = 0 → s.runs (.boomXmemWrite b m v) (fun t => Tbl.find t.stg mem = some (setBits v 29 12 0) ∧ t.str = s.str ∧
        t.xmode o = true ∧ t.reg mem = s.reg mem)) ∧
      (cause ≠ 0 → s.runs (.boomXmemWrite b m v) (refused m cause)) ∧
      (tooBig → s.runs (.boomCfgWrite b true v) (refused 0 3)) ∧
      (¬ tooBig → s.runs (.boomCfgWrite b true v) (fun t => Tbl.find t.stg cfg = some u ∧ t.reg cfg = s.reg cfg)) ∧
      (s.xmode o = false →
        (tooBig → s.runs (.boomCfgWrite b false v) (refused 0 3)) ∧
        (¬ tooBig → s.runs (.boomCfgWrite b false v) (fun t => t.reg (BOOM_CFG.adr b) = u ∧ Tbl.find t.stgB cfg = some u)) ∧
        (16 < (maskPorts v).length → s.runs (.boomPortsWrite b v) (refused 0 2)) ∧
        (∀ j, (maskPorts v).length ≤ 16 → s.portsBad b v = some j → s.runs (.boomPortsWrite b v) (refused j 1)) ∧
        ((maskPorts v).length ≤ 16 → s.portsBad b v = none → s.runs (.boomPortsWrite b v) (fun t =>
          t.reg (BOOM_PORTS.adr b) = v ∧ Tbl.find t.stgB mem = some (if h : m.val < (maskPorts v).length then
            BitVec.ofNat 32 (2 ^ 30 + (maskPorts v)[m.val]) else 0))))) ∧
    (s.sidx % s.nb = 0 →
      (∀ w, s.due mem = some w → s.runs (.boomApply b) (fun t => bitsOf (t.reg mem) 31 30 = bitsOf w 31 30 ∧
        bitsOf (t.reg mem) 11 0 = bitsOf w 11 0 ∧ t.due mem = none)) ∧
      (∀ w, s.due cfg = some w → s.runs (.boomApply b) (fun t => t.reg cfg = w ∧ t.due cfg = none ∧
        t.fld BOOM_STAT.RUN / 2 ^ b.val % 2 = bitsOf w 31 31 ∧
        (if bitOf w 31 = x.en ∧ (bitsOf w 9 0 = x.delay ∨ x.en = false) then (t.boomOf b).moveAt = x.moveAt ∧
            (t.boomOf b).delay = bitsOf w 9 0
          else (t.boomOf b).en = x.en ∧ (t.boomOf b).delay = x.delay ∧ (x.moveAt = none → (t.boomOf b).moveAt = some s.sidx)))))

/-- Groups of the rate conversion pool (R250-R252, R256): ACQUIRE locks after 32 blocks within 0.01 input sample and fades in; a
rate out of range enters RANGE; in LOCK a step returns to ACQUIRE with the line to start afresh after the fade-out, a lost
pilot hands over to a member that qualifies, or leaves the group in HOLD, both with the ratio kept; in HOLD a member that
resumes on the held line and within 100 ppm locks as pilot, another one is a step, and HOLDMAX ends in IDLE; strays and
rejoining streams change the streams lost; each with its event and counter. -/
def Obligations.RateGroups : Prop :=
  ∀ (g : Fin 64) (flow : Bool) (id : Fin 4096) (s : State),
    let x := s.grpOf g
    let t0 := streamOf flow id
    let p := s.gPilot g
    let isLost (t : State) (q : Nat × Nat) : Bool := (t.grpOf g).lost.any (fun l => l.1 == q.1 && l.2.1 == q.2)
    let counts (cnt : Nat → Nat) (t : State) : Prop := t.reg (cnt g) = s.reg (cnt g) + 1
    let room (cnt : Nat → Nat) : Prop := (s.reg (cnt g)).toNat + 1 < 0xFFFFFFFF
    let tells (code : Nat) (t : State) : Prop := s.hears code 1 → t.told s code g (BitVec.ofNat 32 g) 0
    (s.gState g = gAcquire →
      (32 ≤ x.good → x.start = none → s.runs (.asrcLocked g false flow id) (fun t => t.gState g = gLock ∧
        (t.grpOf g).lockAt = s.sidx ∧ (t.grpOf g).fade = turnFade 0 x.fade true s.sidx ∧ tells 0x70 t)) ∧
      (x.good < 32 → s.runs (.asrcLocked g false flow id) (fun t => t = s)) ∧
      (s.ratioOk p.1 p.2 = false → s.runs (.asrcRange g) (fun t => t.gState g = gRange ∧ tells 0x75 t)) ∧
      (s.ratioOk p.1 p.2 = true → s.runs (.asrcRange g) (fun t => t = s))) ∧
    (s.gState g = gHold → s.sidx % s.nb = 0 → s.resumed g t0 = true →
      (s.onLine g t0 = true → s.nearHeld g t0 = true → s.runs (.asrcLocked g true flow id) (fun t => t.gState g = gLock ∧
        t.gPilot g = t0 ∧ isLost t t0 = false ∧ tells 0x70 t)) ∧
      (s.onLine g t0 = false ∨ s.nearHeld g t0 = false → room ASRC_STEP_CNT.adr → s.runs (.asrcStep g flow id) (fun t =>
        t.gState g = gAcquire ∧ t.gPilot g = t0 ∧ (t.grpOf g).start = some (s.sidx + 64) ∧ counts ASRC_STEP_CNT.adr t ∧
        tells 0x71 t))) ∧
    (s.gState g = gLock →
      (s.stepped g = true → room ASRC_STEP_CNT.adr → s.runs (.asrcStep g flow id) (fun t => t.gState g = gAcquire ∧
        t.reg (ASRC_RATIO.adr g) = 0 ∧ (t.grpOf g).start = some (s.sidx + 64) ∧ counts ASRC_STEP_CNT.adr t ∧ tells 0x71 t)) ∧
      (s.stepped g = false → s.runs (.asrcStep g flow id) (fun t => t = s)) ∧
      (s.streamLost p.1 p.2 = true → room ASRC_LOSS_CNT.adr →
        ((∀ q ∈ s.groupStreams g, s.qualifies g q = false) → s.runs (.asrcSourceLost g) (fun t => t.gState g = gHold ∧
          (t.grpOf g).holdAt = s.sidx ∧ isLost t p = true ∧ t.reg (ASRC_RATIO.adr g) = s.reg (ASRC_RATIO.adr g) ∧
          counts ASRC_LOSS_CNT.adr t ∧ tells 0x72 t)) ∧
        (s.sidx % s.nb = 0 → s.qualifies g t0 = true → s.runs (.asrcPilotChanged g flow id) (fun t => t.gState g = gLock ∧
          t.gPilot g = t0 ∧ t.reg (ASRC_RATIO.adr g) = s.reg (ASRC_RATIO.adr g) ∧ isLost t p = true ∧
          counts ASRC_LOSS_CNT.adr t ∧ tells 0x77 t))) ∧
      (s.streamLost p.1 p.2 = false ∨ (∃ q ∈ s.groupStreams g, s.qualifies g q = true) →
        s.runs (.asrcSourceLost g) (fun t => t = s))) ∧
    (s.gState g = gHold →
      (x.holdAt * 10 + s.fld (ASRC_XGRP.HOLDMAX g) * s.fs ≤ s.sidx * 10 → s.runs (.asrcHoldExpired g) (fun t =>
        t.gState g = gIdle ∧ t.reg (ASRC_RATIO.adr g) = 0 ∧ tells 0x73 t)) ∧
      (s.sidx * 10 < x.holdAt * 10 + s.fld (ASRC_XGRP.HOLDMAX g) * s.fs → s.runs (.asrcHoldExpired g) (fun t => t = s))) ∧
    (s.gState g = gLock ∨ s.gState g = gHold → t0 ≠ p → isLost s t0 = false →
      (∀ m, x.memOf t0.1 t0.2 = some m → 4 ≤ m.stray → (s.groupStreams g).contains t0 = true → room ASRC_STRAY_CNT.adr →
        s.runs (.asrcStray g flow id) (fun t => t.gState g = s.gState g ∧ isLost t t0 = true ∧ counts ASRC_STRAY_CNT.adr t ∧
          tells 0x74 t))) ∧
    (s.gState g = gLock ∨ s.gState g = gHold → t0 ≠ p → s.sidx % s.nb = 0 → s.onLine g t0 = true →
      s.runs (.asrcStreamRejoin g flow id) (fun t => isLost t t0 = false ∧ t.gState g = s.gState g ∧ t.gPilot g = p))

/-- Registers of the rate conversion pool (R251, R253-R255): group and channel writes that R254 forbids raise ASRC_REFUSED with
their cause; else they wait for the block boundary, at which an enabled channel fades in, a disabled one fades out, an
enabled group with a publishing pilot enters ACQUIRE and a disabled group IDLE. A Basic port takes free channels for each
slot and direction, or is refused with its group and cause 5. -/
def Obligations.RateConversionSettings : Prop :=
  ∀ (g : Fin 64) (c : Fin 1024) (p : Fin 32) (v : Word) (s : State),
    let o : Owner := ⟨0x5000FC, 0, false⟩
    let off := ASRC_XGRP.adr g
    let u := setBits v 27 12 0
    let old := s.lastWritten off
    let changed : Prop := (s.flag (ASRC_XGRP.EN g) = true ∨ bitOf old 31 = true) ∧
      (bitsOf old 29 28 ≠ bitsOf u 29 28 ∨ bitsOf old 11 0 ≠ bitsOf u 11 0)
    let refused (n cause : Nat) (t : State) : Prop := t.stg = s.stg ∧ t.stgB = s.stgB ∧ t.str = s.str ∧
      (s.hears 0x76 1 → t.told s 0x76 n (BitVec.ofNat 32 cause) 0)
    let ch := setBits v 9 6 0
    let x := s.chOf c
    let b := setBits v 30 6 0
    let want := (List.range (cfgSlots (s.lastWritten (TDM_XCTL.adr p)))).flatMap (fun k =>
      [chWord 0 (bitsOf b 5 0) 1 p k, chWord 1 (bitsOf b 5 0) 1 p k])
    (s.glb.testEn = false → s.inReset o = false →
      (changed → s.runs (.asrcXgrpWrite g 0 v) (refused g 6)) ∧
      (¬ changed → bitsOf u 29 28 = 1 → 32 ≤ bitsOf u 11 0 → s.runs (.asrcXgrpWrite g 0 v) (refused g 1)) ∧
      (¬ changed → bitsOf u 29 28 ≠ 1 ∨ bitsOf u 11 0 < 32 → s.runs (.asrcXgrpWrite g 0 v) (fun t =>
        Tbl.find t.stg off = some u ∧ t.xmode o = true ∧ t.gState g = s.gState g)) ∧
      s.runs (.asrcXgrpWrite g 1 v) (fun t => Tbl.find t.stg (off + 4) = some (setBits v 31 16 0)) ∧
      (s.chanCause c ch = 0 → s.runs (.asrcXchWrite c v) (fun t => Tbl.find t.stg (chOff c) = some ch ∧ t.str = s.str)) ∧
      (s.chanCause c ch ≠ 0 → s.runs (.asrcXchWrite c v) (refused c (s.chanCause c ch))) ∧
      (s.xmode o = false →
        (bitOf b 31 = false → s.runs (.asrcBportWrite p v) (fun t => t.reg (ASRC_BPORT.adr p) = b)) ∧
        (bitOf b 31 = true → bitOf (s.reg (ASRC_BPORT.adr p)) 31 = false →
          ((s.freeChans want.length).length < want.length → s.runs (.asrcBportWrite p v) (fun t => refused (bitsOf b 5 0) 5 t ∧
            t.reg (ASRC_BPORT.adr p) = s.reg (ASRC_BPORT.adr p))) ∧
          ((s.chanPlan want).2.1 = 0 → s.runs (.asrcBportWrite p v) (fun t => t.reg (ASRC_BPORT.adr p) = b ∧
            ∀ q ∈ (s.chanPlan want).1, Tbl.find t.stgB (chOff q.1) = some q.2))))) ∧
    (∀ w, s.sidx % s.nb = 0 → s.due (chOff c) = some w → s.runs (.asrcChannelApply c) (fun t => t.reg (chOff c) = w ∧
      t.due (chOff c) = none ∧
      (bitOf w 31 = true → bitOf (s.reg (chOff c)) 31 = false → (t.chOf c) = ⟨turnFade 0 x.fade true s.sidx, w⟩ ∧
        (s.fld ASRC_STAT.CHANNELS < 1024 → t.fld ASRC_STAT.CHANNELS = s.fld ASRC_STAT.CHANNELS + 1)) ∧
      (bitOf w 31 = false → bitOf (s.reg (chOff c)) 31 = true → (t.chOf c) = ⟨turnFade 0 x.fade false s.sidx, x.heard⟩))) ∧
    (s.sidx % s.nb = 0 → s.runs (.asrcGroupApply g) (fun t => (∀ w, s.due off = some w → t.reg off = w) ∧
      (∀ w, s.due (off + 4) = some w → t.reg (off + 4) = w) ∧
      (s.due off = none → s.flag (ASRC_XGRP.EN g) = true → s.gState g = gIdle →
        s.publishes (s.fld (ASRC_XGRP.KIND g)) (s.fld (ASRC_XGRP.PILOT g)) = true → t.gState g = gAcquire ∧
          t.gPilot g = (s.fld (ASRC_XGRP.KIND g), s.fld (ASRC_XGRP.PILOT g)) ∧ (t.grpOf g).lost = []) ∧
      (s.due off = none → s.flag (ASRC_XGRP.EN g) = false → t.gState g = gIdle)))

/-- The raft link and state (R258, R260-R266, R276-R279, R281, R283): a claim to be master against a present one is refused with
cause 6; EN waits for the block boundary, where the chip goes FORMING, or ALONE while no link is UP, or OFF; a port that
trained is UP or refused with its cause; a link that goes DOWN leaves a WRAPPED raft or an ALONE chip; a frame's words and a
good control word's fields are taken in, and bad ones and wrong slot CRCs counted; the raft forms from its ring, a follower
aligned; wraps, detours, unwrap and raft reset act at their indices. (That a chip is ALONE at once, the layout of the slot
CRC, and which break an unwrap repairs are the model's reading: log entries 50 and 51.) -/
def Obligations.RaftLinks : Prop :=
  ∀ (v rt fcs : Word) (west nside misw : Bool) (node : BitVec 14) (inv : BitVec 3) (rate : Fin 6) (cause : Fin 16)
    (cw : BitVec 256) (slots : List RaftWord) (lag : BitVec 18) (ring : List RaftHop) (phase : BitVec 64) (s : State),
    let o : Owner := ⟨0x6000FC, 0, false⟩
    let role := west != s.flag RAFT_STAT.ORIENT
    let r := if role then 0 else 1
    let x := s.ring r
    let claim := bitOf v 30 != s.isMaster && s.flag RAFT_CTL.EN && s.flag RAFT_STAT.MV
    let link (st c : Nat) (t : State) : Prop := t.fld (linkState role) = st ∧ t.fld (linkCause role) = c
    let cv := cw.toNat
    let good := cwBits cv 15 0 == cwCrc cv && cwBits cv 255 248 == 0xC5 && cwBits cv 247 245 == 1
    let win : Tbl Int := slots.foldl (fun l w =>
      if w.slot.val < s.raftSlots then Tbl.put (fun _ => 0) l w.slot.val (toSigned 40 w.word.toNat) else l) []
    let sok := fcs.toNat == slotCrc s.raftSlots win
    let own := (List.range ring.length).find? (fun i => ring[i]?.any (fun h => h.pos.val == s.raftPos))
    let from_ (p : Nat) : Prop := ring[0]?.any (fun h => h.pos.val == p) = true
    let links := s.linkUp false || s.linkUp true
    (s.glb.testEn = false → s.inReset o = false → s.xmode o = false →
      (claim = true → s.runs (.raftCtlWrite v) (fun t => t.isMaster = s.isMaster ∧ t.stg = s.stg ∧
        t.reg RAFT_REFUSE.adr = BitVec.ofNat 32 (2 * 2 ^ 30 + 6 * 2 ^ 24))) ∧
      (claim = false → s.runs (.raftCtlWrite v) (fun t => t.isMaster = bitOf v 30 ∧ t.flag RAFT_CTL.EN = s.flag RAFT_CTL.EN ∧
        Tbl.find t.stg RAFT_CTL.adr = some (setBits v 29 0 0)))) ∧
    (∀ w, s.sidx % s.nb = 0 → s.due RAFT_CTL.adr = some w →
      (bitOf w 31 = true → s.flag RAFT_CTL.EN = false → s.raftState = raftOff → s.mode ≠ 0 → s.runs .raftEnableApply (fun t =>
        t.raftState = (if links then raftForming else raftAlone) ∧ t.reg RAFT_CTL.adr = w)) ∧
      (bitOf w 31 = false → s.flag RAFT_CTL.EN = true → s.runs .raftEnableApply (fun t => t.raftState = raftOff ∧
        t.linkUp false = false ∧ t.linkUp true = false ∧ t.raft.lost = [] ∧ t.raft.applies = [] ∧
        ∀ i, i < 64 → t.reg (RAFT_HOP.adr i) = 0))) ∧
    (s.raftState ≠ raftOff → s.linkUp role = false →
      let up := Instr.raftLinkUp west node nside inv misw rate
      (misw = true → s.runs up (link 1 4)) ∧
      (misw = false → rate.val ≠ s.fld GLB_RATE.RATE → s.runs up (link 3 7)) ∧
      (misw = false → rate.val = s.fld GLB_RATE.RATE → node.toNat / 64 ≠ s.raftNo ∨ node.toNat % 64 = s.raftPos →
        s.runs up (link 3 9)) ∧
      (misw = false → rate.val = s.fld GLB_RATE.RATE → node.toNat / 64 = s.raftNo → node.toNat % 64 ≠ s.raftPos →
        s.runs up (fun t => t.linkUp role = true ∧
          t.raftState = (if s.raftState = raftAlone then raftForming else s.raftState) ∧
          (s.hears 0x80 1 → t.told s 0x80 (b2n role) (BitVec.ofNat 32 (b2n role)) (inv.setWidth 32))))) ∧
    (s.linkUp role = true → s.hears 0x81 1 → s.runs (.raftLinkDown west cause) (fun t => link 0 cause t ∧
      t.told s 0x81 (b2n role) (BitVec.ofNat 32 (b2n role)) (BitVec.ofNat 32 cause) ∧
      (s.linkUp (!role) = false → s.raftState ≠ raftOff → t.raftState = raftAlone ∧ t.raft.wraps = []) ∧
      (s.linkUp (!role) = true → s.raftState = raftRun → s.raft.lost = [] → cause ≠ 10 → t.raftState = raftWrapped ∧
        t.raft.lost = [s.portHop role] ∧ t.raft.brk = s.raft.brk ++ [(role, s.sidx, [s.portHop role])]))) ∧
    (s.linkUp role = true → s.raftState ≠ raftOff →
      let rx := Instr.raftFrameRx west cw fcs slots lag rt
      (good = false → (sok = true ∨ x.badFcs < 7) → x.badCw < 7 → x.badIdx < 8 → x.badT < 8 →
        (s.reg RAFT_CWERR_CNT.adr).toNat + 1 < 0xFFFFFFFF → s.runs rx (fun t => t.linkUp role = true ∧
          t.reg RAFT_CWERR_CNT.adr = s.reg RAFT_CWERR_CNT.adr + 1 ∧ (t.ring r).badCw = x.badCw + 1 ∧
          (t.ring r).badFcs = (if sok then 0 else x.badFcs + 1) ∧ (t.ring r).win = win)) ∧
      (good = false → sok = false → 7 ≤ x.badFcs → s.runs rx (link 0 2)) ∧
      (good = false → sok = true → 7 ≤ x.badCw → s.runs rx (link 0 3)) ∧
      (good = true → s.raft.oriented = true → cwBits cv 244 242 ≠ s.fld GLB_RATE.RATE → s.runs rx (link 3 7)) ∧
      (good = true → s.raft.oriented = true → s.raftState = raftForming → s.raft.lost = [] → s.isMaster = false → rt = 0 → sok = true →
        cwBits cv 244 242 = s.fld GLB_RATE.RATE → cwBits cv 226 219 = s.raftNo → cwBits cv 218 213 ≠ s.raftPos →
        cwBits cv 116 113 = 0 → cwBits cv 241 241 = 1 → x.badT < 8 → s.runs rx (fun t => t.flag RAFT_STAT.MV = true ∧
          t.raft.mpos = cwBits cv 240 235 ∧ t.raft.qual = cwBits cv 234 227 ∧ (t.ring r).echo = cwBits cv 158 147 ∧
          (t.ring r).lag = lag.toNat ∧ (t.ring r).badCw = 0 ∧ t.linkUp role = true))) ∧
    (∀ i, own = some i → s.raftState = raftForming → links = true → ring.length ≤ 64 →
      let formed := Instr.raftFormed ring phase
      let made (t : State) : Prop := t.raftState = raftRun ∧ t.ringN = ring.length ∧ t.ringIdx = i ∧ t.raft.lost = [] ∧
        ∀ j h, ring[j]? = some h → t.dhop j = h.dhop.toNat ∧ t.fld (RAFT_HOP.POS j) = h.pos.val
      (s.isMaster = true → from_ s.raftPos → s.runs formed (fun t => made t ∧ t.sidx = s.sidx)) ∧
      (∀ d, s.isMaster = false → from_ s.raft.mpos → s.raft.oriented = true → s.refOnRaft = true → s.flag RAFT_STAT.MV = true →
        s.alignBy ring i = some d →
        (s.mode = 1 → s.runs formed (fun t => made t ∧ t.sidx = (((s.sidx : Nat) : Int) + rneDiv d 65536).toNat)) ∧
        (s.mode ≠ 1 → d.natAbs ≤ 32768 → s.runs formed (fun t => made t ∧ t.sidx = s.sidx)) ∧
        (s.mode ≠ 1 → 32768 < d.natAbs → s.runs formed (fun t =>
          let bad := s.alignRing ring.length i == 0
          t.fld (linkState bad) = 3 ∧ t.fld (linkCause bad) = 8)))) ∧
    (∀ w n hops l, s.raft.brk = (w, n, hops) :: l → s.runs .raftWrapStart (fun t => t.raft.brk = l ∧
      let at_ := s.sidx + 1 + (s.ringSum - s.lostDelay s.raft.lost) + 64
      ⟨w, s.sidx + 1, at_, hops⟩ ∈ t.raft.wraps ∧ t.raft.wrapAt = s.raft.wrapAt ++ [at_])) ∧
    (∀ at_ l, s.raft.wrapAt = at_ :: l →
      (at_ ≤ s.sidx → s.hears 0x86 1 → s.runs .raftWrap (fun t => t.raft.detour = s.raft.lost ∧
        t.raft.wrapAt = l.filter (fun z => z != at_) ∧
        t.told s 0x86 ((s.raft.lost.getLast?).getD 0) (BitVec.ofNat 32 s.ringSum) (lo32 at_))) ∧
      (s.sidx < at_ → s.runs .raftWrap (fun t => t = s))) ∧
    (s.repaired = true → s.fld RAFT_XCFG.WTR ≠ 0 →
      ((s.raft.upSince.getD 0) * 10 + s.fld RAFT_XCFG.WTR * s.fs ≤ s.sidx * 10 → s.runs .raftWtrExpiry (fun t =>
        t.raft.unwrap = some (s.sidx + s.ringSum + 64, none, ((s.raft.wraps.find? (fun w => !w.west)).map (fun w => w.hops)).getD []))) ∧
      (s.sidx * 10 < (s.raft.upSince.getD 0) * 10 + s.fld RAFT_XCFG.WTR * s.fs → s.runs .raftWtrExpiry (fun t => t = s))) ∧
    (∀ at_ h hops, s.raft.unwrap = some (at_, h, hops) →
      let left := s.raft.lost.filter (fun r => !hops.contains r)
      (at_ ≤ s.sidx → s.runs .raftUnwrap (fun t => t.raftState = s.breakState left ∧ t.raft.lost = left ∧
        t.raft.detour = s.raft.detour.filter (fun r => !hops.contains r) ∧
        t.raft.wraps = s.raft.wraps.filter (fun w => !hops.contains (s.portHop w.west)) ∧ t.raft.unwrap = none ∧
        (∀ i d tm, s.ringN ≤ 64 → i < s.ringN → Tbl.find s.raft.reports (s.fld (RAFT_HOP.POS i)) = some (d, tm) → d < 256 →
          t.dhop i = d) ∧ ∀ k, h = some k → t.cmdOf k = none)) ∧
      (s.sidx < at_ → s.runs .raftUnwrap (fun t => t = s))) ∧
    (∀ at_ h, s.raft.resetAt = some (at_, h) →
      (at_ ≤ s.sidx → s.runs .raftResetRipple (fun t => t.raft.resetAt = none ∧ t.raft.lost = [] ∧
        (s.raftUp = true → t.raftState = raftForming) ∧ (∀ k, h = some k → t.cmdOf k = none) ∧
        ∀ g k, k < 32768 → t.reg (slotOff g k) = s.reg (slotOff g k))) ∧
      (s.sidx < at_ → s.runs .raftResetRipple (fun t => t = s)))

/-- Raft commands (R272, R273, R279-R283, R389): an apply too early is refused with cause 5, else it waits for X, where all
staged entries take effect or, with RAFT_REFUSE naming the first bad one, none; RAFT_PATH and RAFT_RELAY need the master and
allocate the lowest slot that is free and protected; barriers, raft reset, snapshots and RAFT_RESTORE wait for their index,
each sent round the raft; a token that does not return is sent again up to 3 times, then its command is aborted. -/
def Obligations.RaftCommands : Prop :=
  ∀ (a0 a1 a2 tag : Word) (pos : Fin 64) (s : State),
    let args3 : List Word := [a0, a1, a2]
    let at_ := a1.toNat + 2 ^ 32 * a2.toNat
    let from0 := a0.toNat + 2 ^ 32 * a1.toNat
    let wide := bitOf a0 31
    let room (n : Nat) : Prop := s.raft.east.tq.length + n ≤ 16
    let e (op : Nat) (args : List Word) : Ctx := s.ctxOf directPort op tag args
    let waits (c : Ctx) (t : State) : Prop := (t.cmdOf c.handle).isSome = true
    let x1 := s.sidx + s.ringSum + 64
    let org := bitsOf a0 21 16
    let dst := bitsOf a1 21 16
    let i (p : Nat) : Nat := (s.idxOf p).getD 0
    let hops (g : Nat) : List Nat := s.pathHops g (i org) (i dst)
    let ring := if (hops 0).length ≤ (hops 1).length then 0 else 1
    (s.admits directPort 0x0601 args3 = true →
      let c := e 0x0601 args3
      (at_ < s.sidx + (if wide then s.ringSum + 64 else 1) → s.runs (.raftApply 127 tag args3) (fun t =>
        t.answers s c stBadArg 5 0x0601 ∧ t.raft = s.raft ∧
        t.reg RAFT_REFUSE.adr = BitVec.ofNat 32 (2 ^ 30 + 5 * 2 ^ 24 + 0x0601))) ∧
      (s.sidx + (if wide then s.ringSum + 64 else 1) ≤ at_ → (wide = true → room 1) → s.runs (.raftApply 127 tag args3) (fun t =>
        t.raft.applies = s.raft.applies ++ [(at_, some c.handle, false)] ∧ waits c t ∧
        t.raft.east.tq.length = s.raft.east.tq.length + b2n wide)) ∧
      (s.sidx + s.ringSum + 64 ≤ at_ → wide = true → ¬ room 1 → s.runs (.raftApply 127 tag args3) (fun t =>
        t.answers s c stBusy 0 0 ∧ t.raft = s.raft))) ∧
    (∀ n h faded, s.raft.applies = [(n, some h, faded)] → n ≤ s.sidx →
      (s.applyCheck = none → s.runs .raftApplyAtX (fun t => t.raft.applies = [] ∧
        (∀ g k w, g < 2 → k < 32768 → Tbl.find s.stg (slotOff g k) = some w → t.reg (slotOff g k) = w) ∧
        (∀ c, s.cmdOf h = some c → t.cmdOf h = none))) ∧
      (∀ slot cause, s.applyCheck = some (slot, cause) → s.runs .raftApplyAtX (fun t => t.raft.applies = [] ∧ t.stg = s.stg ∧
        t.reg RAFT_REFUSE.adr = BitVec.ofNat 32 (cause * 2 ^ 24 + slot % 65536) ∧
        ∀ g k, k < 32768 → t.reg (slotOff g k) = s.reg (slotOff g k)))) ∧
    (s.admits directPort 0x0602 [a0, a1] = true →
      let c := e 0x0602 [a0, a1]
      (s.isMaster = false ∨ s.raftUp = false → s.runs (.raftPath 127 tag [a0, a1]) (fun t => t.answers s c stWrongMode 0 0 ∧
        t.raft = s.raft)) ∧
      (s.isMaster = true → s.raftUp = true → org = dst ∨ s.idxOf org = none ∨ s.idxOf dst = none →
        s.runs (.raftPath 127 tag [a0, a1]) (fun t => t.answers s c stBadArg 0 0)) ∧
      (s.isMaster = true → s.raftUp = true → org ≠ dst → s.idxOf org ≠ none → s.idxOf dst ≠ none →
        (s.freeSlot ring (hops ring) = none → s.runs (.raftPath 127 tag [a0, a1]) (fun t => t.answers s c stNoResource 0 0)) ∧
        (∀ k, room 3 → s.freeSlot ring (hops ring) = some k → s.runs (.raftPath 127 tag [a0, a1]) (fun t =>
          t.raft.alloc = s.raft.alloc ++ [(ring, k, hops ring)] ∧ waits c t ∧
          t.raft.applies = s.raft.applies ++ [(x1, some c.handle, false)] ∧
          (org = s.raftPos → Tbl.find t.stg (slotOff ring k) = some (BitVec.ofNat 32 (2 ^ 29 + bitsOf a0 12 0))))))) ∧
    (s.admits directPort 0x0603 args3 = true →
      let c := e 0x0603 args3
      let tail := org
      let bus := bitsOf a0 9 0
      let ms := (List.range 64).filter (fun p => at_ / 2 ^ p % 2 == 1 && p != tail)
      let east := ms.filter (fun p => decide ((s.pathHops 0 (i p) (i tail)).length ≤ (s.pathHops 1 (i p) (i tail)).length))
      (s.isMaster = false ∨ s.raftUp = false → s.runs (.raftRelay 127 tag args3) (fun t => t.answers s c stWrongMode 0 0 ∧
        t.raft = s.raft)) ∧
      (s.isMaster = true → s.raftUp = true → ms = [] → s.runs (.raftRelay 127 tag args3) (fun t => t.answers s c stBadArg 0 0)) ∧
      (∀ k hs l, s.isMaster = true → s.raftUp = true → ms ≠ [] → (∀ p ∈ tail :: ms, s.idxOf p ≠ none) → east = ms →
        s.relayHalf 0 bus tail ms = some (k, hs, l) → room (s.entryTokens l) → s.runs (.raftRelay 127 tag args3) (fun t =>
          t.raft.alloc = s.raft.alloc ++ [(0, k, hs)] ∧ waits c t ∧
          t.raft.applies = s.raft.applies ++ [(x1, some c.handle, false)]))) ∧
    (s.admits directPort 0x0604 [a0] = true →
      let c := e 0x0604 [a0]
      s.isMaster = true → room 1 → s.runs (.raftBarrier 127 tag [a0]) (fun t => waits c t ∧
        t.raft.arrived = s.raft.arrived ++ [(bitsOf a0 7 0, c.handle)] ∧
        t.raft.collects = s.raft.collects ++ [(bitsOf a0 7 0, s.sidx)])) ∧
    (s.admits directPort 0x0604 [a0] = true →
      let c := e 0x0604 [a0]
      s.isMaster = false → s.runs (.raftBarrier 127 tag [a0]) (fun t => waits c t ∧
        t.raft.arrived = s.raft.arrived ++ [(bitsOf a0 7 0, c.handle)] ∧ t.raft.collects = s.raft.collects ∧
        ∀ q ∈ t.raft.held, cwBits q.pay 63 56 ≠ bitsOf a0 7 0)) ∧
    (∀ id n ab, s.raft.releases = [(id, n, ab)] → n ≤ s.sidx → s.runs .raftBarrierRelease (fun t => t.raft.releases = [] ∧
      t.raft.arrived = s.raft.arrived.filter (fun q => q.1 != id) ∧
      ∀ q ∈ s.raft.arrived, q.1 = id → t.cmdOf q.2 = none)) ∧
    (∀ id n, s.raft.collects = [(id, n)] → n * 1000 + s.fld RAFT_XTOK.BTIMEOUT * s.fs ≤ s.sidx * 1000 → s.hears 0x8E 1 →
      s.runs (.raftBarrierTimeout pos) (fun t => t.raft.collects = [] ∧
        t.raft.releases = s.raft.releases ++ [(id, s.sidx + s.ringSum, true)] ∧
        t.told s 0x8E id (BitVec.ofNat 32 id) (BitVec.ofNat 32 pos))) ∧
    (s.admits directPort 0x0606 [a0, a1] = true →
      let c := e 0x0606 [a0, a1]
      (from0 < s.sidx + s.ringSum → s.runs (.raftReset 127 tag [a0, a1]) (fun t => t.answers s c stBadArg 0 0 ∧ t.raft = s.raft)) ∧
      (s.sidx + s.ringSum ≤ from0 → room 1 → s.runs (.raftReset 127 tag [a0, a1]) (fun t => waits c t ∧
        t.raft.resetAt = some (from0, some c.handle)))) ∧
    (s.admits directPort 0x0607 [a0, a1] = true →
      let c := e 0x0607 [a0, a1]
      (from0 < s.sidx + s.ringSum → s.runs (.raftSnap 127 tag [a0, a1]) (fun t => t.answers s c stBadArg 0 0 ∧ t.raft = s.raft)) ∧
      (s.sidx + s.ringSum ≤ from0 → room 1 → s.runs (.raftSnap 127 tag [a0, a1]) (fun t => waits c t ∧
        t.raft.snaps = s.raft.snaps ++ [(from0, some c.handle)]))) ∧
    (s.admits directPort 0x0605 [] = true →
      let c := e 0x0605 []
      (s.repaired = false ∨ s.fld RAFT_XCFG.WTR ≠ 0 → s.runs (.raftRestore 127 tag []) (fun t =>
        t.answers s c stWrongMode 0 0 ∧ t.raft = s.raft)) ∧
      (s.repaired = true → s.fld RAFT_XCFG.WTR = 0 → s.raft.west.tq.length < 16 → s.runs (.raftRestore 127 tag []) (fun t =>
        waits c t ∧ t.raft.unwrap = some (x1, some c.handle, ((s.raft.wraps.find? (fun w => !w.west)).map (fun w => w.hops)).getD [])))) ∧
    (∀ q, s.raft.sent = [q] →
      (s.sidx ≤ q.sentAt + 2 * s.ringSum + 64 → s.runs .raftTokenResend (fun t => t = s)) ∧
      (q.sentAt + 2 * s.ringSum + 64 < s.sidx → q.tries < 3 → (s.reg RAFT_TOKRTX_CNT.adr).toNat + 1 < 0xFFFFFFFF →
        s.runs .raftTokenResend (fun t => t.raft.sent = [{ q with sentAt := s.sidx, tries := q.tries + 1 }] ∧
          t.reg RAFT_TOKRTX_CNT.adr = s.reg RAFT_TOKRTX_CNT.adr + 1 ∧ (t.ring q.ring).tq = (s.ring q.ring).tq ++ [q.tok])) ∧
      (q.sentAt + 2 * s.ringSum + 64 < s.sidx → 3 ≤ q.tries → s.hears 0x8F 1 → s.runs .raftTokenResend (fun t =>
        t.raft.sent = [] ∧ t.told s 0x8F q.tok.typ (BitVec.ofNat 32 q.tok.typ) (BitVec.ofNat 32 q.tok.seq) ∧
        ∀ h, q.handle = some h → t.cmdOf h = none)))

/-- Network flow tables (R287-R291, R295, R299-R301, R305, R390): a write that R301 refuses sets NET_REFUSE and leaves the entry;
else it is staged. At the block boundary all words of an entry apply together: an enabled transmit flow starts with number 0,
a disabled one stops after its packet; an enabled receive flow waits with its jitter buffer, or is refused with cause 5 and
left unchanged; a disabled one fades out; one enabled again before it has stopped starts after that. The flow commands fill
the lowest free entry and its channels, and clear them. -/
def Obligations.FlowTables : Prop :=
  ∀ (tx : Bool) (f : Fin 4096) (w : Fin 8) (v tag : Word) (args : List Word) (s : State),
    let o : Owner := ⟨0x7000FC, 0, false⟩
    let u := flowMask tx w v
    let cause := s.flowCause tx f w u
    let entry (out : Bool) : List Word := (List.range 8).map (fun k => (s.due (flowOff out f k)).getD (s.reg (flowOff out f k)))
    let refused (out : Bool) (n j : Nat) (t : State) : Prop := t.reg NET_REFUSE.adr = BitVec.ofNat 32 (b2n out * 2 ^ 30 + n * 2 ^ 24 + j)
    let applies (out : Bool) : Prop := s.sidx % s.nb = 0 ∧ (s.due (flowOff out f 0)).isSome = true
    let was (out : Bool) : Bool := flEn (s.flowReg out f)
    let ended (h : Option Nat) (t : State) : Prop := ∀ k, h = some k → t.cmdOf k = none
    (s.glb.testEn = false → s.inReset o = false → s.runs (.netFlowWrite tx f w v) (fun t =>
      if cause = 0 then Tbl.find t.stg (flowOff tx f w) = some u ∧ t.xmode o = true ∧ t.net = s.net
      else refused tx cause f t ∧ t.stg = s.stg)) ∧
    (applies true →
      (was true = false → flEn (entry true) = true → s.runs (.netFlowApply true f) (fun t => t.flowReg true f = entry true ∧
        ended (s.txOf f).cmd t ∧
        ((s.txOf f).on = true → (t.txOf f).again = true ∧ (t.txOf f).heard = (s.txOf f).heard) ∧
        ((s.txOf f).on = false → (t.txOf f).on = true ∧ (t.txOf f).heard = entry true ∧ (t.txOf f).seq = 0 ∧
          (t.txOf f).rows = [] ∧ t.fld (NET_TXS.STATE f) = (if t.txHeld f then 2 else 1)))) ∧
      (was true = true → flEn (entry true) = false →
        ((s.txOf f).rows = [] → (s.txOf f).again = false → s.runs (.netFlowApply true f) (fun t => t.txOf f = TxSt.reset ∧
          t.fld (NET_TXS.STATE f) = 0 ∧ ended (s.txOf f).clr t)) ∧
        ((s.txOf f).rows ≠ [] → s.runs (.netFlowApply true f) (fun t =>
          t.txOf f = { s.txOf f with stop := true, again := false })))) ∧
    (applies false →
      let e := entry false
      let fit := s.flowFit f e
      (was false = false → flEn e = true →
        (∀ b, fit = some b → s.runs (.netFlowApply false f) (fun t => t.flowReg false f = e ∧ t.fld (NET_RXS.STATE f) = 1 ∧
          ended (s.rxOf f).cmd t ∧
          ((s.rxOf f).heard = [] → (t.rxOf f).heard = e ∧ (t.rxOf f).buf = some b ∧ (t.rxOf f).loff = flLoff e) ∧
          ((s.rxOf f).heard ≠ [] → (t.rxOf f).again = true ∧ (t.rxOf f).heard = (s.rxOf f).heard))) ∧
        (fit = none → s.runs (.netFlowApply false f) (fun t => t.flowReg false f = s.flowReg false f ∧ refused false 5 f t ∧
          (t.rxOf f).buf = (s.rxOf f).buf ∧ ended (s.rxOf f).cmd t))) ∧
      (was false = true → flEn e = false → (s.rxOf f).again = false → s.runs (.netFlowApply false f) (fun t =>
        t.fld (NET_RXS.STATE f) = 0 ∧ (t.rxOf f).fade = turnFade 64 (s.rxOf f).fade false s.sidx ∧
        (t.rxOf f).mem.leaving = true))) ∧
    (let op := if tx then 0x0702 else 0x0701
      let cmd := if tx then Instr.flowTxSet 127 tag args else Instr.flowRxSet 127 tag args
      let c := s.ctxOf directPort op tag args
      let e := s.flowFill tx c
      let free := (List.range 4096).find? (fun g => !(s.flowKeys tx).contains g && !bitOf (s.reg (flowOff tx g 0)) 31)
      let want := if c.abits 0 29 29 = 0 then [] else (List.range (flCh e)).map (fun k => chWord (b2n tx) (c.abits 0 28 23) 2 f k)
      s.admits directPort op args = true →
        (free = none → s.runs cmd (fun t => t.answers s c stNoResource 0 0)) ∧
        (free = some f.val → s.enableCause tx f e ≠ 0 → s.runs cmd (fun t => refused tx (s.enableCause tx f e) f t ∧
          t.answers s c stBadArg (s.enableCause tx f e) f ∧ t.stgB = s.stgB)) ∧
        (free = some f.val → s.enableCause tx f e = 0 → (s.chanPlan want).2.1 = 5 → s.runs cmd (fun t =>
          t.answers s c stNoResource 5 f ∧ t.stgB = s.stgB)) ∧
        (∀ bad, free = some f.val → s.enableCause tx f e = 0 → (s.chanPlan want).2.1 = bad → bad ≠ 0 → bad ≠ 5 →
          s.runs cmd (fun t => t.answers s c stBadArg bad ((s.chanPlan want).2.2.getD 0) ∧ t.stgB = s.stgB)) ∧
        (free = some f.val → s.enableCause tx f e = 0 → (s.chanPlan want).2.1 = 0 → s.runs cmd (fun t =>
          (∀ k : Nat, k < 8 → Tbl.find t.stgB (flowOff tx f k) = some (flW e k)) ∧ (t.cmdOf c.handle).isSome = true ∧
          (∀ q ∈ (s.chanPlan want).1, Tbl.find t.stgB (chOff q.1) = some q.2) ∧
          (if tx then (t.txOf f).cmd else (t.rxOf f).cmd) = some c.handle))) ∧
    (let c := s.ctxOf directPort 0x0703 tag [v]
      let cmd := Instr.flowClear 127 tag [v]
      let out := bitOf v 31
      let busy := if out then (s.txOf f).cmd.isSome || (s.txOf f).clr.isSome else (s.rxOf f).cmd.isSome || (s.rxOf f).clr.isSome
      s.admits directPort 0x0703 [v] = true → bitsOf v 11 0 = f.val →
        (busy = true → s.runs cmd (fun t => t.answers s c stBusy 0 0 ∧ t.stgB = s.stgB)) ∧
        (busy = false → flEn (s.flowLast out f) = false → was out = false → s.runs cmd (fun t =>
          t.answers s c stOk f (s.flowChans out f).length)) ∧
        (busy = false → flEn (s.flowLast out f) = true ∨ was out = true → s.runs cmd (fun t =>
          Tbl.find t.stgB (flowOff out f 0) = some (setBits (s.lastWritten (flowOff out f 0)) 31 31 0) ∧
          (t.cmdOf c.handle).isSome = true ∧ (if out then (t.txOf f).clr else (t.rxOf f).clr) = some c.handle)))

/-- Frames and links of the network ports (R290, R291, R302-R304, R334, R335, R390): on a MAC whose link is up, a bad FCS, a
frame that is not supported or of no class and a frame too many for its queue are counted as dropped, a packet of version 2
and exact length is used by each flow that it belongs to and brings it to RUN; silence brings a flow to LOST; links go up and
down with their events; the control engine answers echo requests and ARP requests for its address, and keeps the sender's
address; a flow unresolved for 3 s raises its event; transmit and receive captures are read out; announcements are sent every
30 s, kept and listed. -/
def Obligations.NetworkFrames : Prop :=
  ∀ (mac : Fin 4) (fr : NetFrame) (len tg : BitVec 16) (taken : Fin 9) (edges : BitVec 24) (f : Fin 4096) (ip target : Word) (hw : BitVec 48) (eid eseq : BitVec 16)
    (edata : List Byte) (a0 a1 a2 tag : Word)
    (s : State),
    let m : Word := BitVec.ofNat 32 mac
    let rx := Instr.netPacketRx mac fr len tg taken edges
    let room (off : Nat) : Prop := (s.reg off).toNat + 1 < 0xFFFFFFFF
    let counted (off : Nat) (t : State) : Prop := t.reg off = s.reg off + 1
    let queue (t : State) (q : Nat) : List (NetFrame × Nat) := Tbl.get (fun _ => []) t.net.cq (8 * mac.val + q)
    let left (q : Nat) : List (NetFrame × Nat) := (queue s q).drop taken
    let fits (q : Nat) : Prop := len.toNat ≤ 1536 ∧ (left q).length < 8
    let sends (t : State) (l : List CtlFrame) : Prop :=
      Tbl.get (fun _ => []) t.net.ctx mac = Tbl.get (fun _ => []) s.net.ctx mac ++ l
    (s.macUp mac = false → s.runs rx (fun t => t = s) ∧ s.runs (.controlFrameTx mac true tg edges) (fun t => t = s)) ∧
    (s.macUp mac = true →
      (fr = .badFcs → room (NET_RXFCS.adr mac) → s.runs rx (fun t => counted (NET_RXFCS.adr mac) t ∧ t.net = s.net)) ∧
      (fr ∈ [NetFrame.macControl, .ipv6, .fragment, .options, .multicast] → room (NET_RXDROP.adr mac) → s.runs rx (fun t => counted (NET_RXDROP.adr mac) t ∧ t.net = s.net)) ∧
      (∀ q, (fr, q) ∈ [(NetFrame.igmp, 3), (NetFrame.icmp, 5), (NetFrame.other, 7)] →
        (fits q → s.runs rx (fun t => queue t q = left q ++ [(fr, len.toNat)])) ∧
        (len.toNat ≤ 1536 → 8 ≤ (left q).length → room (NET_CQDROP.adr mac) → s.runs rx (fun t => queue t q = queue s q ∧
          counted (NET_CQDROP.adr mac) t)) ∧
        (1536 < len.toNat → room (NET_RXDROP.adr mac) → s.runs rx (fun t => queue t q = queue s q ∧
          counted (NET_RXDROP.adr mac) t))) ∧
      (fr = .echo ip eid eseq edata → fits 5 → s.runs rx (fun t => sends t [.echoReply ip eid eseq edata])) ∧
      (∀ request, fr = .arp request ip hw target → fits 0 → s.runs rx (fun t =>
        t.arpOf mac ip = some ⟨mac, ip, hw, s.sidx⟩ ∧
        sends t (if request && target == s.reg (NET_IP.adr mac) then [.arpAnswer ip hw] else []))) ∧
      (∀ p, fr = .udp p →
        let flows := (keysOf s.net.rx).filter (fun g => s.flowMatches mac g p)
        let e := s.flowReg false f
        let right := p.version = 2 ∧ (rtpBody p).length = flPayload e
        (p.sumOk = false → room (NET_RXDROP.adr mac) → s.runs rx (fun t => counted (NET_RXDROP.adr mac) t ∧ t.net = s.net)) ∧
        (p.sumOk = true → flows = [f.val] → ¬ right → room (NET_RXDROP.adr mac) → s.runs rx (fun t =>
          counted (NET_RXDROP.adr mac) t ∧ t.net = s.net)) ∧
        (p.sumOk = true → f.val ∈ flows → right →
          (∀ g ∈ flows, g < 4096 ∧ ∀ b m, s.memberOf 2 g = some (b, m) → b < 16 ∧ m.slot < 16) → s.runs rx (fun t =>
          t.fld (NET_RXS.STATE f) = 2 ∧ (t.rxOf f).seq = some p.seq.toNat ∧ (t.rxOf f).used = s.sidx ∧
          t.reg (NET_RXS.adr f + 4) = p.ssrc ∧ t.fld (NET_RXS.CLAIM f) = claimOf (s.fld NET_XCLAIM.ID) p.exts ∧
          (∀ q, flows = [f.val] → (s.rxOf f).seq = some q → p.seq.toNat ≠ (q + 1) % 65536 → room (NET_RXSEQ_CNT.adr f) →
            counted (NET_RXSEQ_CNT.adr f) t))) ∧
        (p.sumOk = true → flows = [] → p.dport = 319 → s.runs rx (fun t =>
          t.reg (NET_IRQ_TIME.adr mac) = BitVec.ofNat 32 (2 ^ 31 + tg.toNat) ∧
          Tbl.find t.tim.irq mac = some (some (tg.toNat, s.timeAfter edges.toNat, s.epoch))))) ∧
      (∀ src da port fmt mc hash, fr = .sap src da port fmt mc hash → fits 4 →
        s.runs rx (fun t => ∃ x l, t.net.sap = x :: l ∧ x.ws.getD 0 0 = src ∧ x.ws.getD 1 0 = da ∧ x.mac = mac.val ∧
          x.at_ = s.sidx)) ∧
      (room (NET_TXFRM.adr mac) → s.runs (.controlFrameTx mac false tg edges) (fun t => counted (NET_TXFRM.adr mac) t ∧
        t.tim = s.tim ∧ ∃ v x, t.net.ctl = s.net.ctl ++ [(mac.val, v, x)] ∧
          ∀ y l, Tbl.get (fun _ => []) s.net.ctx mac = y :: l → x = y ∧ Tbl.get (fun _ => []) t.net.ctx mac = l)) ∧
      (mac.val ≠ s.ptpMac → s.runs (.controlFrameTx mac true tg edges) (fun t => t = s)) ∧
      (mac.val = s.ptpMac → (Tbl.get (fun _ => []) s.tim.txq mac).length < 16 →
        s.runs (.controlFrameTx mac true tg edges) (fun t => ∃ n,
          Tbl.get (fun _ => []) t.tim.txq mac = Tbl.get (fun _ => []) s.tim.txq mac ++ [(tg.toNat, n, s.epoch)]))) ∧
    (s.fld (NET_RXS.STATE f) = 2 →
      let e := s.flowReg false f
      let due := (s.rxOf f).used * rateHz (flRate e) + 2 * flSpp e * s.fs + s.nb * rateHz (flRate e)
      (due ≤ s.sidx * rateHz (flRate e) → s.hears 0xA3 1 → s.runs (.netFlowLost f) (fun t => t.fld (NET_RXS.STATE f) = 3 ∧
        (t.rxOf f).lostAt = s.sidx ∧ t.told s 0xA3 f (BitVec.ofNat 32 f) 0)) ∧
      (s.sidx * rateHz (flRate e) < due → s.runs (.netFlowLost f) (fun t => t = s))) ∧
    (bitOf (s.reg NET_STAT.adr) mac = true → s.hears 0xA1 1 → s.runs (.netLinkDown mac) (fun t =>
      bitOf (t.reg NET_STAT.adr) mac = false ∧ t.told s 0xA1 mac m 0)) ∧
    (bitOf (s.reg NET_STAT.adr) mac = false → s.flag (NET_MXCFG.EN mac) = true → s.hears 0xA0 1 → s.runs (.netLinkUp mac) (fun t =>
      t.macUp mac = true ∧ t.told s 0xA0 mac m (BitVec.ofNat 32 (s.fld (NET_MXCFG.SPEED mac))))) ∧
    (∀ n, (s.txOf f).on = true → (s.txOf f).unres = some n → s.net.noArp.contains f.val = false → s.hears 0xA9 1 →
      (n + 3 * s.fs ≤ s.sidx → s.runs (.netArpFail f) (fun t =>
        t.net.noArp = s.net.noArp ++ [f.val] ∧ t.told s 0xA9 f (BitVec.ofNat 32 f) 0)) ∧
      (s.sidx < n + 3 * s.fs → s.runs (.netArpFail f) (fun t => t = s))) ∧
    (∀ x, s.net.tx = [(f.val, x)] → x.on = true → bitOf (flW x.heard 0) 22 = true → flMac x.heard = mac.val →
      (s.net.sapAt.all (fun n => decide (n + 30 * s.fs ≤ s.sidx)) = true → s.runs .sapAnnounce (fun t =>
        t.net.sapAt = some s.sidx ∧ sends t [.sap f (s.sdpOf x.heard)])) ∧
      (∀ n, s.net.sapAt = some n → s.sidx < n + 30 * s.fs → s.runs .sapAnnounce (fun t => t = s))) ∧
    (s.admits directPort 0x0704 [a0, a1, a2] = true → s.runs (.sapList 127 tag [a0, a1, a2]) (fun t =>
      t.answers s (s.ctxOf directPort 0x0704 tag [a0, a1, a2]) stOk s.net.sap.length (min a2.toNat s.net.sap.length) ∧
      t.host.hostMem = writeHostWords s.host.hostMem (a0.toNat + 2 ^ 32 * a1.toNat)
        ((s.net.sap.take a2.toNat).flatMap (fun x => s.sapRecord x)) ∧ t.net = s.net)) ∧
    (∀ g t0 ep, Tbl.find s.tim.irq mac = some (some (g, t0, ep)) → s.runs (.netIrqTimeRead mac) (fun t =>
      t.flag (NET_IRQ_TIME.VALID mac) = false ∧ ∀ k x, (timeWords t0 ep)[k]? = some x → t.reg (NET_IRQ_TIME.adr mac + 4 + 4 * k) = x)) ∧
    (∀ g t0 ep l, Tbl.find s.tim.txq mac = some ((g, t0, ep) :: l) → s.runs (.timTxqRead mac) (fun t =>
      t.reg (TIM_TXQ.adr mac) = BitVec.ofNat 32 (2 ^ 31 + l.length * 2 ^ 16 + g) ∧
      Tbl.get (fun _ => []) t.tim.txq mac = l ∧
      ∀ k x, (timeWords t0 ep)[k]? = some x → t.reg (TIM_TXQ.adr mac + 4 + 4 * k) = x)) ∧
    (Tbl.find s.tim.txq mac = none → s.runs (.timTxqRead mac) (fun t => t.reg (TIM_TXQ.adr mac) = 0 ∧ t.tim = s.tim))

/-- Reference selection and the DPLL (R308-R323): writes out of range are refused with their cause, REF_SEL driving the Expert
page; windows qualify and disqualify candidates; loss of signal and phase hits disqualify at once, counted and told; in a
window that no loss of signal cut, the offset is shown; the DCO of a locked loop moves within the slew limit; a switch ends
after 100 ms on the chosen candidate, its phase held as the build-out offset; lock, step, settling, the end of a pull-in,
expiry of HOLDOVER and quality changes move the state as R314, R315 and R317 give; reads of LO words latch the HI words. -/
def Obligations.References : Prop :=
  ∀ (c : Fin 11) (v : Word) (off dco : BitVec 40) (phase : BitVec 64) (slew : Bool) (s : State),
    let o : Owner := ⟨0x8000FC, 0, false⟩
    let room (n : Nat) : Prop := (s.reg n).toNat + 1 < 0xFFFFFFFF
    let cw : Word := BitVec.ofNat 32 c
    let src := bitsOf v 3 0
    let sel := setBits (setBits (setBits v 31 19 0) 15 15 0) 7 4 0
    let bad0 : Prop := bitsOf v 12 0 = 0 ∨ 5000 < bitsOf v 12 0
    let u := candWord1 c v
    let bad1 : Prop := bitsOf u 25 16 = 0 ∨ 600 < bitsOf u 25 16 ∨ s.nrateBad (bitsOf u 2 0) = true
    let told (n adr cause : Nat) (t : State) : Prop := s.hears 0xC8 1 →
      t.told s 0xC8 n (BitVec.ofNat 32 adr) (BitVec.ofNat 32 cause)
    let xcand := REF_XCAND.adr c
    let dropped (cause : Nat) (t : State) : Prop := t.qualified c = false ∧ (room (REF_DISQ_CNT.adr c) →
      t.reg (REF_DISQ_CNT.adr c) = s.reg (REF_DISQ_CNT.adr c) + 1 ∧
      (s.hears 0xC4 1 → t.told s 0xC4 c cw (BitVec.ofNat 32 cause)))
    let on := s.flag (REF_XCAND.EN c)
    let tol := s.fld (REF_XCAND.TOL c) * 100000
    let x := s.candOf c
    let hi (i : Int) : Nat := ofSigned 40 i / 2 ^ 32
    (s.glb.testEn = false → s.inReset o = false →
      s.runs (.refXcandWrite c 0 v) (fun t => (bad0 → t.reg xcand = s.reg xcand ∧ told c xcand 1 t) ∧
        (¬ bad0 → t.reg xcand = candWord0 c v ∧ t.reg (xcand + 4) = s.reg (xcand + 4))) ∧
      s.runs (.refXcandWrite c 1 v) (fun t => (bad1 → t.reg (xcand + 4) = s.reg (xcand + 4) ∧ told c (xcand + 4) 1 t) ∧
        (¬ bad1 → t.reg (xcand + 4) = u ∧ t.reg xcand = s.reg xcand)) ∧
      (s.xmode o = false → s.runs (.refSelWrite v) (fun t =>
        (11 ≤ src → t.reg REF_SEL.adr = s.reg REF_SEL.adr ∧ told src REF_SEL.adr 2 t) ∧
        (src < 11 → bitsOf v 9 8 = 3 ∨ s.nrateBad (bitsOf v 18 16) = true → t.reg REF_SEL.adr = s.reg REF_SEL.adr ∧
          told src REF_SEL.adr 1 t) ∧
        (src < 11 → bitsOf v 9 8 ≠ 3 → s.nrateBad (bitsOf v 18 16) = false → t.reg REF_SEL.adr = sel ∧ t.xmode o = false ∧
          t.reg REF_XSEL.adr = BitVec.ofNat 32 (2 ^ 29 + bitsOf v 9 8 * 2 ^ 8 + src))))) ∧
    let window (l : List RefMeas) : Instr := .refMonitorWindow l dco phase slew
    (s.sup.clkAt.isSome = true → s.runs (window [⟨c, off⟩]) (fun t => t = s)) ∧
    (s.sup.clkAt = none →
      (on = true → s.windowWhole c = true → s.runs (window [⟨c, off⟩]) (fun t =>
        t.reg (REF_MEAS_LO.adr c) = BitVec.ofNat 32 (ofSigned 40 off.toInt) ∧
        candBit (t.fld REF_CSTAT.DEGRADED) c = decide (tol * 8 < off.toInt.natAbs * 10) ∧
        (c.val ≠ 0 → s.qualified c = false → off.toInt.natAbs ≤ tol →
          (if x.ever then s.fld (REF_XCAND.WTR c) else 2) ≤ x.good + 1 → t.qualified c = true) ∧
        (c.val ≠ 0 → s.qualified c = true → tol < off.toInt.natAbs → 2 ≤ x.bad → t.qualified c = false) ∧
        (s.qualified c = true → off.toInt.natAbs ≤ tol → t.qualified c = true ∧ (t.candOf c).bad = 0))) ∧
      (on = false ∨ s.windowWhole c = false → s.runs (window [⟨c, off⟩]) (fun t => t.qualified c = s.qualified c ∧
        t.reg (REF_MEAS_LO.adr c) = s.reg (REF_MEAS_LO.adr c))) ∧
      s.runs (window []) (fun t => t.reg REF_PHERR.adr = s.phaseError phase.toInt) ∧
      (s.dpll = dpllLocked → s.flag REF_STAT.SWITCHING = false → s.runs (window []) (fun t =>
        let lim : Int := ((s.fld REF_XLOOP.SLEW * 1000 : Nat) : Int)
        t.ref.dco = max (s.ref.dco - lim) (min (s.ref.dco + lim) (max (-500000000) (min 500000000 dco.toInt))) ∧
        t.reg REF_DCO_LO.adr = BitVec.ofNat 32 (ofSigned 40 t.ref.dco)))) ∧
    (on = true → s.signalLost c = true → s.qualified c = true → s.runs (.refLossOfSignal c) (dropped 2)) ∧
    (s.signalLost c = false → s.runs (.refLossOfSignal c) (fun t => t = s)) ∧
    (c.val ≠ 0 → c.val = s.refCur → s.qualified c = true → s.runs (.refPhaseHit c) (dropped 3)) ∧
    (c.val ≠ s.refCur → s.runs (.refPhaseHit c) (fun t => t = s)) ∧
    (s.flag REF_STAT.SWITCHING = true →
      (s.glb.up * 10 < s.ref.switchAt * 10 + s.fs → s.runs (.refSwitchEnd phase) (fun t => t = s)) ∧
      (s.ref.switchAt * 10 + s.fs ≤ s.glb.up * 10 → s.fld REF_XSEL.POLICY = 2 → s.fld REF_XSEL.SRC = c → c.val ≠ 0 →
        s.fld REF_STAT.NEXT = c → s.eligible c = true → s.flag RAFT_CTL.EN = false ∨ s.isMaster = true →
        s.runs (.refSwitchEnd phase) (fun t => t.refCur = c ∧ t.flag REF_STAT.SWITCHING = false ∧
          t.ref.settleAt = s.glb.up ∧ t.dpll = (if s.dpll = dpllLocked then dpllLocked else dpllAcquiring) ∧
          let align := s.flag (REF_XCAND.PHALIGN c)
          t.ref.build = (if align then s.toTick phase.toInt else phase.toInt) ∧
          t.flag REF_STAT.PULLIN = (align && t.ref.build != 0)))) ∧
    (s.flag REF_STAT.SWITCHING = false → s.runs (.refSwitchEnd phase) (fun t => t = s)) ∧
    (s.flag REF_STAT.SWITCHING = false →
      (s.dpll = dpllAcquiring → s.runs .refLocked (fun t => t.dpll = dpllLocked ∧
        t.fld REF_STAT.BW = (if s.refCur = 3 then bw01 else bw10) ∧ t.ref.settleAt = s.glb.up)) ∧
      (s.dpll ≠ dpllAcquiring → s.runs .refLocked (fun t => t = s)) ∧
      (s.dpll = dpllLocked → s.runs .refBwStep (fun t => t.dpll = dpllAcquiring ∧ t.ref.hist = [] ∧
        t.fld REF_STAT.BW = (if s.refCur = 3 then bw01 else bw100)))) ∧
    (s.dpll = dpllLocked → s.fld REF_STAT.BW = bw10 →
      (s.ref.settleAt + s.fld REF_XLOOP.SETTLE * s.fs ≤ s.glb.up → s.hears 0xC2 1 → s.runs .refSettleEnd (fun t =>
        t.fld REF_STAT.BW = bw01 ∧ t.dpll = dpllLocked ∧ t.told s 0xC2 s.refCur (BitVec.ofNat 32 s.refCur) 0)) ∧
      (s.glb.up < s.ref.settleAt + s.fld REF_XLOOP.SETTLE * s.fs → s.runs .refSettleEnd (fun t => t = s))) ∧
    (s.flag REF_STAT.PULLIN = true → s.pulledIn s.ref.build (s.glb.up - s.ref.switchAt) = true → s.runs .refPullinEnd (fun t =>
      t.flag REF_STAT.PULLIN = false ∧ t.dpll = s.dpll ∧ t.refCur = s.refCur ∧ t.ref = { s.ref with build := 0 })) ∧
    (s.flag REF_STAT.PULLIN = false ∨ s.pulledIn s.ref.build (s.glb.up - s.ref.switchAt) = false →
      s.runs .refPullinEnd (fun t => t = s)) ∧
    (s.dpll = dpllHoldover →
      (s.ref.holdAt + s.fld REF_XHOLD.HMAX * 60 * s.fs ≤ s.glb.up → s.hears 0xC7 1 → s.runs .refLost (fun t => t.dpll = dpllLost ∧
        t.fld REF_STAT.QADV = 0 ∧ t.told s 0xC7 15 15 0)) ∧
      (s.glb.up < s.ref.holdAt + s.fld REF_XHOLD.HMAX * 60 * s.fs → s.runs .refLost (fun t => t = s))) ∧
    (s.ownQuality c = true → s.sourceQuality c ≠ x.qual → s.runs (.refQualChanged c) (fun t =>
      t.quality c = s.sourceQuality c ∧ (c.val = s.refCur → s.hears 0xC9 1 → t.told s 0xC9 c cw 0))) ∧
    (s.ownQuality c = false → s.runs (.refQualChanged c) (fun t => t = s)) ∧
    s.runs (.refLoRead .dco) (fun t => t.reg REF_DCO_HI.adr = BitVec.ofNat 32 (hi s.ref.dco)) ∧
    (∀ i, Tbl.find s.ref.meas c = some i → s.runs (.refLoRead (.meas c)) (fun t =>
      t.reg (REF_MEAS_HI.adr c) = BitVec.ofNat 32 (2 ^ 31 + hi i))) ∧
    s.runs (.refLoRead .havg) (fun t => t.fld REF_HAVG_HI.HI = hi s.ref.havg ∧
      (t.flag REF_HAVG_HI.VALID = true ↔ 10 ≤ (histMean s.ref.hist).2))

/-- The time counter (R325-R336): TIME_STEP waits for the next block tick, which moves the counter by the offset, opens an epoch
and enters TRACKING; measurements of the current epoch steer within the limits, diverge, converge or make the first step; a
lost master leaves NOMASTER; TIME_JOIN loads the sample counter at the first qualifying tick or is aborted after 2 s;
TIM_XINC is written under NONE and within its limits; reads latch whole time values; PPS edges come and go. -/
def Obligations.NetworkTime : Prop :=
  ∀ (a0 a1 a2 tag v : Word) (offset gm : BitVec 64) (ep : BitVec 16) (cls : BitVec 8) (inc : BitVec 44) (edges : BitVec 24)
    (s : State),
    let args : List Word := [a0, a1, a2]
    let c := s.ctxOf directPort 0x0801 tag args
    let j := s.ctxOf directPort 0x0802 tag []
    let meas := bitOf a0 31
    let arg := toSigned 64 (a1.toNat + 2 ^ 32 * a2.toNat)
    let off := offset.toInt
    let far : Prop := s.fld TIM_XSERVO.THRESH * 1000000 < off.natAbs
    let x : TimSt := s.tim
    let o : Owner := ⟨0x9000FC, 0, false⟩
    let newInc := (s.reg TIM_XINC_LO.adr).toNat + bitsOf v 11 0 * 2 ^ 32
    let run := Instr.timOffsetMeasurement offset ep gm cls inc
    let showsAt (base : Nat) (t0 : Time) (e : Nat) (t : State) : Prop := ∀ k y, (timeWords t0 e)[k]? = some y → t.reg (base + 4 * k) = y
    (s.admits directPort 0x0801 args = true →
      (x.step.isSome = true → s.runs (.timeStep 127 tag args) (fun t => t.answers s c stBusy 0 0 ∧ t.tim = s.tim)) ∧
      (x.step = none → s.epoch = 65535 → s.hears 0xB7 1 → s.runs (.timeStep 127 tag args) (fun t =>
        t.answers s c stNoResource 0 0 ∧ t.tim = s.tim ∧ t.told s 0xB7 0 0 0)) ∧
      (x.step = none → s.epoch ≠ 65535 → meas = true → x.offset = none ∨ arg ≠ 0 → s.runs (.timeStep 127 tag args) (fun t =>
        t.answers s c stBadArg 0 0 ∧ t.tim = s.tim)) ∧
      (x.step = none → s.epoch ≠ 65535 → (meas = true → x.offset.isSome = true ∧ arg = 0) → s.runs (.timeStep 127 tag args)
        (fun t => t.tim.step = some ⟨if meas then x.offset.getD 0 else arg, false, some c.handle, s.sidx⟩ ∧
          t.flag TIM_STAT.STEPPEND = true ∧ t.time = s.time ∧ t.epoch = s.epoch ∧ (t.cmdOf c.handle).isSome = true))) ∧
    (∀ p, x.step = some p → p.grid = false → p.asked < s.sidx →
      (s.sidx % s.nb = 0 → s.epoch < 65535 → s.runs .timStepped (fun t => t.sidx = s.sidx ∧ t.epoch = s.epoch + 1 ∧
        t.time = Time.ofUnits (((s.time.units : Int) + p.offset * 2 ^ 40) % (2 ^ 64 * secUnits : Nat)).toNat ∧
        t.timState = timTracking ∧ t.flag TIM_STAT.DIV = false ∧ t.flag TIM_STAT.STEPPEND = false ∧ t.tim.step = none ∧
        t.tim.mapS = s.sidx ∧ t.tim.mapT = t.time ∧ ∀ h, p.handle = some h → t.cmdOf h = none)) ∧
      (s.sidx % s.nb ≠ 0 → s.runs .timStepped (fun t => t = s))) ∧
    (ep.toNat ≠ s.epoch ∨ s.timSrc = 2 → s.runs run (fun t => t = s)) ∧
    (ep.toNat = s.epoch → s.timSrc = 0 → s.runs run (fun t => t.tim.offset = some off ∧ t.tim.gm = some (gm.toNat, cls.toNat) ∧
      (s.timState = timUnset → x.step = none → t.tim.step = some ⟨off, false, none, s.sidx⟩ ∧ t.flag TIM_STAT.STEPPEND = true) ∧
      (s.timState = timTracking ∨ s.timState = timNoMaster → far → t.timState = timDiverged ∧ t.flag TIM_STAT.DIV = true ∧ t.tim.inc = x.inc ∧
        ((s.reg TIM_JUMP_CNT.adr).toNat + 1 < 0xFFFFFFFF → t.reg TIM_JUMP_CNT.adr = s.reg TIM_JUMP_CNT.adr + 1)) ∧
      (s.timState = timTracking ∨ s.timState = timNoMaster → ¬ far → t.timState = timTracking ∧
        t.tim.inc = max (4 * 2 ^ 40 - s.incLimit) (min (4 * 2 ^ 40 + s.incLimit) inc.toNat)) ∧
      (s.timState = timDiverged → ¬ far → t.timState = (if 7 ≤ x.within then timTracking else timDiverged) ∧
        t.tim.within = x.within + 1 ∧ t.tim.inc = x.inc))) ∧
    (s.timSrc = 0 → s.timState = timTracking ∨ s.timState = timDiverged → s.hears 0xB3 1 → s.runs .timMasterLost (fun t =>
      t.timState = timNoMaster ∧ t.tim.gm = none ∧ t.told s 0xB3 0 0 0)) ∧
    s.runs .announceReceiptTimeout (fun t => t.tim = { x with backup := x.backup || s.flag TIM_XPTP.BEN } ∧ t.regs = s.regs) ∧
    (s.admits directPort 0x0802 [] = true →
      (s.joinOk = false → s.runs (.timeJoin 127 tag []) (fun t => t.answers s j stWrongMode 0 0 ∧ t.tim = s.tim)) ∧
      (s.joinOk = true → x.join.isSome = true → s.runs (.timeJoin 127 tag []) (fun t => t.answers s j stBusy 0 0 ∧ t.tim = s.tim)) ∧
      (s.joinOk = true → x.join = none → s.runs (.timeJoin 127 tag []) (fun t => t.tim.join = some (j.handle, s.sidx) ∧
        t.sidx = s.sidx ∧ (t.cmdOf j.handle).isSome = true))) ∧
    (∀ h n, x.join = some (h, n) →
      (∀ m, s.mode = 1 → s.joinIndex = some m → s.runs .timJoined (fun t => t.sidx = m ∧ m % 64 = 0 ∧ t.flag TIM_STAT.JOINED = true ∧
        t.tim.join = none ∧ t.time = s.time ∧ t.cmdOf h = none)) ∧
      (s.joinIndex = none ∨ s.mode ≠ 1 → s.runs .timJoined (fun t => t = s)) ∧
      (n + 2 * s.fs ≤ s.sidx → s.runs .timeJoinTimeout (fun t => t.tim.join = none ∧ t.sidx = s.sidx ∧ t.cmdOf h = none)) ∧
      (s.sidx < n + 2 * s.fs → s.runs .timeJoinTimeout (fun t => t = s))) ∧
    (s.glb.testEn = false → s.inReset o = false →
      (s.timSrc = 2 → s.incOk newInc = true → s.runs (.timXincHiWrite v) (fun t => t.tim.inc = newInc ∧ t.xmode o = true ∧
        t.reg TIM_XINC_LO.adr = BitVec.ofNat 32 newInc)) ∧
      (s.timSrc ≠ 2 ∨ s.incOk newInc = false → s.hears 0xB8 1 → s.runs (.timXincHiWrite v) (fun t => t.tim = s.tim ∧
        t.reg TIM_XINC_HI.adr = s.reg TIM_XINC_HI.adr ∧ t.told s 0xB8 0 (BitVec.ofNat 32 TIM_XINC_HI.adr) 1))) ∧
    s.runs (.timeWord0Read .now edges) (showsAt (TIM_NOW.adr 0) (s.timeAfter edges.toNat) s.epoch) ∧
    s.runs (.timeWord0Read .map edges) (showsAt (TIM_MAP.adr 2) x.mapT x.mapE) ∧
    (∀ t0 e, x.ppsIn = some (t0, e) → s.runs (.timeWord0Read .ppsIn edges) (showsAt (TIM_PPSIN.adr 0) t0 e)) ∧
    s.runs (.ppsInEdge edges) (fun t => t.tim.ppsIn = some (s.timeAfter edges.toNat, s.epoch) ∧
      t.reg (TIM_PPSIN.adr 0) = lo32 (s.timeAfter edges.toNat).sec) ∧
    (s.mode ≠ 0 → s.flag TIM_XPPS.EN = true → s.timState ≠ timUnset ∨ s.flag TIM_XPPS.FREE = true → x.secEdge = true →
      (∀ n, x.ppsAt = some n → n * 2 + s.fs ≤ s.sidx * 2) → s.runs .ppsOutPulse (fun t => t.tim.ppsHigh = true ∧
        t.tim.ppsAt = some s.sidx)) ∧
    (x.secEdge = false ∨ s.mode = 0 ∨ s.flag TIM_XPPS.EN = false ∨ (s.timState = timUnset ∧ s.flag TIM_XPPS.FREE = false) ∨
      (∃ n, x.ppsAt = some n ∧ s.sidx * 2 < n * 2 + s.fs) → s.runs .ppsOutPulse (fun t => t = s))

/-- Pair roles and the interlock (R339, R344-R351, R467): EN changes in SETUP only, to 1 with node and side fused; ILK high
starts the wait t_w, after which the standby pulls ILK and checks its read-back, and becomes active at the next boundary, hot
or cold, or goes to SAFE where the copied state is not complete; test pulses, stuck lines and splits make ILK VERIFIED or
UNVERIFIED; heartbeats show the partner's class and change no role; a lapsed watchdog releases ILK. -/
def Obligations.PairRoles : Prop :=
  ∀ (v : Word) (high rose fell absent side groups : Bool) (period hi : BitVec 16) (m : BitVec 54) (s : State),
    let o : Owner := ⟨0xA000FC, 0, false⟩
    let room (n : Nat) : Prop := (s.reg n).toNat + 1 < 0xFFFFFFFF
    let arg (k : Nat) : Word := BitVec.ofNat 32 (s.claimNow * 2 ^ 16 + s.pairGen * 2 ^ 8 + k)
    let told (code k a1 : Nat) (t : State) : Prop := s.hears code 1 → t.told s code k (arg k) (BitVec.ofNat 32 a1)
    let fault (k : Nat) (t : State) : Prop := t.flag PAIR_STAT.ILKV = false ∧ (s.pair.faultRaised = false → told 0xD4 k 0 t ∧
      (room PAIR_ILKFAIL_CNT.adr → t.reg PAIR_ILKFAIL_CNT.adr = s.reg PAIR_ILKFAIL_CNT.adr + 1))
    let en := bitOf v 31
    let badCtl : Prop := (en != s.pairOn) = true ∧ s.mode ≠ 1 ∨ en = true ∧ s.pairFused = false ∨
      bitOf v 29 = true ∧ ¬ (s.isStandby = true ∧ en = true ∧ s.psync = syncUnsynced)
    let rest := if s.mode = 3 then roleStandby else roleOff
    let wait := 5 * ((65535 - s.claimNow) / 256)
    let ready : Prop := wait * s.fs ≤ (s.sidx + 1 - s.pair.claimAt) * 1000000
    (s.glb.testEn = false → s.inReset o = false → s.xmode o = false →
      (badCtl → s.runs (.pairCtlWrite v) (fun t => t.reg PAIR_CTL.adr = s.reg PAIR_CTL.adr ∧ t.pair = s.pair ∧
        told 0xDE 1 PAIR_CTL.adr t)) ∧
      (¬ badCtl → s.runs (.pairCtlWrite v) (fun t => t.reg PAIR_CTL.adr = setBits (setBits v 29 29 0) 28 6 0 ∧
        (en = s.pairOn → t.reg PAIR_STAT.adr = s.reg PAIR_STAT.adr) ∧
        ((en != s.pairOn) = true → t.reg PAIR_PSTAT.adr = 0 ∧ t.role = roleOff ∧ t.psync = syncUnsynced ∧
          t.flag PAIR_STAT.ILKV = false ∧ t.flag PAIR_STAT.STATEOK = en ∧ t.pairGen = s.pairGen ∧
          t.fld PAIR_STAT.ILKPIN = s.fld PAIR_STAT.ILKPIN))) ∧
      (s.isStandby = true → s.pairOn = true → s.pairFused = true → s.psync = syncUnsynced → s.runs .pairResync (fun t => t.pair.copyReq = true ∧
        t.pairOn = true ∧ t.psync = syncUnsynced ∧ t.fld PAIR_CTL.PARTNER = s.fld PAIR_CTL.PARTNER))) ∧
    (s.pairOn = false → s.runs (.ilkChange high) (fun t => t.fld PAIR_STAT.ILKPIN = b2n high ∧ t.pair = s.pair)) ∧
    (s.pairOn = true →
      (s.role = roleActive → s.pair.driving = true → s.runs (.ilkChange true) (fun t => t.role = roleActive ∧
        t.fld PAIR_STAT.ILKPIN = 1 ∧ fault 1 t)) ∧
      (s.role = roleClaiming → s.pair.claim = .waiting → s.runs (.ilkChange false) (fun t => t.role = rest ∧
        t.pair.claim = .none ∧ t.pair.driving = false ∧ t.fld PAIR_STAT.ILKPIN = 0)) ∧
      (s.mode = 3 → s.role = roleStandby → s.flag PAIR_STAT.ILKPIN = true → s.pair.cfgBad = false →
        s.runs .pairIlkHighTimeout (fun t => t.role = roleClaiming ∧ t.pair.claim = .waiting ∧ t.pair.claimAt = s.sidx)) ∧
      (s.pair.cfgBad = true → s.runs .pairIlkHighTimeout (fun t => t = s)) ∧
      (s.role = roleClaiming → s.pair.claim = .waiting →
        (¬ ready → s.runs (.pairClaimWaitEnd high) (fun t => t = s)) ∧
        (ready → s.runs (.pairClaimWaitEnd false) (fun t => t.role = roleClaiming ∧ t.pair.claim = .confirmed ∧
          t.pair.driving = true ∧ t.fld PAIR_STAT.ILKPIN = 0)) ∧
        (ready → s.runs (.pairClaimWaitEnd true) (fun t => t.role = rest ∧ t.pair.claim = .none ∧ t.pair.driving = false ∧
          fault 1 t))) ∧
      (s.atBoundary = true → s.role = roleClaiming → s.pair.claimAt < s.sidx → s.pair.claim = .confirmed →
        (s.isStandby = true → s.flag PAIR_STAT.STATEOK = false → s.runs .pairActive (fun t => t.mode = 5 ∧
          t.fld GLB_MODE.SAFE_CAUSE = 5 ∧ t.role = roleOff ∧ t.pair.driving = false ∧ told 0xDA 0 0 t)) ∧
        (s.isStandby = true → s.flag PAIR_STAT.STATEOK = true → s.runs .pairActive (fun t => t.mode = 2 ∧
          t.role = roleActive ∧ t.actOut = true ∧ t.psync = syncUnsynced ∧ t.pair.driving = s.pair.driving ∧
          (room PAIR_TAKEOVER_CNT.adr → t.reg PAIR_TAKEOVER_CNT.adr = s.reg PAIR_TAKEOVER_CNT.adr + 1) ∧
          (s.psync = syncSynced → s.flag PAIR_XCFG.TDMDRV = false → t.out.hot = ⟨true, s.sidx, 64, curveEqp, 0⟩) ∧
          (s.psync ≠ syncSynced → t.out.cold = ⟨true, s.sidx, 2048, curveLin, 0⟩)))) ∧
      (s.role = roleActive → s.pair.driving = true → s.pair.pulseAt + s.fld PAIR_XCFG.TPER * s.fs / 10 ≤ s.sidx →
        s.runs (.pairIlkTestPulse rose fell) (fun t => t.pair.pulseAt = s.sidx ∧ t.role = roleActive ∧
          ((rose && fell) = true → t.pair.pulseSeen = true ∧ t.fld PAIR_STAT.ILKV = s.fld PAIR_STAT.ILKV) ∧
          ((rose && fell) = false → fault 2 t))) ∧
      (∀ n, s.isStandby = true → s.pair.expect = some n →
        (n ≤ s.sidx → s.runs (.pairIlkTestPulse rose fell) (fun t => t.role = s.role ∧ t.pair.expect = none ∧
          ((rose && fell) = true → t.pair.pulseSeen = true ∧ t.pair.missed = 0) ∧
          ((rose && fell) = false → t.pair.missed = s.pair.missed + 1 ∧ (1 ≤ s.pair.missed → fault 3 t) ∧
            (s.pair.missed = 0 → t.fld PAIR_STAT.ILKV = s.fld PAIR_STAT.ILKV)))) ∧
        (s.sidx < n → s.runs (.pairIlkTestPulse rose fell) (fun t => t = s))) ∧
      (s.isStandby = true → s.flag PAIR_STAT.ILKPIN = false → s.flag PAIR_STAT.HBOK = true → s.fld PAIR_PSTAT.HBCLASS ≤ 2 →
        s.pair.driving = false → s.runs .ilkStuckLowTimeout (fun t => t.role = s.role ∧ fault 2 t)) ∧
      (msgBits m 53 50 = 2 → s.runs (.pairStateRx m side groups) (fun t => t.fld PAIR_PSTAT.CLAIM = msgBits m 49 34 ∧
        t.fld PAIR_PSTAT.GEN = msgBits m 33 26 ∧ t.fld PAIR_PSTAT.SYNC = msgBits m 25 23 ∧ t.flag PAIR_PSTAT.MSGOK = true ∧
        t.pair.stateAt = s.sidx ∧ (s.role ≠ roleClaiming ∨ s.pair.checked = true → t.role = s.role) ∧
        (s.role = roleClaiming → s.pair.checked = false → t.pair.cfgBad = true → t.role = rest ∧ t.pair.claim = .none) ∧
        (s.pair.checked = false → t.pair.checked = true ∧
          (side = s.flag FUSE_NODE.SIDE → t.pair.cfgBad = true ∧ told 0xDE 2 0 t) ∧
          (t.pair.cfgBad = true ↔ (side = s.flag FUSE_NODE.SIDE ∨ msgBits m 49 34 / 256 % 64 = s.fld FUSE_NODE.NODE / 256 % 64 ∨
            msgBits m 18 16 ≠ s.fld GLB_RATE.RATE ∨ msgBits m 20 19 ≠ s.fld GLB_RATE.NB ∨ groups = false))) ∧
        (msgBits m 21 21 = 1 → s.pair.pulseSeen = true → msgBits m 49 34 < 0xC000 → t.flag PAIR_STAT.ILKV = true ∧
          (s.pair.checked = true → s.flag PAIR_STAT.ILKV = false → told 0xD5 0 0 t)) ∧
        (s.role = roleActive → 0xC000 ≤ msgBits m 49 34 → t.flag PAIR_STAT.ILKV = false ∧ (msgBits m 21 21 = 0 →
          (s.claimNow < msgBits m 49 34 → s.mode = 2 → s.glb.safePend = none → t.glb.safePend = some (4, s.sidx) ∧
            (s.pair.checked = true → told 0xDB 0 (msgBits m 49 34) t)) ∧
          (msgBits m 49 34 ≤ s.claimNow → t.glb.safePend = s.glb.safePend))))) ∧
      (∀ c : Nat, c < 4 → 950 ≤ period.toNat → period.toNat ≤ 1050 → 200 * (c + 1) ≤ hi.toNat + 50 → hi.toNat ≤ 200 * (c + 1) + 50 →
        s.runs (.hbInPeriod period hi) (fun t => t.fld PAIR_PSTAT.HBCLASS = c ∧ t.pair.hbGood = min 3 (s.pair.hbGood + 1) ∧
          t.pair.hbBad = 0 ∧ t.role = s.role)) ∧
      (period.toNat < 950 ∨ 1050 < period.toNat → s.runs (.hbInPeriod period hi) (fun t => t.pair.hbGood = 0 ∧
        t.pair.hbBad = min 3 (s.pair.hbBad + 1) ∧ t.reg PAIR_PSTAT.adr = s.reg PAIR_PSTAT.adr)) ∧
      (s.flag PAIR_STAT.HBOK = false → s.pair.hbGood = 3 → s.runs .pairHbRestored (fun t => t.flag PAIR_STAT.HBOK = true ∧
        t.role = s.role ∧ told 0xD3 0 0 t))) ∧
    (s.flag PAIR_STAT.HBOK = true → absent = true ∨ s.pair.hbBad = 3 → s.runs (.pairHbLost absent) (fun t =>
      t.flag PAIR_STAT.HBOK = false ∧ t.role = s.role ∧ told 0xD2 0 0 t ∧
      (room PAIR_HBLOSS_CNT.adr → t.reg PAIR_HBLOSS_CNT.adr = s.reg PAIR_HBLOSS_CNT.adr + 1))) ∧
    s.runs .pairWatchdogLapse (fun t => t.pair.driving = false ∧ t.hbHigh = 0 ∧ t.regs = s.regs)

/-- Digests, copies, health and messages of the pair (R352-R355, R357, R358): an equal block digest counts RUN up and a different
or missing one sets it to 0 and is counted, the groups that differ showing in PAIR_DIGMASK; copy phases move the sync state
at block boundaries and bring their items, and end where the partner aborts or falls silent; 4,096 blocks in CHECKING end it;
a lost STATE clears MSGOK; scores are published, and a low one is told once. -/
def Obligations.PairSync : Prop :=
  ∀ (m : BitVec 54) (ok : Bool) (items : List CopyItem) (s : State),
    let room (n : Nat) : Prop := (s.reg n).toNat + 1 < 0xFFFFFFFF
    let arg (k : Nat) : Word := BitVec.ofNat 32 (s.claimNow * 2 ^ 16 + s.pairGen * 2 ^ 8 + k)
    let run := s.fld PAIR_STAT.RUN
    let typ := msgBits m 53 50
    let phase := msgBits m 49 48
    let gen := msgBits m 47 40
    let kind := msgBits m 39 38
    let sync := s.psync
    let b9 := s.sidx / s.nb - 9
    let live : Prop := s.pair.copyAbort = false ∧ s.sidx < s.pair.copyAt + 64 * s.nb
    (s.pairOn = false → s.runs (.pairDigestRx m) (fun t => t = s) ∧ s.runs (.pairGrpdigRx m) (fun t => t = s) ∧
      s.runs (.pairCopyctlRx m) (fun t => t = s) ∧ s.runs (.pairHealthRx m) (fun t => t = s)) ∧
    (s.pairOn = true →
      (typ ≠ 1 → s.runs (.pairDigestRx m) (fun t => t = s)) ∧
      (∀ b d gs, typ = 1 → s.ownDigest (msgBits m 49 36) = some (b, d, gs) → b ∉ s.pair.got →
        (d = msgBits m 31 0 → gs.length = msgBits m 35 32 + 1 → s.runs (.pairDigestRx m) (fun t =>
          t.fld PAIR_STAT.RUN = min 8191 (run + 1) ∧ b ∈ t.pair.got ∧ t.pair.lost = s.pair.lost)) ∧
        (d ≠ msgBits m 31 0 → s.runs (.pairDigestRx m) (fun t => t.fld PAIR_STAT.RUN = 0 ∧ t.pair.lost = true ∧
          b ∈ t.pair.got ∧ b ∈ t.pair.differ ∧ t.reg PAIR_DIGMASK.adr = 0 ∧ t.psync = sync ∧
          (room PAIR_MISMATCH_CNT.adr → t.reg PAIR_MISMATCH_CNT.adr = s.reg PAIR_MISMATCH_CNT.adr + 1 ∧
            (s.hears 0xD6 1 → t.told s 0xD6 0 (arg 0) (BitVec.ofNat 32 b)))))) ∧
      (∀ b d gs, typ = 3 → s.ownDigest (msgBits m 49 36) = some (b, d, gs) → b ∈ s.pair.differ →
        ((msgBits m 35 32, msgBits m 31 0) ∈ gs → gs.Pairwise (fun p q => p.1 ≠ q.1) → s.runs (.pairGrpdigRx m) (fun t =>
          t = s)) ∧
        (∀ c, (msgBits m 35 32, c) ∈ gs → c ≠ msgBits m 31 0 → s.runs (.pairGrpdigRx m) (fun t =>
          t.reg PAIR_DIGMASK.adr = setBits (s.reg PAIR_DIGMASK.adr) (msgBits m 35 32) (msgBits m 35 32) 1 ∧
          t.pair = s.pair))) ∧
      (s.atBoundary = true → 9 ≤ s.sidx / s.nb → b9 ∉ s.pair.got → (s.pair.own.any (fun p => p.1 == b9)) = true →
        s.runs .pairMissingDigest (fun t => t.fld PAIR_STAT.RUN = 0 ∧ t.pair.lost = true ∧ b9 ∈ t.pair.got ∧
          (room PAIR_MISSING_CNT.adr → t.reg PAIR_MISSING_CNT.adr = s.reg PAIR_MISSING_CNT.adr + 1))) ∧
      (typ = 4 → kind = 0 → s.role = roleActive → s.runs (.pairCopyctlRx m) (fun t => t.pair.serve = some (phase, gen) ∧
        t.regs = s.regs)) ∧
      (typ = 4 → kind = 2 → s.role = roleActive → s.pair.serve = some (phase, gen) → s.runs (.pairCopyctlRx m) (fun t =>
        t.pair.serve = none ∧ t.regs = s.regs)) ∧
      (typ = 4 → kind ≠ 0 → s.role ≠ roleActive →
        (gen ≠ s.pairGen ∨ phase ≠ sync → s.runs (.pairCopyctlRx m) (fun t => t = s)) ∧
        (gen = s.pairGen → phase = sync → s.runs (.pairCopyctlRx m) (fun t => t.pair.copyAt = s.sidx ∧ t.regs = s.regs ∧
          (kind = 1 → t.pair.copyDone = true) ∧ (kind = 2 → t.pair.copyAbort = true)))) ∧
      (s.flag PAIR_PSTAT.MSGOK = true →
        (s.pair.stateAt + 64 * s.nb ≤ s.sidx → s.runs .pairMsgLost (fun t => t.flag PAIR_PSTAT.MSGOK = false ∧
          t.role = s.role ∧ (s.hears 0xDD 1 → t.told s 0xDD 0 (arg 0) 0))) ∧
        (s.sidx < s.pair.stateAt + 64 * s.nb → s.runs .pairMsgLost (fun t => t = s))) ∧
      (s.atBoundary = true → s.role = roleActive → ∀ p g, s.pair.serve = some (p, g) →
        s.runs (.pairCopyPhase ok items) (fun t => t.pair.serve = none ∧ t.role = roleActive)) ∧
      (s.atBoundary = true → s.isStandby = true →
        (∀ off w, sync = syncCopy1 → live → s.pair.copyDone = true → items = [.reg off w] → copyReg off.toNat = true →
          s.runs (.pairCopyPhase true items) (fun t => t.reg off.toNat = w ∧ t.psync = 2 ∧
            t.flag PAIR_STAT.STATEOK = true ∧ t.pair.copyDone = false)) ∧
        (∀ e w x, sync = 2 → live → s.pair.copyDone = true → items = [.dmem e w x] → s.runs (.pairCopyPhase true items) (fun t =>
          (t.engOf e).mem = Memory.writeBytes (s.engOf e).mem (0x100000 + 8 * w.val) (leBytes 8 x.toNat) ∧ t.psync = syncCopy3)) ∧
        (sync = syncCopy3 → live → s.pair.copyDone = true → s.runs (.pairCopyPhase true []) (fun t => t.psync = syncChecking ∧
          t.pair.checkAt = s.sidx ∧ (s.hears 0xDC 1 → t.told s 0xDC syncChecking (arg syncChecking) 0))) ∧
        (syncCopy1 ≤ sync → sync ≤ syncCopy3 → live → s.pair.copyDone = false → s.runs (.pairCopyPhase true items) (fun t => t = s)) ∧
        (syncCopy1 ≤ sync → sync ≤ syncCopy3 → s.flag PAIR_CTL.AUTORESYNC = false → ok = false ∨ ¬ live →
          s.runs (.pairCopyPhase ok items) (fun t =>
          t.psync = syncUnsynced ∧ t.flag PAIR_STAT.STATEOK = s.flag PAIR_STAT.STATEOK ∧
          ((∀ r, (s.ring r).tq.length < 16) → s.hears 0xDC 1 → t.told s 0xDC sync (arg sync) 1))) ∧
        (sync = syncChecking → s.flag PAIR_CTL.AUTORESYNC = false →
          (s.pair.checkAt + 4096 * s.nb ≤ s.sidx → s.runs .pairCheckingTimeout (fun t => t.psync = syncUnsynced ∧
            (s.hears 0xD8 1 → t.told s 0xD8 0 (arg 0) 0))) ∧
          (s.sidx < s.pair.checkAt + 4096 * s.nb → s.runs .pairCheckingTimeout (fun t => t = s))))) ∧
    s.runs .pairHealthPublish (fun t => t.pair.lapsed = false ∧ t.role = s.role ∧
      ∀ i : Nat, i < 28 → t.reg (PAIR_HLTH.adr i) = BitVec.ofNat 32 (s.healthScore i)) ∧
    (s.pairOn = true →
      let i := msgBits m 53 48
      let v := msgBits m 47 41
      (28 ≤ i → s.runs (.pairHealthRx m) (fun t => t = s)) ∧
      (i < 28 → s.runs (.pairHealthRx m) (fun t => t.reg (PAIR_PHLTH.adr i) = BitVec.ofNat 32 (2 ^ 31 + v) ∧
        (v < s.fld PAIR_XCFG.HLOW → i ∈ t.pair.plow ∧ (i ∉ s.pair.plow → s.hears 0xDF 1 →
          t.told s 0xDF i (arg i) 0)) ∧
        (s.fld PAIR_XCFG.HLOW ≤ v → i ∉ t.pair.plow))))

/-- The host interface (R365, R366, R370-R375, R377, R379, R380): the last word of a command submits it, as its own row does;
reads pop the direct FIFOs; ring descriptors are checked, started and stopped; a doorbell moves the host's index or stops the
ring with its cause; HOST_EVEN drives the routing; a function-level reset and link loss clear the interface and nothing else;
bulk entries get a handle and complete. -/
def Obligations.HostInterface : Prop :=
  ∀ (n : Fin 16) (m : Fin 8) (r : Fin 128) (v idx tag h : Word) (ws : List Word) (data : List Byte) (moved : BitVec 25)
    (err : Bool) (s : State),
    let o : Owner := ⟨0x1000FC, 0, false⟩
    let told (r cause : Nat) (t : State) : Prop := s.hears 0x19 1 → t.told s 0x19 r (BitVec.ofNat 32 cause) 0
    let stopped (cause : Nat) (t : State) : Prop := t.fld (HOST_RING.STATE r) = 2 ∧ t.fld (HOST_RING.CAUSE r) = cause ∧
      told r cause t
    let port := s.onHost (fun x => { x with port := Tbl.put (fun _ => 0) x.port n v })
    let en := s.flag (HOST_RING.EN r)
    let w2 := HOST_RING.adr r + 8
    let d := setBits (setBits v 16 14 0) 6 0 0
    let role := s.fld (HOST_RING.ROLE r)
    let move := (idx.toNat + 2 ^ 32 - s.fld (HOST_RING.HIDX r)) % 2 ^ 32
    let producer : Prop := role = 0 ∨ role = 3
    let space := if role = 0 ∨ role = 3 then s.ringSize r - s.ringWaiting r else s.ringUsed r
    let hd := r * 2 ^ 25 + s.nextSeqOf r
    let gone (t : State) : Prop := t.host.dcpl = [] ∧ t.host.devq = [] ∧ t.host.held = [] ∧ t.host.bulks = [] ∧
      (∀ k, t.nextSeqOf k = 1) ∧ (∀ k : Nat, k < 128 → t.flag (HOST_RING.EN k) = false) ∧ (∀ c ∈ t.host.cmds, c.discard = true) ∧
      t.mode = s.mode ∧ t.eng = s.eng ∧ t.lnd = s.lnd
    (s.glb.testEn = false →
      (n = 0 → 14 < bitsOf v 11 8 → s.runs (.hostCmdSubmit n v) (fun t => t.flag HOST_CMD_STAT.REFUSED = true ∧
        t.reg HOST_CMD_HANDLE.adr = 0 ∧ t.host.cmds = s.host.cmds ∧ t.host.dcpl = s.host.dcpl)) ∧
      (n = 1 → s.runs (.hostCmdSubmit n v) (fun t => t = port)) ∧
      (n = 0 → v = 0x04020000 → s.runs (.hostCmdSubmit n v) (fun t =>
        exec (.sceneDisarm 127 (s.portWord 1) []) port = .next t)) ∧
      (n = 2 → s.portWord 0 = 0x01010100 → s.runs (.hostCmdSubmit n v) (fun t =>
        exec (.modeSet 127 (s.portWord 1) [v]) port = .next t)) ∧
      (2 ≤ n.val → bitsOf (s.portWord 0) 11 8 + 1 ≠ n → s.runs (.hostCmdSubmit n v) (fun t => t = port)) ∧
      (s.inReset o = false →
        ((m = 0 ∨ m = 1) → let a := HOST_RING.adr r + 4 * m
          let b := if m = 0 then setBits v 11 0 0 else v
          (en = false → s.runs (.hostRingWrite r m v) (fun t => t.reg a = b ∧ t.xmode o = true)) ∧
          (en = true → b ≠ s.reg a → s.runs (.hostRingWrite r m v) (fun t => t.reg a = s.reg a ∧ told r 5 t))) ∧
        (en = false → bitOf v 31 = true →
          (bitsOf v 28 24 < 4 ∨ 16 < bitsOf v 28 24 → s.runs (.hostRingWrite r 2 v) (fun t => t.reg w2 = d ∧ stopped 3 t)) ∧
          (4 ≤ bitsOf v 28 24 → bitsOf v 28 24 ≤ 16 → bitsOf v 30 29 = 1 ∨ bitsOf v 30 29 = 2 → s.host.held = [] →
            s.runs (.hostRingWrite r 2 v) (fun t => t.reg w2 = d ∧ t.fld (HOST_RING.STATE r) = 1 ∧
              t.fld (HOST_RING.CAUSE r) = 0 ∧ t.fld (HOST_RING.DIDX r) = 0 ∧ t.fld (HOST_RING.HIDX r) = 0 ∧
              (r.val ∈ t.host.armed ↔ bitOf v 23 = true))) ∧
          (4 ≤ bitsOf v 28 24 → bitsOf v 28 24 ≤ 16 → bitsOf v 30 29 = 0 → r.val < 127 → bitsOf v 13 7 ≠ r → s.host.held = [] →
            (s.flag (HOST_RING.EN (bitsOf v 13 7)) = true → s.fld (HOST_RING.ROLE (bitsOf v 13 7)) = 1 →
              s.runs (.hostRingWrite r 2 v) (fun t => t.ringRuns r 0 = true ∧ t.ringWaiting r = 0 ∧ t.nextSeqOf r = 1)) ∧
            (s.flag (HOST_RING.EN (bitsOf v 13 7)) = false → s.runs (.hostRingWrite r 2 v) (stopped 3)))) ∧
        (en = true →
          (bitsOf v 30 24 ≠ bitsOf (s.reg w2) 30 24 ∨ bitsOf v 13 7 ≠ bitsOf (s.reg w2) 13 7 →
            s.runs (.hostRingWrite r 2 v) (fun t => t.reg w2 = s.reg w2 ∧ told r 5 t)) ∧
          (bitsOf v 30 24 = bitsOf (s.reg w2) 30 24 → bitsOf v 13 7 = bitsOf (s.reg w2) 13 7 → bitOf v 31 = false →
            (role ≠ 1 → s.runs (.hostRingWrite r 2 v) (fun t => t.reg w2 = d ∧ t.fld (HOST_RING.STATE r) = 0 ∧
              t.host.cmds = s.host.cmds)) ∧
            (role = 1 → s.ringNamed r = true → s.runs (.hostRingWrite r 2 v) (fun t => t.reg w2 = s.reg w2 ∧ told r 5 t))))) ∧
      (en = false → s.runs (.hostDb r idx [] err) (fun t => stopped 4 t ∧ t.fld (HOST_RING.HIDX r) = idx.toNat)) ∧
      (en = true → s.fld (HOST_RING.STATE r) = 1 →
        (space < move → s.runs (.hostDb r idx [] err) (stopped 1)) ∧
        (move ≤ space → s.runs (.hostDb r idx [] true) (stopped 2)) ∧
        (move ≤ space → producer → s.runs (.hostDb r idx [] false) (fun t => t.fld (HOST_RING.HIDX r) = idx.toNat ∧
          t.fld (HOST_RING.STATE r) = 1 ∧ t.host = s.host ∧
          (role = 0 → exec (.hostDb r idx [[0x01010100, tag, v]] false) s = exec (.modeSet r tag [v]) t))) ∧
        (move ≤ space → ¬ producer → s.host.held = [] → s.runs (.hostDb r idx [] false) (fun t =>
          t.fld (HOST_RING.HIDX r) = idx.toNat ∧ t.fld (HOST_RING.STATE r) = 1 ∧
          (r.val ∈ t.host.armed ↔ ¬ (s.fld (HOST_RING.DIDX r) ≠ idx.toNat ∧ s.flag (HOST_RING.IEN r) = true))))) ∧
      (s.inReset o = false → s.xmode o = false → s.runs (.hostEvenWrite m v) (fun t => t.reg (HOST_EVEN.adr m) = v ∧
        t.host = s.host ∧ ∀ i : Nat, i < 32 → t.flag (HOST_XEVR.FIFO (32 * m + i)) = bitOf v i))) ∧
    (s.host.dcpl = [] → s.runs .hostDcplRead (fun t => t.host.dcplLatch = [] ∧ t.host.dcpl = [] ∧ t.regs = s.regs)) ∧
    (∀ c l, s.host.dcpl = c :: l → s.runs .hostDcplRead (fun t => t.host.dcpl = l ∧ t.host.dcplLatch = c.words.drop 1 ∧
      t.fld HOST_CMD_STAT.PENDING = s.fld HOST_CMD_STAT.PENDING - b2n c.done)) ∧
    (s.host.devq = [] → s.runs .hostDevqRead (fun t => t.host.devqLatch = [] ∧ t.host.devq = [] ∧ t.regs = s.regs)) ∧
    (∀ e l, s.host.devq = e :: l → s.runs .hostDevqRead (fun t => t.host.devq = l ∧ t.regs = s.regs ∧
      t.host.devqLatch = (e.1.words e.2).drop 1)) ∧
    s.runs .hostFlr (fun t => gone t ∧ t.host.linkUp = s.host.linkUp) ∧
    (s.host.linkUp = true → s.runs .hostLinkDown (fun t => gone t ∧ t.host.linkUp = false) ∧
      s.runs .hostLinkUp (fun t => t = s)) ∧
    (s.host.linkUp = false → s.runs .hostLinkDown (fun t => t = s) ∧
      s.runs .hostLinkUp (fun t => t.host.linkUp = true ∧ (s.hears 0x1C 1 → t.told s 0x1C 0 0 0))) ∧
    (s.bulkReady r = false → s.runs (.bulkTransfer r ws) (fun t => t = s)) ∧
    (s.bulkReady r = true →
      (bulkBad ws = true → s.runs (.bulkTransfer r ws) (fun t => t.host.bulks = s.host.bulks ∧ t.host.cmds = s.host.cmds ∧
        t.nextSeqOf r = (if s.nextSeqOf r = 2 ^ 25 - 1 then 1 else s.nextSeqOf r + 1))) ∧
      (bulkBad ws = false → s.runs (.bulkTransfer r ws) (fun t => (∃ c ∈ t.host.cmds, c.handle = hd ∧ c.opcode = 0 ∧
          c.tag = ws.getD 1 0) ∧
        t.host.bulks = s.host.bulks ++ [⟨hd, bitOf (ws.getD 0 0) 31, (ws.getD 2 0).toNat + 2 ^ 32 * (ws.getD 3 0).toNat,
          (ws.getD 4 0).toNat + 2 ^ 32 * (ws.getD 5 0).toNat, (ws.getD 6 0).toNat⟩]))) ∧
    (∀ b, s.host.bulks = [b] →
      (b.handle ≠ h.toNat → s.runs (.bulkTransferDone h data moved) (fun t => t = s)) ∧
      (b.handle = h.toNat → b.toHost = false → b.len % 4 = 0 → s.farFails mHostDma b.faddr b.len = none →
        b.faddr + b.len ≤ 0x2000000 → data.length = b.len → s.runs (.bulkTransferDone h data moved) (fun t =>
          t.host.bulks = [] ∧ t.cmdOf b.handle = none ∧
          ∀ j, j < b.len → Memory.read t.far.yard (b.faddr + j) = data.getD j 0)))

/-- The bus matrix, the yard and the SDRAM (R393, R395, R397, R398, R400-R402, R405-R409, R412, R414): a transaction waits for
the grant of its target, which serves one at a time, and for its response, and writes its strobed bytes; DEFAULT answers
ERR_DECODE; locks outside the yard and CFG end with ERR_LOCK and are broken by force; isolation stops a master until its
drain ends; banks keep or lose their bytes; cruise walks the regions; training and failures move the channels' states. -/
def Obligations.MatrixYardSdram : Prop :=
  ∀ (m : Fin 23) (id : Fin 8) (write locked bar2 ok : Bool) (addr : BitVec 40) (len : Fin 513) (data : List (Option Byte))
    (fate : TxFate) (tg : Fin 12) (cycles : Fin 513) (w : Fin 4) (b : Fin 64) (c : Fin 2) (a0 tag v : Word) (s : State),
    let room (n : Nat) : Prop := (s.reg n).toNat + 1 < 0xFFFFFFFF
    let told (code source : Nat) (x y : Word) (t : State) : Prop := s.hears code 1 → t.told s code source x y
    let counts (n : Nat) (P : State → Prop) (t : State) : Prop := room n → t.reg n = s.reg n + 1 ∧ P t
    let tx : MtxTx := ⟨m, id, write, addr.toNat, if write then data.length else len, if write then data else [], locked,
      bar2 && m.val == mHostDma, false, false⟩
    let issue := Instr.matrixTransaction m id write locked bar2 addr len data
    let g := s.txTarget tx
    let done := Instr.matrixResponse m id [] [] fate
    let r := s.fld YARD_CRPOS.REGION
    let next (t : State) : Prop := t.fld YARD_CRPOS.REGION = (r + 1) % 131072 ∧ t.far.crAbandon = 0
    let off := s.mode = 0 ∨ s.flag YARD_XCRUISE.EN = false ∨ s.isolated mCruise = true
    let e := s.ctxOf directPort 0x0901 tag [a0]
    let mask := bitsOf a0 1 0
    (s.txOk tx = false → s.runs issue (fun t => t = s)) ∧
    (s.txOk tx = true →
      (locked = true → s.lockable tx = false → s.runs issue (fun t => t.far.txs = s.far.txs ∧
        t.reg MTX_ERR0.adr = BitVec.ofNat 32 (3 * 2 ^ 29 + m * 2 ^ 24 + g * 2 ^ 20 + b2n write * 2 ^ 19 + addr.toNat / 2 ^ 32) ∧
        t.far.err1 = lo32 addr.toNat)) ∧
      (locked = false ∨ s.lockable tx = true →
        let met := s.far.txs.any (fun x => s.txTarget x == g && x.master != m.val && x.granted)
        s.runs issue (fun t => t.regs = s.regs ∧ t.far.yard = s.far.yard ∧ t.far.sdr = s.far.sdr ∧
          (s.mtxBusy g = true → t.far.txs = s.far.txs ++ [{ tx with met := met }] ∧ t.far.locks = s.far.locks) ∧
          (s.far.txs = [] → (∀ l, s.lockOf g = some l → l.master = m) → t.far.txs = [{ tx with granted := true }] ∧
            (locked = true → s.lockOf g = none → t.lockOf g = some ⟨g, m, 1⟩) ∧
            (locked = false → t.lockOf g = none)) ∧
          (∀ l, s.far.txs = [] → s.lockOf g = some l → l.master ≠ m → t.far.txs = [tx] ∧ t.lockOf g = some l)))) ∧
    (∀ x, s.far.txs = [x] → x.master = m.val → x.id = id.val →
      (s.txWaits x = true → s.runs done (fun t => t = s)) ∧
      (s.txWaits x = false → x.bar2 = false → fate.par = none →
        (s.farFails m x.far x.len = none → x.far + x.len ≤ 0x2000000 → s.runs done (fun t => t.far.txs = [] ∧
          (x.met = false → t.regs = s.regs) ∧
          (∀ n, n = YARD_CONF_CNT.adr m → x.met = true → 1 ≤ x.len → (s.reg n).toNat + fate.waited.toNat < 0xFFFFFFFF →
            (t.reg n).toNat = (s.reg n).toNat + fate.waited.toNat) ∧ t.far.sdr = s.far.sdr ∧
          ∀ a, Memory.read t.far.yard a = (if x.write = true ∧ x.far ≤ a ∧ a < x.far + x.len then
            (x.data.getD (a - x.far) none).getD (Memory.read s.far.yard a) else Memory.read s.far.yard a))) ∧
        (s.farTarget m x.far = tgtDefault → 1 ≤ x.len → x.write = false → s.runs done (fun t => t.far.txs = [] ∧
          t.far.yard = s.far.yard ∧ t.reg MTX_ERR0.adr = BitVec.ofNat 32 (2 ^ 29 + m * 2 ^ 24 + 11 * 2 ^ 20 +
            x.far / 2 ^ 32 % 256) ∧
          counts MTX_DECERR_CNT.adr (told 0xE0 m (lo32 x.far) (hi32 x.far)) t)))) ∧
    ((∀ x ∈ s.far.txs, x.master ≠ m.val ∨ x.id ≠ id.val) → s.runs done (fun t => t = s)) ∧
    (s.lockOf tg = none → s.runs (.mtxLockBroken tg) (fun t => t = s)) ∧
    (∀ l, s.lockOf tg = some l → s.runs (.mtxLockBroken tg) (fun t =>
      ((∀ x ∈ s.far.txs, x.locked = true → x.granted = true) → t.lockOf tg = none) ∧
      counts MTX_LOCKBRK_CNT.adr (told 0xE1 l.master (BitVec.ofNat 32 tg) 0) t ∧
      ∀ x, s.far.txs = [x] → x.master = l.master → x.locked = true → x.granted = true → s.txTarget x = tg → t.far.txs = [] ∧
        t.far.yard = s.far.yard ∧ t.far.sdr = s.far.sdr ∧ t.reg MTX_ERR0.adr = BitVec.ofNat 32
          (3 * 2 ^ 29 + l.master % 32 * 2 ^ 24 + tg * 2 ^ 20 + b2n x.write * 2 ^ 19 + x.far / 2 ^ 32 % 256))) ∧
    (s.glb.testEn = false →
      (s.inReset ⟨0xB000FC, 0, false⟩ = false → s.runs (.mtxXmrst v) (fun t => t.far = s.far ∧
        ∀ k : Nat, k < 23 → t.isolated k = (s.isolated k || bitOf v k))) ∧
      (s.inReset ⟨0xC000FC, 0, false⟩ = false → s.runs (.yardXpwrWrite w v) (fun t => t.fld YARD_STAT.ON = t.banksIn 0 ∧
        (∀ k : Nat, k < 64 → k / 16 ≠ w.val → t.bankPwr k = s.bankPwr k) ∧
        ∀ k : Nat, k < 16 → let n := 16 * w.val + k
          let p := bitsOf v (2 * k + 1) (2 * k)
          (p = 3 ∨ p = 1 ∧ s.bankPwr n = 2 → t.bankPwr n = s.bankPwr n) ∧
          (p < 3 → ¬ (p = 1 ∧ s.bankPwr n = 2) → t.bankPwr n = p) ∧
          (p = 0 → s.bankPwr n ≠ 0 → n ∈ t.far.waking) ∧
          ∀ a, a / 0x80000 = n → Memory.read t.far.yard a = (if p = 2 ∧ s.bankPwr n ≠ 2 then 0 else Memory.read s.far.yard a)))) ∧
    (s.isolated m = false → s.runs (.mtxMasterIsolated m cycles []) (fun t => t = s)) ∧
    (s.isolated m = true → s.runs (.mtxMasterIsolated m cycles []) (fun t => t.isolated m = false ∧
      bitOf (t.reg MTX_XMRST.adr) m = false ∧ t.far.yard = s.far.yard ∧ (∀ x ∈ t.far.txs, x.master ≠ m.val) ∧
      t.far.txs.length = (s.far.txs.filter (fun x => x.master != m.val)).length ∧
      (∀ l ∈ t.far.locks, l.master ≠ m.val) ∧ told 0xE3 m (BitVec.ofNat 32 cycles) 0 t)) ∧
    s.runs .mtxErr0Read (fun t => t.reg MTX_ERR1.adr = s.far.err1 ∧ t.reg MTX_ERR0.adr = s.reg MTX_ERR0.adr) ∧
    s.runs (.yardBankReady b) (fun t => b.val ∉ t.far.waking ∧ t.far.yard = s.far.yard ∧ t.regs = s.regs) ∧
    (off → s.runs (.cruiseStep .ok) (fun t => t = s)) ∧
    (¬ off → s.bankPwr (r / 2048) = 0 →
      s.runs (.cruiseStep .ok) (fun t => next t ∧ t.far.yard = s.far.yard) ∧
      (s.far.crAbandon < 3 → s.runs (.cruiseStep .collide) (fun t => t.fld YARD_CRPOS.REGION = r ∧
        t.far.crAbandon = s.far.crAbandon + 1 ∧ counts YARD_CRRETRY_CNT.adr (fun _ => True) t)) ∧
      (3 ≤ s.far.crAbandon → s.runs (.cruiseStep .collide) (fun t => next t ∧ counts YARD_CRSKIP_CNT.adr (fun _ => True) t)) ∧
      s.runs (.cruiseStep .unc) (fun t => next t ∧ t.far.yard = s.far.yard ∧
        counts YARD_UNC_CNT.adr (told 0xE6 mCruise (BitVec.ofNat 32 (256 * r)) 0) t) ∧
      s.runs (.cruiseStep .fail) (fun t => next t ∧ t.far.yard = s.far.yard ∧ counts YARD_CRFAIL_CNT.adr
        (told 0xE7 (r / 2048) (BitVec.ofNat 32 (r / 2048)) (BitVec.ofNat 32 (256 * r))) t)) ∧
    (s.admits directPort 0x0901 [a0] = true →
      (mask = 0 → s.runs (.sdrTrain 127 tag [a0]) (fun t => t.answers s e stBadArg 0 0 ∧ t.far = s.far)) ∧
      (∀ k : Nat, k < 2 → mask / 2 ^ k % 2 = 1 → s.sdrState k = sdrAbsent → s.runs (.sdrTrain 127 tag [a0]) (fun t =>
        t.answers s e stBadArg 0 0 ∧ t.far = s.far)) ∧
      (mask ≠ 0 → (∀ k : Nat, k < 2 → mask / 2 ^ k % 2 = 1 → s.sdrState k ≠ sdrAbsent) →
        (s.far.train.isSome = true → s.runs (.sdrTrain 127 tag [a0]) (fun t => t.answers s e stBusy 0 0 ∧ t.far = s.far)) ∧
        (s.far.train = none → s.runs (.sdrTrain 127 tag [a0]) (fun t => (t.cmdOf e.handle).isSome = true ∧
          t.far.train = some (e.handle, mask, 0, 0) ∧
          ∀ k : Nat, k < 2 → t.sdrState k = (if mask / 2 ^ k % 2 = 1 then sdrTraining else s.sdrState k))))) ∧
    (s.far.train = none → s.runs (.sdrTrainingEnd c ok) (fun t => t = s)) ∧
    (∀ h, s.far.train = some (h, 2 ^ c.val, 0, 0) → s.runs (.sdrTrainingEnd c ok) (fun t => t.far.train = none ∧
      t.cmdOf h = none ∧ t.sdrState c = (if ok then sdrReady else sdrFailed) ∧ told (if ok then 0xE8 else 0xE9) c 0 0 t)) ∧
    (∀ h k : Nat, k = 2 ^ (1 - c.val) → s.far.train = some (h, 3, k, k) → s.runs (.sdrTrainingEnd c ok) (fun t =>
      t.far.train = none ∧ t.cmdOf h = none ∧ t.sdrState c = (if ok then sdrReady else sdrFailed) ∧
      t.fld SDR_STAT.ECC = s.fld SDR_XCFG.ECC ∧ t.fld SDR_STAT.INTLV = s.fld SDR_XCFG.INTLV)) ∧
    (s.sdrState c ≠ sdrReady → s.runs (.sdrChannelFail c) (fun t => t = s)) ∧
    (s.sdrState c = sdrReady → s.mode = 2 → s.glb.safePend = none → s.runs (.sdrChannelFail c) (fun t =>
      t.sdrState c = sdrFailed ∧ t.glb.safePend = some (3, s.sidx)))

/-- The DACs (R418-R423, R425-R427): DAC_CTL drives every channel and the global clear; a channel's word comes into force at a
block boundary, FILT only outside row 5, and a gain change holds 0 V; DACCLR_N, reference faults, shorts and open loads set
their status bits, are counted and told, and what each channel drives follows R419. -/
def Obligations.Dacs : Prop :=
  ∀ (d : Fin 8) (leg : Fin 4) (ok : Bool) (v : Word) (s : State),
    let room (n : Nat) : Prop := (s.reg n).toNat + 1 < 0xFFFFFFFF
    let told (code source a0 a1 : Nat) (t : State) : Prop := s.hears code 1 →
      t.told s code source (BitVec.ofNat 32 a0) (BitVec.ofNat 32 a1)
    let xch := DAC_XCH.adr d
    let short := bitOf (s.reg DAC_STAT.adr) (16 + d)
    let isOpen := bitOf (s.reg DAC_STAT.adr) (8 + d)
    let counted (code a0 : Nat) (t : State) : Prop := room (DAC_FAULT_CNT.adr d) →
      t.reg (DAC_FAULT_CNT.adr d) = s.reg (DAC_FAULT_CNT.adr d) + 1 ∧ told code d a0 0 t
    let clear : DacOut := .code (toSigned 24 (s.fld (DAC_XCLRCODE.CODE d))) (s.flag (DAC_XCH.GAIN d)) (s.flag DAC_STAT.REFEXT)
    (s.glb.testEn = false → s.inReset ⟨0xE000FC, 0, false⟩ = false → s.xmode ⟨0xE000FC, 0, false⟩ = false →
      s.runs (.dacCtlWrite v) (fun t => t.flag DAC_XGLB.CLR = bitOf v 31 ∧ t.dac = s.dac ∧
        t.reg DAC_STAT.adr = s.reg DAC_STAT.adr ∧
        ∀ k : Nat, k < 8 → t.waiting (DAC_XCH.adr k) = some (setBits ((s.waiting (DAC_XCH.adr k)).getD (s.reg (DAC_XCH.adr k))) 31 29
          (4 * b2n (bitOf v k) + 2 * b2n (bitOf v (8 + k)) + b2n (bitOf v 16))))) ∧
    (s.atBoundary = false → s.runs (.dacEnableApply d) (fun t => t = s)) ∧
    (∀ w, s.atBoundary = true → s.due xch = some w → s.runs (.dacEnableApply d) (fun t => t.waiting xch = none ∧ t.host = s.host ∧ t.tly = s.tly ∧
      t.reg xch = (if s.dacRow d = 5 then setBits w 29 29 (bitsOf (s.reg xch) 29 29) else w) ∧
      (bitOf (s.reg xch) 30 ≠ bitOf w 30 → d.val ∈ t.dac.hold ∧ (t.dac.vdda = true → s.glb.testEn = false → short = false →
        t.dacOut d = .zero)) ∧
      (bitOf (s.reg xch) 31 = false → bitOf w 31 = true → bitOf w 27 = false →
        bitOf (t.reg DAC_STAT.adr) (16 + d) = false) ∧
      (bitOf (s.reg xch) 31 = true → t.reg DAC_STAT.adr = s.reg DAC_STAT.adr))) ∧
    (d.val ∉ s.dac.hold → s.runs (.dacGainHoldEnd d) (fun t => t = s)) ∧
    (d.val ∈ s.dac.hold → s.runs (.dacGainHoldEnd d) (fun t => d.val ∉ t.dac.hold ∧
      told 0xF4 d 1 (s.fld (DAC_XCH.GAIN d)) t)) ∧
    (s.flag DAC_STAT.CLRPIN = true →
      s.runs .dacclrAssert (fun t => t = s) ∧
      s.runs .dacclrRelease (fun t => t.flag DAC_STAT.CLRPIN = false ∧ t.dac.clrRet = true ∧
        (∀ n, s.dac.clrLow = some n → told 0xF0 0xFF 0 (s.sidx - n) t) ∧
        (3 ≤ s.dacRow d → t.dacOut d = clear))) ∧
    (s.flag DAC_STAT.CLRPIN = false →
      s.runs .dacclrRelease (fun t => t = s) ∧
      s.runs .dacclrAssert (fun t => t.flag DAC_STAT.CLRPIN = true ∧ t.dac.clrLow = some s.sidx ∧ told 0xF0 0xFF 1 0 t ∧
        (3 ≤ s.dacRow d → t.dacOut d = clear))) ∧
    (s.flag DAC_XGLB.REFEXT = true → s.flag DAC_STAT.REFFAULT = false → s.runs .dacRefFault (fun t =>
      t.flag DAC_STAT.REFFAULT = true ∧ t.flag DAC_STAT.REFEXT = false ∧ told 0xF4 0xFF 2 0 t ∧
      (s.dacRow d ≠ 1 → t.dacOut d = .zero))) ∧
    (s.flag DAC_XGLB.REFEXT = false → s.runs .dacRefFault (fun t => t = s)) ∧
    (s.flag DAC_STAT.REFFAULT = true → s.runs .dacRefRecovered (fun t => t.flag DAC_STAT.REFFAULT = false ∧
      t.flag DAC_STAT.REFEXT = s.flag DAC_XGLB.REFEXT ∧ told 0xF4 0xFF 3 0 t ∧ (s.dacRow d ≠ 1 → t.dacOut d = .zero))) ∧
    (s.flag DAC_STAT.REFFAULT = false → s.runs .dacRefRecovered (fun t => t = s)) ∧
    (leg.val ≠ 0 → s.dacRow d ≠ 1 → s.runs (.dacShort d leg) (fun t => bitOf (t.reg DAC_STAT.adr) (16 + d) = true ∧
      t.dacOut d = .hiZ ∧ counted 0xF1 leg t)) ∧
    (s.dacRow d = 1 → s.runs (.dacShort d leg) (fun t => t = s)) ∧
    (short = true → s.flag (DAC_XCH.RETRY d) = true → s.runs (.dacRetryTest d ok) (fun t =>
      (d.val ∈ t.dac.retryOk ↔ ok = true) ∧ t.regs = s.regs)) ∧
    (short = false ∨ s.flag (DAC_XCH.RETRY d) = false → s.runs (.dacRetryTest d ok) (fun t => t = s)) ∧
    (s.flag (DAC_XCH.OPENEN d) = true → isOpen = false → 3 ≤ s.dacRow d → s.runs (.dacOpen d) (fun t =>
      bitOf (t.reg DAC_STAT.adr) (8 + d) = true ∧ t.dacRow d = s.dacRow d ∧ counted 0xF2 0 t)) ∧
    (s.flag (DAC_XCH.OPENEN d) = false → s.runs (.dacOpen d) (fun t => t = s)) ∧
    (isOpen = true → s.runs (.dacOpenRecovered d) (fun t => bitOf (t.reg DAC_STAT.adr) (8 + d) = false ∧
      t.dacRow d = s.dacRow d ∧ told 0xF3 d 2 0 t)) ∧
    s.runs .dacVddaValid (fun t => t.dac.vdda = true ∧ bitOf (t.reg SUP_STAT.adr) 7 = false ∧
      t.reg DAC_STAT.adr = s.reg DAC_STAT.adr)

/-- The tally recorder (R430, R432, R434-R438, R440): the oldest queue entry joins the most recent record or opens the next one,
with its snapshots and flags, unless its bucket has no token, which counts its events; reads of the window latch a slot and
advance the cursor; TLY_CLEAR empties the store and completes with the number of records it held. -/
def Obligations.TallyRecords : Prop :=
  ∀ (err : BitVec 6) (tag : Word) (q : TlyQ) (l : List TlyQ) (s : State),
    let code := q.ev.code
    let write := Instr.tallyRecordWrite err
    let slot (k : Nat) (t : State) : Option TlyRec := Tbl.get (fun _ => none) t.tly.store (k % 4096)
    let bad (k : Nat) : Bool := s.fld (TLY_XSNAP.KIND code k) == 1 && err.getLsbD k
    let seq := s.tly.nextSeq
    let c := s.ctxOf directPort 0x0902 tag []
    (s.tly.queue = [] → s.runs write (fun t => t = s)) ∧
    (s.tly.queue = q :: l → 1 ≤ q.count → s.flag TLY_XCFG.MIREN = false →
      (∀ r, s.mergeRec q.ev = some r → r.repeatCnt + q.count ≤ 65535 → s.runs write (fun t => t.tly.queue = l ∧
        slot r.seq t = some { r with ver := (r.ver + 1) % 16, flags := r.flags / 64 * 64 + s.tly.hidden,
                                     repeatCnt := r.repeatCnt + q.count, last := q.last } ∧
        t.reg TLY_NEWEST.adr = BitVec.ofNat 32 r.seq ∧ t.tly.nextSeq = seq ∧ t.tly.hidden = 0)) ∧
      (s.mergeRec q.ev = none → s.hasToken code = true → q.count ≤ 65535 →
        (s.reg TLY_SNAPERR_CNT.adr).toNat + 6 < 0xFFFFFFFF → s.runs write (fun t => t.tly.queue = l ∧
          t.tly.nextSeq = (seq + 1) % 2 ^ 28 ∧ t.tly.hidden = 0 ∧ t.reg TLY_NEWEST.adr = BitVec.ofNat 32 seq ∧
          ∃ r, slot seq t = some r ∧ r.ver = 0 ∧ r.seq = seq ∧ r.ev = q.ev ∧ r.repeatCnt = q.count ∧ r.last = q.last ∧
            r.flags = b2n ((List.range 6).any bad) * 128 + b2n (s.tly.rlim.contains code) * 64 + s.tly.hidden ∧
            r.snaps.length = 6 ∧ ∀ k : Nat, k < 6 →
              (bad k = true → r.snaps.getD k 0 = 0xFFFFFFFF) ∧
              (s.fld (TLY_XSNAP.KIND code k) = 0 → r.snaps.getD k 1 = 0) ∧
              (s.fld (TLY_XSNAP.KIND code k) = 2 → r.snaps.getD k 0 = q.ev.arg0) ∧
              (s.fld (TLY_XSNAP.KIND code k) = 3 → r.snaps.getD k 0 = q.ev.arg1))) ∧
      (s.mergeRec q.ev = none → s.hasToken code = false → q.count ≤ 65535 →
        (s.reg (TLY_DROP_CNT.adr code)).toNat + q.count < 0xFFFFFFFF → s.runs write (fun t => t.tly.queue = l ∧
          t.tly.store = s.tly.store ∧ t.tly.nextSeq = seq ∧ code ∈ t.tly.rlim ∧
          (t.reg (TLY_DROP_CNT.adr code)).toNat = (s.reg (TLY_DROP_CNT.adr code)).toNat + q.count))) ∧
    s.runs .tlyWin0Read (fun t => t.tly.win = s.tlySlot (s.fld TLY_CURSOR.SLOT) ∧ t.regs = s.regs) ∧
    s.runs .tlyWin15Read (fun t => t.tly = s.tly ∧ t.fld TLY_CURSOR.SLOT =
      (if s.flag TLY_CURSOR.INC then (s.fld TLY_CURSOR.SLOT + 1) % 4096 else s.fld TLY_CURSOR.SLOT)) ∧
    (s.admits directPort 0x0902 [] = true → s.cmdOf c.handle = none → s.runs (.tlyClear 127 tag []) (fun t =>
      t.tly.store = [] ∧ t.tly.recent = none ∧ t.reg TLY_FLOOR.adr = BitVec.ofNat 32 seq ∧ t.cmdOf c.handle = none ∧
      ∃ x ∈ t.host.dcpl, x.done = true ∧ x.handle = c.handle ∧ x.status = stOk ∧ x.d0 = BitVec.ofNat 32 s.tlyValid))

/-- Supplies, brace, the crystal monitor and thermal protection (R444-R450, R453): a rail below its warning threshold sets its
bit, and a braced one fades the outputs; a rail that resets the device or acts on its block; the on-die reading of the core
rail; a crystal fault mutes until the next boundary after the crystal returns; readings set temperatures, the warning, the
trip into SAFE and, at 125 degrees, the reset. -/
def Obligations.Supervision : Prop :=
  ∀ (r : Fin 14) (mv : BitVec 16) (us : Word) (begun : Bool) (x : BitVec 16) (s : State),
    let told (code source a0 a1 : Nat) (t : State) : Prop := s.hears code 1 →
      t.told s code source (BitVec.ofNat 32 a0) (BitVec.ofNat 32 a1)
    let room (n : Nat) : Prop := (s.reg n).toNat + 1 < 0xFFFFFFFF
    let warn := bitOf (s.reg SUP_STAT.adr) (16 + r)
    let bit (k : Nat) (t : State) : Bool := bitOf (t.reg SUP_STAT.adr) k
    let brace (t : State) (on : Bool) : Prop := t.out.brace = s.out.brace.turn on (s.sidx + 1) (s.fld SUP_XBRACE.SPAN) curveLin
    let hot := Instr.thmReading (List.replicate 8 x) begun
    let deg := x.toInt
    let top := ofSigned 16 deg
    s.runs (.supWarn r true begun) (fun t => t.reg SUP_STAT.adr = s.reg SUP_STAT.adr ∧ t.out = s.out ∧ told 0x08 r 2 0 t) ∧
    (warn = true → s.runs (.supWarn r false begun) (fun t => t = s)) ∧
    (warn = false → s.runs (.supWarn r false begun) (fun t => bit (16 + r) t = true ∧ told 0x08 r 1 0 t ∧
      (s.braced r = true → s.out.brace.on = true → s.mode ≠ 5 → brace t false) ∧
      (s.braced r = false → t.out.brace = s.out.brace))) ∧
    (warn = false → s.runs (.supRecovered r mv us) (fun t => t = s)) ∧
    (warn = true → s.runs (.supRecovered r mv us) (fun t => bit (16 + r) t = false ∧ bit r t = false ∧
      (room (SUP_DIP_CNT.adr r) → t.reg (SUP_DIP_CNT.adr r) = s.reg (SUP_DIP_CNT.adr r) + 1 ∧
        told 0x09 r (r * 2 ^ 24 + mv.toNat) us.toNat t) ∧
      ((∀ k : Nat, k < 14 → k ≠ r.val → bitOf (s.reg SUP_STAT.adr) (16 + k) = false) → s.out.brace.on = false → s.mode ≠ 5 →
        brace t true))) ∧
    (resetRail r = true → s.runs (.supReset r mv begun) (fun t => t.mode = 0 ∧ t.eng = [] ∧ t.host.cmds = [] ∧
      t.sup.resetBy = some (r.val, mv.toNat) ∧ t.fld GLB_RSTCAUSE.CAUSE = 2 ∧ t.fld GLB_RSTCAUSE.RAIL = r ∧
      t.pending = s.pending)) ∧
    (resetRail r = false → s.runs (.supReset r mv begun) (fun t => bit r t = true ∧ (r.val ≠ 11 → told 0x0A r 0 0 t) ∧
      (r.val = 7 → t.dac.vdda = false) ∧ (r.val = 11 → t.host.linkUp = false) ∧
      (r.val = 9 ∨ r.val = 10 → t.linkUp false = false ∧ t.linkUp true = false) ∧
      (3 ≤ r.val → r.val ≤ 6 → ∀ p : Nat, p / 8 = r.val - 3 → s.tdmState p = tdmRun → t.tdmState p = tdmFault))) ∧
    (s.sup.onDie = false → s.runs .supSenseMismatch (fun t => t.sup.onDie = true ∧ told 0x08 0 3 0 t)) ∧
    s.runs .senseReadingsAgree (fun t => t.sup.onDie = false ∧ t.regs = s.regs ∧ t.out = s.out) ∧
    (∀ n, s.sup.clkAt = some n → s.runs .clkFault (fun t => t = s) ∧
      s.runs .xclkRestored (fun t => t.sup.clkRet = some ((s.sidx - n) * 1000 / s.fs) ∧ t.sup.clkAt = some n)) ∧
    (s.sup.clkAt = none → s.runs .xclkRestored (fun t => t = s) ∧
      s.runs .clkFault (fun t => t.sup.clkAt = some s.sidx ∧ told 0x10 0 1 0 t ∧
        t.out.clk = s.out.clk.turn false (s.sidx + 1) (s.fld SUP_XBRACE.SPAN) curveLin)) ∧
    (-500 ≤ deg → deg ≤ 1500 →
      (deg < 1250 → s.runs hot (fun t => t.fld THM_STAT.MAX = top ∧ t.fld THM_STAT.FAULTY = 0 ∧
        (∀ n : Nat, n < 8 → t.fld (THM_TEMP.T n) = top) ∧
        (deg < (s.fld THM_XCFG.WARN : Int) * 10 → t.flag THM_STAT.WARN = s.flag THM_STAT.WARN) ∧
        ((s.fld THM_XCFG.WARN : Int) * 10 ≤ deg → t.flag THM_STAT.WARN = true ∧
          (s.flag THM_STAT.WARN = false → room THM_WARN_CNT.adr → told 0x0B 0 1 top t)) ∧
        (deg < 1150 → t.sup.hot = 0 ∧ t.flag THM_STAT.TRIPPED = s.flag THM_STAT.TRIPPED) ∧
        (1150 ≤ deg → t.sup.hot = s.sup.hot + 1 ∧
          (1 ≤ s.sup.hot → s.flag THM_STAT.TRIPPED = false → s.mode = 2 → s.glb.safePend = none →
            t.flag THM_STAT.TRIPPED = true ∧ t.glb.safePend = some (2, s.sidx))))) ∧
      (1250 ≤ deg → s.runs hot (fun t => t.mode = 0 ∧ t.eng = [] ∧ t.fld GLB_RSTCAUSE.CAUSE = 3))) ∧
    (s.flag THM_STAT.WARN = true → toSigned 16 (s.fld THM_STAT.MAX) < (s.fld THM_XCFG.WARN : Int) * 10 - 50 →
      s.runs .thmClear (fun t => t.flag THM_STAT.WARN = false ∧ told 0x0D 0 0 0 t)) ∧
    (s.flag THM_STAT.WARN = false → s.runs .thmClear (fun t => t = s))

/-- Acceptance (R365, R366, R370, R383): the last word of a command at the direct port gives it the next handle and counts it
outstanding; a reserved opcode, bad words, a mode its row does not list, a function on its Expert page and one in a Basic
reset refuse it, in this order, in the single form and with no effect beside the host interface and the events. -/
def Obligations.Acceptance : Prop :=
  ∀ (n : Fin 16) (v : Word) (s : State),
    let port := s.onHost (fun x => { x with port := Tbl.put (fun _ => 0) x.port n v })
    let w (k : Nat) : Word := port.portWord k
    let narg := bitsOf (w 0) 11 8
    let args := (List.range narg).map (fun i => w (i + 2))
    let c := s.ctxOf directPort (bitsOf (w 0) 31 16) (w 1) args
    let headBad := bitsOf (w 0) 15 12 ≠ 0 ∨ bitsOf (w 0) 7 0 ≠ 0
    let refused (st : Nat) (t : State) : Prop := t.answers s c st 0 0 ∧ t.reg HOST_CMD_HANDLE.adr = BitVec.ofNat 32 c.handle ∧
      t.flag HOST_CMD_STAT.REFUSED = false ∧ t.fld HOST_CMD_STAT.PENDING = s.fld HOST_CMD_STAT.PENDING + 1 ∧
      s.keepsBut t [.regs, .host, .tly]
    let told (code : Nat) (o : Owner) (t : State) : Prop := s.hears code 1 →
      t.told s code (2 ^ 15 + 2 ^ o.bit) (BitVec.ofNat 32 o.lvl) (BitVec.ofNat 32 c.handle)
    (narg ≤ 14 → n = 0 ∧ narg = 0 ∨ 2 ≤ n.val ∧ n.val = narg + 1 → s.glb.testEn = false →
      (32 ≤ s.fld HOST_CMD_STAT.PENDING → s.pendingOf directPort < 2 ^ 24 → s.runs (.hostCmdSubmit n v) (fun t =>
        t.host.dcpl = s.host.dcpl ∧ t.reg HOST_CMD_HANDLE.adr = 0 ∧ t.flag HOST_CMD_STAT.REFUSED = true)) ∧
      (s.fld HOST_CMD_STAT.PENDING < 32 → s.pendingOf directPort < 2 ^ 24 → s.nextSeqOf directPort < 2 ^ 25 →
        (cmdRow c.opcode = none → s.runs (.hostCmdSubmit n v) (refused stBadOpcode)) ∧
        (∀ r, cmdRow c.opcode = some r →
          (headBad ∨ narg ∉ r.nargs ∨ argsBad r args = true → s.runs (.hostCmdSubmit n v) (refused stBadArg)) ∧
          (¬ headBad → narg ∈ r.nargs → argsBad r args = false →
            (s.mode ∉ r.modes → s.runs (.hostCmdSubmit n v) (refused stWrongMode)) ∧
            (s.mode ∈ r.modes → ∀ o, r.level = some o →
              (s.xmode o = true → s.runs (.hostCmdSubmit n v) (fun t => refused stWrongMode t ∧ told 0x03 o t)) ∧
              (s.xmode o = false → s.inReset o = true → s.runs (.hostCmdSubmit n v) (fun t => refused stBusy t ∧
                told 0x04 o t)))))))

/-- What an X-slot instruction with no Y half leaves when nothing of an earlier bundle is under way (R71, R72, R102-R109): every
register but its destinations (Gd and EST.FLAGS; Vd; an accumulator half; EST.SAT), local memory, the other engines, and of
the rest of the device everything but ENG_STAT of its own engine. -/
def Obligations.EngineFrame : Prop :=
  ∀ (e : Eng) (gd ga : Fin 16) (b : SOp) (q : Fin 4) (vd va vb : Fin 32) (an : Fin 8) (cplx conj : Bool) (cf : Cf) (m : Fin 64)
    (s t : State), let x := s.engOf e
    x.infl = [] → x.curY = [] → x.adv = [] → x.xst = 0 →
      let y := t.engOf e
      let rest : Prop := s.keepsBut t [.regs, .eng] ∧ (∀ o, o ≠ ENG_STAT.adr e → t.reg o = s.reg o) ∧
        (∀ k, k ≠ e.val → t.engOf k = s.engOf k) ∧ y.mem = x.mem ∧ y.kps = x.kps ∧ y.r.q = x.r.q ∧ y.r.p = x.r.p ∧
        y.r.m = x.r.m ∧ y.r.b = x.r.b ∧ y.r.ectl = x.r.ectl ∧ y.r.ipc = x.r.ipc ∧ y.r.iest = x.r.iest ∧ y.r.ivb = x.r.ivb ∧
        y.r.lbeg = x.r.lbeg ∧ y.r.lend = x.r.lend
      let estBut (l : List Nat) : Prop := ∀ k, k < 32 → k ∉ l → bitOf y.r.est k = bitOf x.r.est k
      (∀ c ∈ ([.addOp e false gd ga b, .subOp e false gd ga b, .andOp e false gd ga b, .orOp e false gd ga b,
          .xorOp e false gd ga b, .shl e false gd ga b, .shr e false gd ga b, .sra e false gd ga b, .min e false gd ga b,
          .max e false gd ga b, .mul e false gd ga b, .clz e false gd ga] : List Instr), exec c s = .next t →
        rest ∧ y.r.v = x.r.v ∧ y.r.a = x.r.a ∧ y.r.am = x.r.am ∧ estBut [0, 1, 2, 3] ∧
          ∀ k : Fin 16, k ≠ gd → y.gget k = x.gget k) ∧
      (exec (.cmp e false ga b) s = .next t → rest ∧ y.r.g = x.r.g ∧ y.r.v = x.r.v ∧ y.r.a = x.r.a ∧ y.r.am = x.r.am ∧
        estBut [0, 1, 2, 3]) ∧
      (∀ c ∈ ([.vadd e false q vd va vb cplx 0, .vsub e false q vd va vb cplx 0, .vabs e false q vd va cplx 0,
          .vneg e false q vd va cplx 0, .vmin e false q vd va vb cplx 0, .vmax e false q vd va vb cplx 0,
          .vand e false q vd va vb 0, .vor e false q vd va vb 0, .vxor e false q vd va vb 0, .vshl e false q vd va cplx m 0,
          .vsra e false q vd va cplx m 0, .vsel e false q vd va vb 0] : List Instr), exec c s = .next t →
        rest ∧ y.r.g = x.r.g ∧ y.r.a = x.r.a ∧ y.r.am = x.r.am ∧ estBut [23] ∧
          ∀ k, k / 16 ≠ vd.val → Tbl.get (fun _ => (0 : BitVec 64)) y.r.v k = Tbl.get (fun _ => 0) x.r.v k) ∧
      (∀ c ∈ ([.mac e false q an va vb cf 0, .msu e false q an va vb cf 0, .mpy e false q an va vb cf 0,
          .mpyn e false q an va vb cf 0, .cmac e false q an va vb cf conj 0, .cmsu e false q an va vb cf conj 0,
          .cmpy e false q an va vb cf conj 0, .cmpyn e false q an va vb cf conj 0] : List Instr), exec c s = .next t →
        rest ∧ y.r.g = x.r.g ∧ y.r.v = x.r.v ∧ y.r.a = x.r.a ∧ estBut [23] ∧
          ∀ k, k / 32 ≠ an.val → Tbl.get (fun _ => (0 : BitVec 80)) y.r.am k = Tbl.get (fun _ => 0) x.r.am k)

/-- What commands of the units leave: each changes the parts named with it and nothing else of the device; in particular none of
these reaches an engine, a route, far memory or the clock unless it is named so. -/
def Obligations.UnitFrames : Prop :=
  ∀ (d : Fin 8) (leg : Fin 4) (ok : Bool) (v : Word) (err : BitVec 6) (m : BitVec 54) (per hi : BitVec 16) (b : Fin 64)
    (r : Fin 14) (e : Eng) (s t : State),
    let keeps (l : List Instr) (p : List Part) : Prop := ∀ i ∈ l, exec i s = .next t → s.keepsBut t p
    keeps [.tallyRecordWrite err] [.regs, .host, .tly] ∧
    keeps [.tlyWin0Read] [.tly] ∧
    keeps [.tlyWin15Read, .mtxErr0Read, .scnLastLoRead] [.regs] ∧
    keeps [.refPullinEnd] [.regs, .ref] ∧
    keeps [.hostDcplRead, .hostDevqRead] [.regs, .host] ∧
    keeps [.hostLinkUp, .thmClear] [.regs, .host, .tly] ∧
    keeps [.hostFlr, .hostLinkDown] [.regs, .staged, .host, .tly, .glb, .scn] ∧
    keeps [.dacGainHoldEnd d, .dacclrAssert, .dacclrRelease, .dacRefFault, .dacRefRecovered, .dacShort d leg,
      .dacRetryTest d ok, .dacOpen d, .dacOpenRecovered d, .dacVddaValid] [.regs, .host, .tly, .dac] ∧
    keeps [.dacEnableApply d] [.regs, .staged, .dac] ∧
    keeps [.dacCtlWrite v] [.regs, .staged, .host, .tly] ∧
    keeps [.pairHbLost ok, .pairHbRestored, .pairMsgLost, .pairWatchdogLapse, .pairCopyctlRx m, .pairGrpdigRx m,
      .pairMissingDigest, .pairHealthPublish, .pairHealthRx m] [.regs, .host, .tly, .pair] ∧
    keeps [.pairDigestRx m, .pairIlkHighTimeout, .pairIlkTestPulse ok ok, .ilkStuckLowTimeout, .pairCheckingTimeout]
      [.regs, .host, .tly, .pair, .raft] ∧
    keeps [.hbInPeriod per hi] [.regs, .host, .tly, .pair, .raft, .glb] ∧
    keeps [.yardBankReady b] [.far] ∧
    keeps [.mtxXmrst v] [.regs, .host, .tly] ∧
    keeps [.cruiseStep .ok, .cruiseStep .collide, .cruiseStep .unc, .cruiseStep .fail] [.regs, .host, .tly, .far, .pair] ∧
    keeps [.senseReadingsAgree, .xclkRestored] [.sup] ∧
    keeps [.supSenseMismatch] [.regs, .host, .tly, .sup] ∧
    keeps [.clkFault] [.regs, .host, .tly, .sup, .out] ∧
    keeps [.supWarn r ok ok] [.regs, .host, .tly, .out, .fuse, .glb] ∧
    keeps [.hostEvenWrite 0 v] [.regs, .host, .tly] ∧
    keeps [.hostCmdSubmit 1 v] [.host] ∧
    keeps [.engDoorbell e v] [.eng]

/-- A step takes one command from the front of the queue and leaves the rest of it as it was; the far memories keep their
canonical form, and every command that still waits is one that can reach the block. -/
def Obligations.StepKeepsInvariants : Prop :=
  ∀ s t : State, step s = .next t → t.pending = s.pending.tail ∧ (s.queueWf → t.queueWf) ∧ (s.farWf → t.farWf)

/-- Right after reset nothing waits, the far memories are in canonical form, every engine is STOPPED, no route, scene, kerf or
completion exists, and registers read the reset values the spec gives; with no command waiting, a step changes nothing (the
model's choice: log entry 5). -/
def Obligations.ResetAndIdle : Prop :=
  let s := State.reset
  (s.pending = [] ∧ s.farWf ∧ s.queueWf ∧ s.mode = 0 ∧ s.sidx = 0 ∧ (∀ e : Eng, s.engState e = engStopped) ∧
    s.scn.commit = none ∧ s.scn.sched = [] ∧ s.lnd.kerfs = [] ∧ s.host.dcpl = [] ∧ s.host.devq = [] ∧
    s.reg DAC_XGLB.adr = 4 ∧ (∀ d : Fin 8, s.reg (DAC_XCH.adr d) = 0x08000000) ∧ s.reg HOST_CMD_STAT.adr = 0 ∧
    s.reg HOST_CMD_HANDLE.adr = 0 ∧ s.reg GLB_RATE.adr = regReset GLB_RATE.adr ∧
    (∀ r : Fin 128, s.reg (HOST_RING.adr r + 8) = 0)) ∧
  ∀ u : State, u.pending = [] → step u = .next u
end

