-- ==== Sys2Proof/Laws/State.lean ====
section
/-! SUPPORT. Which fields of the state each primitive update leaves as they were: one lemma per update and field. -/

namespace Sys2Proof.Machine

/-! State.setReg -/

@[simp] theorem State.setReg_stg (s : State) (off : Nat) (v : Word) : (s.setReg off v).stg = s.stg := rfl
@[simp] theorem State.setReg_stgB (s : State) (off : Nat) (v : Word) : (s.setReg off v).stgB = s.stgB := rfl
@[simp] theorem State.setReg_stgAt (s : State) (off : Nat) (v : Word) : (s.setReg off v).stgAt = s.stgAt := rfl
@[simp] theorem State.setReg_sidx (s : State) (off : Nat) (v : Word) : (s.setReg off v).sidx = s.sidx := rfl
@[simp] theorem State.setReg_time (s : State) (off : Nat) (v : Word) : (s.setReg off v).time = s.time := rfl
@[simp] theorem State.setReg_glb (s : State) (off : Nat) (v : Word) : (s.setReg off v).glb = s.glb := rfl
@[simp] theorem State.setReg_host (s : State) (off : Nat) (v : Word) : (s.setReg off v).host = s.host := rfl
@[simp] theorem State.setReg_tly (s : State) (off : Nat) (v : Word) : (s.setReg off v).tly = s.tly := rfl
@[simp] theorem State.setReg_eng (s : State) (off : Nat) (v : Word) : (s.setReg off v).eng = s.eng := rfl
@[simp] theorem State.setReg_scn (s : State) (off : Nat) (v : Word) : (s.setReg off v).scn = s.scn := rfl
@[simp] theorem State.setReg_lnd (s : State) (off : Nat) (v : Word) : (s.setReg off v).lnd = s.lnd := rfl
@[simp] theorem State.setReg_far (s : State) (off : Nat) (v : Word) : (s.setReg off v).far = s.far := rfl
@[simp] theorem State.setReg_out (s : State) (off : Nat) (v : Word) : (s.setReg off v).out = s.out := rfl
@[simp] theorem State.setReg_str (s : State) (off : Nat) (v : Word) : (s.setReg off v).str = s.str := rfl
@[simp] theorem State.setReg_net (s : State) (off : Nat) (v : Word) : (s.setReg off v).net = s.net := rfl
@[simp] theorem State.setReg_raft (s : State) (off : Nat) (v : Word) : (s.setReg off v).raft = s.raft := rfl
@[simp] theorem State.setReg_ref (s : State) (off : Nat) (v : Word) : (s.setReg off v).ref = s.ref := rfl
@[simp] theorem State.setReg_tim (s : State) (off : Nat) (v : Word) : (s.setReg off v).tim = s.tim := rfl
@[simp] theorem State.setReg_pair (s : State) (off : Nat) (v : Word) : (s.setReg off v).pair = s.pair := rfl
@[simp] theorem State.setReg_dac (s : State) (off : Nat) (v : Word) : (s.setReg off v).dac = s.dac := rfl
@[simp] theorem State.setReg_sup (s : State) (off : Nat) (v : Word) : (s.setReg off v).sup = s.sup := rfl
@[simp] theorem State.setReg_fuse (s : State) (off : Nat) (v : Word) : (s.setReg off v).fuse = s.fuse := rfl
@[simp] theorem State.setReg_boot (s : State) (off : Nat) (v : Word) : (s.setReg off v).boot = s.boot := rfl
@[simp] theorem State.setReg_freeCtr (s : State) (off : Nat) (v : Word) : (s.setReg off v).freeCtr = s.freeCtr := rfl
@[simp] theorem State.setReg_pending (s : State) (off : Nat) (v : Word) : (s.setReg off v).pending = s.pending := rfl

/-! State.setFld -/

@[simp] theorem State.setFld_stg (s : State) (f : Fld) (v : Nat) : (s.setFld f v).stg = s.stg := rfl
@[simp] theorem State.setFld_stgB (s : State) (f : Fld) (v : Nat) : (s.setFld f v).stgB = s.stgB := rfl
@[simp] theorem State.setFld_stgAt (s : State) (f : Fld) (v : Nat) : (s.setFld f v).stgAt = s.stgAt := rfl
@[simp] theorem State.setFld_sidx (s : State) (f : Fld) (v : Nat) : (s.setFld f v).sidx = s.sidx := rfl
@[simp] theorem State.setFld_time (s : State) (f : Fld) (v : Nat) : (s.setFld f v).time = s.time := rfl
@[simp] theorem State.setFld_glb (s : State) (f : Fld) (v : Nat) : (s.setFld f v).glb = s.glb := rfl
@[simp] theorem State.setFld_host (s : State) (f : Fld) (v : Nat) : (s.setFld f v).host = s.host := rfl
@[simp] theorem State.setFld_tly (s : State) (f : Fld) (v : Nat) : (s.setFld f v).tly = s.tly := rfl
@[simp] theorem State.setFld_eng (s : State) (f : Fld) (v : Nat) : (s.setFld f v).eng = s.eng := rfl
@[simp] theorem State.setFld_scn (s : State) (f : Fld) (v : Nat) : (s.setFld f v).scn = s.scn := rfl
@[simp] theorem State.setFld_lnd (s : State) (f : Fld) (v : Nat) : (s.setFld f v).lnd = s.lnd := rfl
@[simp] theorem State.setFld_far (s : State) (f : Fld) (v : Nat) : (s.setFld f v).far = s.far := rfl
@[simp] theorem State.setFld_out (s : State) (f : Fld) (v : Nat) : (s.setFld f v).out = s.out := rfl
@[simp] theorem State.setFld_str (s : State) (f : Fld) (v : Nat) : (s.setFld f v).str = s.str := rfl
@[simp] theorem State.setFld_net (s : State) (f : Fld) (v : Nat) : (s.setFld f v).net = s.net := rfl
@[simp] theorem State.setFld_raft (s : State) (f : Fld) (v : Nat) : (s.setFld f v).raft = s.raft := rfl
@[simp] theorem State.setFld_ref (s : State) (f : Fld) (v : Nat) : (s.setFld f v).ref = s.ref := rfl
@[simp] theorem State.setFld_tim (s : State) (f : Fld) (v : Nat) : (s.setFld f v).tim = s.tim := rfl
@[simp] theorem State.setFld_pair (s : State) (f : Fld) (v : Nat) : (s.setFld f v).pair = s.pair := rfl
@[simp] theorem State.setFld_dac (s : State) (f : Fld) (v : Nat) : (s.setFld f v).dac = s.dac := rfl
@[simp] theorem State.setFld_sup (s : State) (f : Fld) (v : Nat) : (s.setFld f v).sup = s.sup := rfl
@[simp] theorem State.setFld_fuse (s : State) (f : Fld) (v : Nat) : (s.setFld f v).fuse = s.fuse := rfl
@[simp] theorem State.setFld_boot (s : State) (f : Fld) (v : Nat) : (s.setFld f v).boot = s.boot := rfl
@[simp] theorem State.setFld_freeCtr (s : State) (f : Fld) (v : Nat) : (s.setFld f v).freeCtr = s.freeCtr := rfl
@[simp] theorem State.setFld_pending (s : State) (f : Fld) (v : Nat) : (s.setFld f v).pending = s.pending := rfl

/-! State.stage -/

@[simp] theorem State.stage_regs (s : State) (off : Nat) (v : Word) : (s.stage off v).regs = s.regs := rfl
@[simp] theorem State.stage_sidx (s : State) (off : Nat) (v : Word) : (s.stage off v).sidx = s.sidx := rfl
@[simp] theorem State.stage_time (s : State) (off : Nat) (v : Word) : (s.stage off v).time = s.time := rfl
@[simp] theorem State.stage_glb (s : State) (off : Nat) (v : Word) : (s.stage off v).glb = s.glb := rfl
@[simp] theorem State.stage_host (s : State) (off : Nat) (v : Word) : (s.stage off v).host = s.host := rfl
@[simp] theorem State.stage_tly (s : State) (off : Nat) (v : Word) : (s.stage off v).tly = s.tly := rfl
@[simp] theorem State.stage_eng (s : State) (off : Nat) (v : Word) : (s.stage off v).eng = s.eng := rfl
@[simp] theorem State.stage_scn (s : State) (off : Nat) (v : Word) : (s.stage off v).scn = s.scn := rfl
@[simp] theorem State.stage_lnd (s : State) (off : Nat) (v : Word) : (s.stage off v).lnd = s.lnd := rfl
@[simp] theorem State.stage_far (s : State) (off : Nat) (v : Word) : (s.stage off v).far = s.far := rfl
@[simp] theorem State.stage_out (s : State) (off : Nat) (v : Word) : (s.stage off v).out = s.out := rfl
@[simp] theorem State.stage_str (s : State) (off : Nat) (v : Word) : (s.stage off v).str = s.str := rfl
@[simp] theorem State.stage_net (s : State) (off : Nat) (v : Word) : (s.stage off v).net = s.net := rfl
@[simp] theorem State.stage_raft (s : State) (off : Nat) (v : Word) : (s.stage off v).raft = s.raft := rfl
@[simp] theorem State.stage_ref (s : State) (off : Nat) (v : Word) : (s.stage off v).ref = s.ref := rfl
@[simp] theorem State.stage_tim (s : State) (off : Nat) (v : Word) : (s.stage off v).tim = s.tim := rfl
@[simp] theorem State.stage_pair (s : State) (off : Nat) (v : Word) : (s.stage off v).pair = s.pair := rfl
@[simp] theorem State.stage_dac (s : State) (off : Nat) (v : Word) : (s.stage off v).dac = s.dac := rfl
@[simp] theorem State.stage_sup (s : State) (off : Nat) (v : Word) : (s.stage off v).sup = s.sup := rfl
@[simp] theorem State.stage_fuse (s : State) (off : Nat) (v : Word) : (s.stage off v).fuse = s.fuse := rfl
@[simp] theorem State.stage_boot (s : State) (off : Nat) (v : Word) : (s.stage off v).boot = s.boot := rfl
@[simp] theorem State.stage_freeCtr (s : State) (off : Nat) (v : Word) : (s.stage off v).freeCtr = s.freeCtr := rfl
@[simp] theorem State.stage_pending (s : State) (off : Nat) (v : Word) : (s.stage off v).pending = s.pending := rfl

/-! State.stageBasic -/

@[simp] theorem State.stageBasic_regs (s : State) (off : Nat) (v : Word) : (s.stageBasic off v).regs = s.regs := rfl
@[simp] theorem State.stageBasic_sidx (s : State) (off : Nat) (v : Word) : (s.stageBasic off v).sidx = s.sidx := rfl
@[simp] theorem State.stageBasic_time (s : State) (off : Nat) (v : Word) : (s.stageBasic off v).time = s.time := rfl
@[simp] theorem State.stageBasic_glb (s : State) (off : Nat) (v : Word) : (s.stageBasic off v).glb = s.glb := rfl
@[simp] theorem State.stageBasic_host (s : State) (off : Nat) (v : Word) : (s.stageBasic off v).host = s.host := rfl
@[simp] theorem State.stageBasic_tly (s : State) (off : Nat) (v : Word) : (s.stageBasic off v).tly = s.tly := rfl
@[simp] theorem State.stageBasic_eng (s : State) (off : Nat) (v : Word) : (s.stageBasic off v).eng = s.eng := rfl
@[simp] theorem State.stageBasic_scn (s : State) (off : Nat) (v : Word) : (s.stageBasic off v).scn = s.scn := rfl
@[simp] theorem State.stageBasic_lnd (s : State) (off : Nat) (v : Word) : (s.stageBasic off v).lnd = s.lnd := rfl
@[simp] theorem State.stageBasic_far (s : State) (off : Nat) (v : Word) : (s.stageBasic off v).far = s.far := rfl
@[simp] theorem State.stageBasic_out (s : State) (off : Nat) (v : Word) : (s.stageBasic off v).out = s.out := rfl
@[simp] theorem State.stageBasic_str (s : State) (off : Nat) (v : Word) : (s.stageBasic off v).str = s.str := rfl
@[simp] theorem State.stageBasic_net (s : State) (off : Nat) (v : Word) : (s.stageBasic off v).net = s.net := rfl
@[simp] theorem State.stageBasic_raft (s : State) (off : Nat) (v : Word) : (s.stageBasic off v).raft = s.raft := rfl
@[simp] theorem State.stageBasic_ref (s : State) (off : Nat) (v : Word) : (s.stageBasic off v).ref = s.ref := rfl
@[simp] theorem State.stageBasic_tim (s : State) (off : Nat) (v : Word) : (s.stageBasic off v).tim = s.tim := rfl
@[simp] theorem State.stageBasic_pair (s : State) (off : Nat) (v : Word) : (s.stageBasic off v).pair = s.pair := rfl
@[simp] theorem State.stageBasic_dac (s : State) (off : Nat) (v : Word) : (s.stageBasic off v).dac = s.dac := rfl
@[simp] theorem State.stageBasic_sup (s : State) (off : Nat) (v : Word) : (s.stageBasic off v).sup = s.sup := rfl
@[simp] theorem State.stageBasic_fuse (s : State) (off : Nat) (v : Word) : (s.stageBasic off v).fuse = s.fuse := rfl
@[simp] theorem State.stageBasic_boot (s : State) (off : Nat) (v : Word) : (s.stageBasic off v).boot = s.boot := rfl
@[simp] theorem State.stageBasic_freeCtr (s : State) (off : Nat) (v : Word) : (s.stageBasic off v).freeCtr = s.freeCtr := rfl
@[simp] theorem State.stageBasic_pending (s : State) (off : Nat) (v : Word) : (s.stageBasic off v).pending = s.pending := rfl

/-! State.unstage -/

@[simp] theorem State.unstage_regs (s : State) (off : Nat) : (s.unstage off).regs = s.regs := rfl
@[simp] theorem State.unstage_sidx (s : State) (off : Nat) : (s.unstage off).sidx = s.sidx := rfl
@[simp] theorem State.unstage_time (s : State) (off : Nat) : (s.unstage off).time = s.time := rfl
@[simp] theorem State.unstage_glb (s : State) (off : Nat) : (s.unstage off).glb = s.glb := rfl
@[simp] theorem State.unstage_host (s : State) (off : Nat) : (s.unstage off).host = s.host := rfl
@[simp] theorem State.unstage_tly (s : State) (off : Nat) : (s.unstage off).tly = s.tly := rfl
@[simp] theorem State.unstage_eng (s : State) (off : Nat) : (s.unstage off).eng = s.eng := rfl
@[simp] theorem State.unstage_scn (s : State) (off : Nat) : (s.unstage off).scn = s.scn := rfl
@[simp] theorem State.unstage_lnd (s : State) (off : Nat) : (s.unstage off).lnd = s.lnd := rfl
@[simp] theorem State.unstage_far (s : State) (off : Nat) : (s.unstage off).far = s.far := rfl
@[simp] theorem State.unstage_out (s : State) (off : Nat) : (s.unstage off).out = s.out := rfl
@[simp] theorem State.unstage_str (s : State) (off : Nat) : (s.unstage off).str = s.str := rfl
@[simp] theorem State.unstage_net (s : State) (off : Nat) : (s.unstage off).net = s.net := rfl
@[simp] theorem State.unstage_raft (s : State) (off : Nat) : (s.unstage off).raft = s.raft := rfl
@[simp] theorem State.unstage_ref (s : State) (off : Nat) : (s.unstage off).ref = s.ref := rfl
@[simp] theorem State.unstage_tim (s : State) (off : Nat) : (s.unstage off).tim = s.tim := rfl
@[simp] theorem State.unstage_pair (s : State) (off : Nat) : (s.unstage off).pair = s.pair := rfl
@[simp] theorem State.unstage_dac (s : State) (off : Nat) : (s.unstage off).dac = s.dac := rfl
@[simp] theorem State.unstage_sup (s : State) (off : Nat) : (s.unstage off).sup = s.sup := rfl
@[simp] theorem State.unstage_fuse (s : State) (off : Nat) : (s.unstage off).fuse = s.fuse := rfl
@[simp] theorem State.unstage_boot (s : State) (off : Nat) : (s.unstage off).boot = s.boot := rfl
@[simp] theorem State.unstage_freeCtr (s : State) (off : Nat) : (s.unstage off).freeCtr = s.freeCtr := rfl
@[simp] theorem State.unstage_pending (s : State) (off : Nat) : (s.unstage off).pending = s.pending := rfl

/-! State.noteErr -/

@[simp] theorem State.noteErr_regs (s : State) (item : Nat) (kind : Nat) : (s.noteErr item kind).regs = s.regs := rfl
@[simp] theorem State.noteErr_stg (s : State) (item : Nat) (kind : Nat) : (s.noteErr item kind).stg = s.stg := rfl
@[simp] theorem State.noteErr_stgB (s : State) (item : Nat) (kind : Nat) : (s.noteErr item kind).stgB = s.stgB := rfl
@[simp] theorem State.noteErr_stgAt (s : State) (item : Nat) (kind : Nat) : (s.noteErr item kind).stgAt = s.stgAt := rfl
@[simp] theorem State.noteErr_sidx (s : State) (item : Nat) (kind : Nat) : (s.noteErr item kind).sidx = s.sidx := rfl
@[simp] theorem State.noteErr_time (s : State) (item : Nat) (kind : Nat) : (s.noteErr item kind).time = s.time := rfl
@[simp] theorem State.noteErr_glb (s : State) (item : Nat) (kind : Nat) : (s.noteErr item kind).glb = s.glb := rfl
@[simp] theorem State.noteErr_host (s : State) (item : Nat) (kind : Nat) : (s.noteErr item kind).host = s.host := rfl
@[simp] theorem State.noteErr_tly (s : State) (item : Nat) (kind : Nat) : (s.noteErr item kind).tly = s.tly := rfl
@[simp] theorem State.noteErr_eng (s : State) (item : Nat) (kind : Nat) : (s.noteErr item kind).eng = s.eng := rfl
@[simp] theorem State.noteErr_scn (s : State) (item : Nat) (kind : Nat) : (s.noteErr item kind).scn = s.scn := rfl
@[simp] theorem State.noteErr_lnd (s : State) (item : Nat) (kind : Nat) : (s.noteErr item kind).lnd = s.lnd := rfl
@[simp] theorem State.noteErr_far (s : State) (item : Nat) (kind : Nat) : (s.noteErr item kind).far = s.far := rfl
@[simp] theorem State.noteErr_out (s : State) (item : Nat) (kind : Nat) : (s.noteErr item kind).out = s.out := rfl
@[simp] theorem State.noteErr_str (s : State) (item : Nat) (kind : Nat) : (s.noteErr item kind).str = s.str := rfl
@[simp] theorem State.noteErr_net (s : State) (item : Nat) (kind : Nat) : (s.noteErr item kind).net = s.net := rfl
@[simp] theorem State.noteErr_raft (s : State) (item : Nat) (kind : Nat) : (s.noteErr item kind).raft = s.raft := rfl
@[simp] theorem State.noteErr_ref (s : State) (item : Nat) (kind : Nat) : (s.noteErr item kind).ref = s.ref := rfl
@[simp] theorem State.noteErr_tim (s : State) (item : Nat) (kind : Nat) : (s.noteErr item kind).tim = s.tim := rfl
@[simp] theorem State.noteErr_dac (s : State) (item : Nat) (kind : Nat) : (s.noteErr item kind).dac = s.dac := rfl
@[simp] theorem State.noteErr_sup (s : State) (item : Nat) (kind : Nat) : (s.noteErr item kind).sup = s.sup := rfl
@[simp] theorem State.noteErr_fuse (s : State) (item : Nat) (kind : Nat) : (s.noteErr item kind).fuse = s.fuse := rfl
@[simp] theorem State.noteErr_boot (s : State) (item : Nat) (kind : Nat) : (s.noteErr item kind).boot = s.boot := rfl
@[simp] theorem State.noteErr_freeCtr (s : State) (item : Nat) (kind : Nat) : (s.noteErr item kind).freeCtr = s.freeCtr := rfl
@[simp] theorem State.noteErr_pending (s : State) (item : Nat) (kind : Nat) : (s.noteErr item kind).pending = s.pending := rfl

/-! State.updCmd -/

@[simp] theorem State.updCmd_regs (s : State) (h : Nat) (f : Cmd → Cmd) : (s.updCmd h f).regs = s.regs := rfl
@[simp] theorem State.updCmd_stg (s : State) (h : Nat) (f : Cmd → Cmd) : (s.updCmd h f).stg = s.stg := rfl
@[simp] theorem State.updCmd_stgB (s : State) (h : Nat) (f : Cmd → Cmd) : (s.updCmd h f).stgB = s.stgB := rfl
@[simp] theorem State.updCmd_stgAt (s : State) (h : Nat) (f : Cmd → Cmd) : (s.updCmd h f).stgAt = s.stgAt := rfl
@[simp] theorem State.updCmd_sidx (s : State) (h : Nat) (f : Cmd → Cmd) : (s.updCmd h f).sidx = s.sidx := rfl
@[simp] theorem State.updCmd_time (s : State) (h : Nat) (f : Cmd → Cmd) : (s.updCmd h f).time = s.time := rfl
@[simp] theorem State.updCmd_glb (s : State) (h : Nat) (f : Cmd → Cmd) : (s.updCmd h f).glb = s.glb := rfl
@[simp] theorem State.updCmd_tly (s : State) (h : Nat) (f : Cmd → Cmd) : (s.updCmd h f).tly = s.tly := rfl
@[simp] theorem State.updCmd_eng (s : State) (h : Nat) (f : Cmd → Cmd) : (s.updCmd h f).eng = s.eng := rfl
@[simp] theorem State.updCmd_scn (s : State) (h : Nat) (f : Cmd → Cmd) : (s.updCmd h f).scn = s.scn := rfl
@[simp] theorem State.updCmd_lnd (s : State) (h : Nat) (f : Cmd → Cmd) : (s.updCmd h f).lnd = s.lnd := rfl
@[simp] theorem State.updCmd_far (s : State) (h : Nat) (f : Cmd → Cmd) : (s.updCmd h f).far = s.far := rfl
@[simp] theorem State.updCmd_out (s : State) (h : Nat) (f : Cmd → Cmd) : (s.updCmd h f).out = s.out := rfl
@[simp] theorem State.updCmd_str (s : State) (h : Nat) (f : Cmd → Cmd) : (s.updCmd h f).str = s.str := rfl
@[simp] theorem State.updCmd_net (s : State) (h : Nat) (f : Cmd → Cmd) : (s.updCmd h f).net = s.net := rfl
@[simp] theorem State.updCmd_raft (s : State) (h : Nat) (f : Cmd → Cmd) : (s.updCmd h f).raft = s.raft := rfl
@[simp] theorem State.updCmd_ref (s : State) (h : Nat) (f : Cmd → Cmd) : (s.updCmd h f).ref = s.ref := rfl
@[simp] theorem State.updCmd_tim (s : State) (h : Nat) (f : Cmd → Cmd) : (s.updCmd h f).tim = s.tim := rfl
@[simp] theorem State.updCmd_pair (s : State) (h : Nat) (f : Cmd → Cmd) : (s.updCmd h f).pair = s.pair := rfl
@[simp] theorem State.updCmd_dac (s : State) (h : Nat) (f : Cmd → Cmd) : (s.updCmd h f).dac = s.dac := rfl
@[simp] theorem State.updCmd_sup (s : State) (h : Nat) (f : Cmd → Cmd) : (s.updCmd h f).sup = s.sup := rfl
@[simp] theorem State.updCmd_fuse (s : State) (h : Nat) (f : Cmd → Cmd) : (s.updCmd h f).fuse = s.fuse := rfl
@[simp] theorem State.updCmd_boot (s : State) (h : Nat) (f : Cmd → Cmd) : (s.updCmd h f).boot = s.boot := rfl
@[simp] theorem State.updCmd_freeCtr (s : State) (h : Nat) (f : Cmd → Cmd) : (s.updCmd h f).freeCtr = s.freeCtr := rfl
@[simp] theorem State.updCmd_pending (s : State) (h : Nat) (f : Cmd → Cmd) : (s.updCmd h f).pending = s.pending := rfl

/-! State.setEng -/

@[simp] theorem State.setEng_regs (s : State) (e : Nat) (x : Engine) : (s.setEng e x).regs = s.regs := rfl
@[simp] theorem State.setEng_stg (s : State) (e : Nat) (x : Engine) : (s.setEng e x).stg = s.stg := rfl
@[simp] theorem State.setEng_stgB (s : State) (e : Nat) (x : Engine) : (s.setEng e x).stgB = s.stgB := rfl
@[simp] theorem State.setEng_stgAt (s : State) (e : Nat) (x : Engine) : (s.setEng e x).stgAt = s.stgAt := rfl
@[simp] theorem State.setEng_sidx (s : State) (e : Nat) (x : Engine) : (s.setEng e x).sidx = s.sidx := rfl
@[simp] theorem State.setEng_time (s : State) (e : Nat) (x : Engine) : (s.setEng e x).time = s.time := rfl
@[simp] theorem State.setEng_glb (s : State) (e : Nat) (x : Engine) : (s.setEng e x).glb = s.glb := rfl
@[simp] theorem State.setEng_host (s : State) (e : Nat) (x : Engine) : (s.setEng e x).host = s.host := rfl
@[simp] theorem State.setEng_tly (s : State) (e : Nat) (x : Engine) : (s.setEng e x).tly = s.tly := rfl
@[simp] theorem State.setEng_scn (s : State) (e : Nat) (x : Engine) : (s.setEng e x).scn = s.scn := rfl
@[simp] theorem State.setEng_lnd (s : State) (e : Nat) (x : Engine) : (s.setEng e x).lnd = s.lnd := rfl
@[simp] theorem State.setEng_far (s : State) (e : Nat) (x : Engine) : (s.setEng e x).far = s.far := rfl
@[simp] theorem State.setEng_out (s : State) (e : Nat) (x : Engine) : (s.setEng e x).out = s.out := rfl
@[simp] theorem State.setEng_str (s : State) (e : Nat) (x : Engine) : (s.setEng e x).str = s.str := rfl
@[simp] theorem State.setEng_net (s : State) (e : Nat) (x : Engine) : (s.setEng e x).net = s.net := rfl
@[simp] theorem State.setEng_raft (s : State) (e : Nat) (x : Engine) : (s.setEng e x).raft = s.raft := rfl
@[simp] theorem State.setEng_ref (s : State) (e : Nat) (x : Engine) : (s.setEng e x).ref = s.ref := rfl
@[simp] theorem State.setEng_tim (s : State) (e : Nat) (x : Engine) : (s.setEng e x).tim = s.tim := rfl
@[simp] theorem State.setEng_pair (s : State) (e : Nat) (x : Engine) : (s.setEng e x).pair = s.pair := rfl
@[simp] theorem State.setEng_dac (s : State) (e : Nat) (x : Engine) : (s.setEng e x).dac = s.dac := rfl
@[simp] theorem State.setEng_sup (s : State) (e : Nat) (x : Engine) : (s.setEng e x).sup = s.sup := rfl
@[simp] theorem State.setEng_fuse (s : State) (e : Nat) (x : Engine) : (s.setEng e x).fuse = s.fuse := rfl
@[simp] theorem State.setEng_boot (s : State) (e : Nat) (x : Engine) : (s.setEng e x).boot = s.boot := rfl
@[simp] theorem State.setEng_freeCtr (s : State) (e : Nat) (x : Engine) : (s.setEng e x).freeCtr = s.freeCtr := rfl
@[simp] theorem State.setEng_pending (s : State) (e : Nat) (x : Engine) : (s.setEng e x).pending = s.pending := rfl

/-! State.setGen -/

@[simp] theorem State.setGen_regs (s : State) (n : Nat) (g : GenSt) : (s.setGen n g).regs = s.regs := rfl
@[simp] theorem State.setGen_stg (s : State) (n : Nat) (g : GenSt) : (s.setGen n g).stg = s.stg := rfl
@[simp] theorem State.setGen_stgB (s : State) (n : Nat) (g : GenSt) : (s.setGen n g).stgB = s.stgB := rfl
@[simp] theorem State.setGen_stgAt (s : State) (n : Nat) (g : GenSt) : (s.setGen n g).stgAt = s.stgAt := rfl
@[simp] theorem State.setGen_sidx (s : State) (n : Nat) (g : GenSt) : (s.setGen n g).sidx = s.sidx := rfl
@[simp] theorem State.setGen_time (s : State) (n : Nat) (g : GenSt) : (s.setGen n g).time = s.time := rfl
@[simp] theorem State.setGen_glb (s : State) (n : Nat) (g : GenSt) : (s.setGen n g).glb = s.glb := rfl
@[simp] theorem State.setGen_host (s : State) (n : Nat) (g : GenSt) : (s.setGen n g).host = s.host := rfl
@[simp] theorem State.setGen_tly (s : State) (n : Nat) (g : GenSt) : (s.setGen n g).tly = s.tly := rfl
@[simp] theorem State.setGen_eng (s : State) (n : Nat) (g : GenSt) : (s.setGen n g).eng = s.eng := rfl
@[simp] theorem State.setGen_scn (s : State) (n : Nat) (g : GenSt) : (s.setGen n g).scn = s.scn := rfl
@[simp] theorem State.setGen_far (s : State) (n : Nat) (g : GenSt) : (s.setGen n g).far = s.far := rfl
@[simp] theorem State.setGen_out (s : State) (n : Nat) (g : GenSt) : (s.setGen n g).out = s.out := rfl
@[simp] theorem State.setGen_str (s : State) (n : Nat) (g : GenSt) : (s.setGen n g).str = s.str := rfl
@[simp] theorem State.setGen_net (s : State) (n : Nat) (g : GenSt) : (s.setGen n g).net = s.net := rfl
@[simp] theorem State.setGen_raft (s : State) (n : Nat) (g : GenSt) : (s.setGen n g).raft = s.raft := rfl
@[simp] theorem State.setGen_ref (s : State) (n : Nat) (g : GenSt) : (s.setGen n g).ref = s.ref := rfl
@[simp] theorem State.setGen_tim (s : State) (n : Nat) (g : GenSt) : (s.setGen n g).tim = s.tim := rfl
@[simp] theorem State.setGen_pair (s : State) (n : Nat) (g : GenSt) : (s.setGen n g).pair = s.pair := rfl
@[simp] theorem State.setGen_dac (s : State) (n : Nat) (g : GenSt) : (s.setGen n g).dac = s.dac := rfl
@[simp] theorem State.setGen_sup (s : State) (n : Nat) (g : GenSt) : (s.setGen n g).sup = s.sup := rfl
@[simp] theorem State.setGen_fuse (s : State) (n : Nat) (g : GenSt) : (s.setGen n g).fuse = s.fuse := rfl
@[simp] theorem State.setGen_boot (s : State) (n : Nat) (g : GenSt) : (s.setGen n g).boot = s.boot := rfl
@[simp] theorem State.setGen_freeCtr (s : State) (n : Nat) (g : GenSt) : (s.setGen n g).freeCtr = s.freeCtr := rfl
@[simp] theorem State.setGen_pending (s : State) (n : Nat) (g : GenSt) : (s.setGen n g).pending = s.pending := rfl

/-! State.setInForce -/

@[simp] theorem State.setInForce_regs (s : State) (i : Nat) (src : Nat) : (s.setInForce i src).regs = s.regs := rfl
@[simp] theorem State.setInForce_stg (s : State) (i : Nat) (src : Nat) : (s.setInForce i src).stg = s.stg := rfl
@[simp] theorem State.setInForce_stgB (s : State) (i : Nat) (src : Nat) : (s.setInForce i src).stgB = s.stgB := rfl
@[simp] theorem State.setInForce_stgAt (s : State) (i : Nat) (src : Nat) : (s.setInForce i src).stgAt = s.stgAt := rfl
@[simp] theorem State.setInForce_sidx (s : State) (i : Nat) (src : Nat) : (s.setInForce i src).sidx = s.sidx := rfl
@[simp] theorem State.setInForce_time (s : State) (i : Nat) (src : Nat) : (s.setInForce i src).time = s.time := rfl
@[simp] theorem State.setInForce_glb (s : State) (i : Nat) (src : Nat) : (s.setInForce i src).glb = s.glb := rfl
@[simp] theorem State.setInForce_host (s : State) (i : Nat) (src : Nat) : (s.setInForce i src).host = s.host := rfl
@[simp] theorem State.setInForce_tly (s : State) (i : Nat) (src : Nat) : (s.setInForce i src).tly = s.tly := rfl
@[simp] theorem State.setInForce_eng (s : State) (i : Nat) (src : Nat) : (s.setInForce i src).eng = s.eng := rfl
@[simp] theorem State.setInForce_scn (s : State) (i : Nat) (src : Nat) : (s.setInForce i src).scn = s.scn := rfl
@[simp] theorem State.setInForce_far (s : State) (i : Nat) (src : Nat) : (s.setInForce i src).far = s.far := rfl
@[simp] theorem State.setInForce_out (s : State) (i : Nat) (src : Nat) : (s.setInForce i src).out = s.out := rfl
@[simp] theorem State.setInForce_str (s : State) (i : Nat) (src : Nat) : (s.setInForce i src).str = s.str := rfl
@[simp] theorem State.setInForce_net (s : State) (i : Nat) (src : Nat) : (s.setInForce i src).net = s.net := rfl
@[simp] theorem State.setInForce_raft (s : State) (i : Nat) (src : Nat) : (s.setInForce i src).raft = s.raft := rfl
@[simp] theorem State.setInForce_ref (s : State) (i : Nat) (src : Nat) : (s.setInForce i src).ref = s.ref := rfl
@[simp] theorem State.setInForce_tim (s : State) (i : Nat) (src : Nat) : (s.setInForce i src).tim = s.tim := rfl
@[simp] theorem State.setInForce_pair (s : State) (i : Nat) (src : Nat) : (s.setInForce i src).pair = s.pair := rfl
@[simp] theorem State.setInForce_dac (s : State) (i : Nat) (src : Nat) : (s.setInForce i src).dac = s.dac := rfl
@[simp] theorem State.setInForce_sup (s : State) (i : Nat) (src : Nat) : (s.setInForce i src).sup = s.sup := rfl
@[simp] theorem State.setInForce_fuse (s : State) (i : Nat) (src : Nat) : (s.setInForce i src).fuse = s.fuse := rfl
@[simp] theorem State.setInForce_boot (s : State) (i : Nat) (src : Nat) : (s.setInForce i src).boot = s.boot := rfl
@[simp] theorem State.setInForce_freeCtr (s : State) (i : Nat) (src : Nat) : (s.setInForce i src).freeCtr = s.freeCtr := rfl
@[simp] theorem State.setInForce_pending (s : State) (i : Nat) (src : Nat) : (s.setInForce i src).pending = s.pending := rfl

/-! State.setKerf -/

@[simp] theorem State.setKerf_regs (s : State) (i : Nat) (k : RKerf) : (s.setKerf i k).regs = s.regs := rfl
@[simp] theorem State.setKerf_stg (s : State) (i : Nat) (k : RKerf) : (s.setKerf i k).stg = s.stg := rfl
@[simp] theorem State.setKerf_stgB (s : State) (i : Nat) (k : RKerf) : (s.setKerf i k).stgB = s.stgB := rfl
@[simp] theorem State.setKerf_stgAt (s : State) (i : Nat) (k : RKerf) : (s.setKerf i k).stgAt = s.stgAt := rfl
@[simp] theorem State.setKerf_sidx (s : State) (i : Nat) (k : RKerf) : (s.setKerf i k).sidx = s.sidx := rfl
@[simp] theorem State.setKerf_time (s : State) (i : Nat) (k : RKerf) : (s.setKerf i k).time = s.time := rfl
@[simp] theorem State.setKerf_glb (s : State) (i : Nat) (k : RKerf) : (s.setKerf i k).glb = s.glb := rfl
@[simp] theorem State.setKerf_host (s : State) (i : Nat) (k : RKerf) : (s.setKerf i k).host = s.host := rfl
@[simp] theorem State.setKerf_tly (s : State) (i : Nat) (k : RKerf) : (s.setKerf i k).tly = s.tly := rfl
@[simp] theorem State.setKerf_eng (s : State) (i : Nat) (k : RKerf) : (s.setKerf i k).eng = s.eng := rfl
@[simp] theorem State.setKerf_scn (s : State) (i : Nat) (k : RKerf) : (s.setKerf i k).scn = s.scn := rfl
@[simp] theorem State.setKerf_far (s : State) (i : Nat) (k : RKerf) : (s.setKerf i k).far = s.far := rfl
@[simp] theorem State.setKerf_out (s : State) (i : Nat) (k : RKerf) : (s.setKerf i k).out = s.out := rfl
@[simp] theorem State.setKerf_str (s : State) (i : Nat) (k : RKerf) : (s.setKerf i k).str = s.str := rfl
@[simp] theorem State.setKerf_net (s : State) (i : Nat) (k : RKerf) : (s.setKerf i k).net = s.net := rfl
@[simp] theorem State.setKerf_raft (s : State) (i : Nat) (k : RKerf) : (s.setKerf i k).raft = s.raft := rfl
@[simp] theorem State.setKerf_ref (s : State) (i : Nat) (k : RKerf) : (s.setKerf i k).ref = s.ref := rfl
@[simp] theorem State.setKerf_tim (s : State) (i : Nat) (k : RKerf) : (s.setKerf i k).tim = s.tim := rfl
@[simp] theorem State.setKerf_pair (s : State) (i : Nat) (k : RKerf) : (s.setKerf i k).pair = s.pair := rfl
@[simp] theorem State.setKerf_dac (s : State) (i : Nat) (k : RKerf) : (s.setKerf i k).dac = s.dac := rfl
@[simp] theorem State.setKerf_sup (s : State) (i : Nat) (k : RKerf) : (s.setKerf i k).sup = s.sup := rfl
@[simp] theorem State.setKerf_fuse (s : State) (i : Nat) (k : RKerf) : (s.setKerf i k).fuse = s.fuse := rfl
@[simp] theorem State.setKerf_boot (s : State) (i : Nat) (k : RKerf) : (s.setKerf i k).boot = s.boot := rfl
@[simp] theorem State.setKerf_freeCtr (s : State) (i : Nat) (k : RKerf) : (s.setKerf i k).freeCtr = s.freeCtr := rfl
@[simp] theorem State.setKerf_pending (s : State) (i : Nat) (k : RKerf) : (s.setKerf i k).pending = s.pending := rfl

/-! State.dropKerf -/

@[simp] theorem State.dropKerf_regs (s : State) (i : Nat) : (s.dropKerf i).regs = s.regs := rfl
@[simp] theorem State.dropKerf_stg (s : State) (i : Nat) : (s.dropKerf i).stg = s.stg := rfl
@[simp] theorem State.dropKerf_stgB (s : State) (i : Nat) : (s.dropKerf i).stgB = s.stgB := rfl
@[simp] theorem State.dropKerf_stgAt (s : State) (i : Nat) : (s.dropKerf i).stgAt = s.stgAt := rfl
@[simp] theorem State.dropKerf_sidx (s : State) (i : Nat) : (s.dropKerf i).sidx = s.sidx := rfl
@[simp] theorem State.dropKerf_time (s : State) (i : Nat) : (s.dropKerf i).time = s.time := rfl
@[simp] theorem State.dropKerf_glb (s : State) (i : Nat) : (s.dropKerf i).glb = s.glb := rfl
@[simp] theorem State.dropKerf_host (s : State) (i : Nat) : (s.dropKerf i).host = s.host := rfl
@[simp] theorem State.dropKerf_tly (s : State) (i : Nat) : (s.dropKerf i).tly = s.tly := rfl
@[simp] theorem State.dropKerf_eng (s : State) (i : Nat) : (s.dropKerf i).eng = s.eng := rfl
@[simp] theorem State.dropKerf_scn (s : State) (i : Nat) : (s.dropKerf i).scn = s.scn := rfl
@[simp] theorem State.dropKerf_far (s : State) (i : Nat) : (s.dropKerf i).far = s.far := rfl
@[simp] theorem State.dropKerf_out (s : State) (i : Nat) : (s.dropKerf i).out = s.out := rfl
@[simp] theorem State.dropKerf_str (s : State) (i : Nat) : (s.dropKerf i).str = s.str := rfl
@[simp] theorem State.dropKerf_net (s : State) (i : Nat) : (s.dropKerf i).net = s.net := rfl
@[simp] theorem State.dropKerf_raft (s : State) (i : Nat) : (s.dropKerf i).raft = s.raft := rfl
@[simp] theorem State.dropKerf_ref (s : State) (i : Nat) : (s.dropKerf i).ref = s.ref := rfl
@[simp] theorem State.dropKerf_tim (s : State) (i : Nat) : (s.dropKerf i).tim = s.tim := rfl
@[simp] theorem State.dropKerf_pair (s : State) (i : Nat) : (s.dropKerf i).pair = s.pair := rfl
@[simp] theorem State.dropKerf_dac (s : State) (i : Nat) : (s.dropKerf i).dac = s.dac := rfl
@[simp] theorem State.dropKerf_sup (s : State) (i : Nat) : (s.dropKerf i).sup = s.sup := rfl
@[simp] theorem State.dropKerf_fuse (s : State) (i : Nat) : (s.dropKerf i).fuse = s.fuse := rfl
@[simp] theorem State.dropKerf_boot (s : State) (i : Nat) : (s.dropKerf i).boot = s.boot := rfl
@[simp] theorem State.dropKerf_freeCtr (s : State) (i : Nat) : (s.dropKerf i).freeCtr = s.freeCtr := rfl
@[simp] theorem State.dropKerf_pending (s : State) (i : Nat) : (s.dropKerf i).pending = s.pending := rfl

/-! State.setMeter -/

@[simp] theorem State.setMeter_regs (s : State) (m : Nat) (x : MeterSt) : (s.setMeter m x).regs = s.regs := rfl
@[simp] theorem State.setMeter_stg (s : State) (m : Nat) (x : MeterSt) : (s.setMeter m x).stg = s.stg := rfl
@[simp] theorem State.setMeter_stgB (s : State) (m : Nat) (x : MeterSt) : (s.setMeter m x).stgB = s.stgB := rfl
@[simp] theorem State.setMeter_stgAt (s : State) (m : Nat) (x : MeterSt) : (s.setMeter m x).stgAt = s.stgAt := rfl
@[simp] theorem State.setMeter_sidx (s : State) (m : Nat) (x : MeterSt) : (s.setMeter m x).sidx = s.sidx := rfl
@[simp] theorem State.setMeter_time (s : State) (m : Nat) (x : MeterSt) : (s.setMeter m x).time = s.time := rfl
@[simp] theorem State.setMeter_glb (s : State) (m : Nat) (x : MeterSt) : (s.setMeter m x).glb = s.glb := rfl
@[simp] theorem State.setMeter_host (s : State) (m : Nat) (x : MeterSt) : (s.setMeter m x).host = s.host := rfl
@[simp] theorem State.setMeter_tly (s : State) (m : Nat) (x : MeterSt) : (s.setMeter m x).tly = s.tly := rfl
@[simp] theorem State.setMeter_eng (s : State) (m : Nat) (x : MeterSt) : (s.setMeter m x).eng = s.eng := rfl
@[simp] theorem State.setMeter_scn (s : State) (m : Nat) (x : MeterSt) : (s.setMeter m x).scn = s.scn := rfl
@[simp] theorem State.setMeter_far (s : State) (m : Nat) (x : MeterSt) : (s.setMeter m x).far = s.far := rfl
@[simp] theorem State.setMeter_out (s : State) (m : Nat) (x : MeterSt) : (s.setMeter m x).out = s.out := rfl
@[simp] theorem State.setMeter_str (s : State) (m : Nat) (x : MeterSt) : (s.setMeter m x).str = s.str := rfl
@[simp] theorem State.setMeter_net (s : State) (m : Nat) (x : MeterSt) : (s.setMeter m x).net = s.net := rfl
@[simp] theorem State.setMeter_raft (s : State) (m : Nat) (x : MeterSt) : (s.setMeter m x).raft = s.raft := rfl
@[simp] theorem State.setMeter_ref (s : State) (m : Nat) (x : MeterSt) : (s.setMeter m x).ref = s.ref := rfl
@[simp] theorem State.setMeter_tim (s : State) (m : Nat) (x : MeterSt) : (s.setMeter m x).tim = s.tim := rfl
@[simp] theorem State.setMeter_pair (s : State) (m : Nat) (x : MeterSt) : (s.setMeter m x).pair = s.pair := rfl
@[simp] theorem State.setMeter_dac (s : State) (m : Nat) (x : MeterSt) : (s.setMeter m x).dac = s.dac := rfl
@[simp] theorem State.setMeter_sup (s : State) (m : Nat) (x : MeterSt) : (s.setMeter m x).sup = s.sup := rfl
@[simp] theorem State.setMeter_fuse (s : State) (m : Nat) (x : MeterSt) : (s.setMeter m x).fuse = s.fuse := rfl
@[simp] theorem State.setMeter_boot (s : State) (m : Nat) (x : MeterSt) : (s.setMeter m x).boot = s.boot := rfl
@[simp] theorem State.setMeter_freeCtr (s : State) (m : Nat) (x : MeterSt) : (s.setMeter m x).freeCtr = s.freeCtr := rfl
@[simp] theorem State.setMeter_pending (s : State) (m : Nat) (x : MeterSt) : (s.setMeter m x).pending = s.pending := rfl

/-! State.meterClear -/

@[simp] theorem State.meterClear_regs (s : State) (v : Word) : (s.meterClear v).regs = s.regs := rfl
@[simp] theorem State.meterClear_stg (s : State) (v : Word) : (s.meterClear v).stg = s.stg := rfl
@[simp] theorem State.meterClear_stgB (s : State) (v : Word) : (s.meterClear v).stgB = s.stgB := rfl
@[simp] theorem State.meterClear_stgAt (s : State) (v : Word) : (s.meterClear v).stgAt = s.stgAt := rfl
@[simp] theorem State.meterClear_sidx (s : State) (v : Word) : (s.meterClear v).sidx = s.sidx := rfl
@[simp] theorem State.meterClear_time (s : State) (v : Word) : (s.meterClear v).time = s.time := rfl
@[simp] theorem State.meterClear_glb (s : State) (v : Word) : (s.meterClear v).glb = s.glb := rfl
@[simp] theorem State.meterClear_host (s : State) (v : Word) : (s.meterClear v).host = s.host := rfl
@[simp] theorem State.meterClear_tly (s : State) (v : Word) : (s.meterClear v).tly = s.tly := rfl
@[simp] theorem State.meterClear_eng (s : State) (v : Word) : (s.meterClear v).eng = s.eng := rfl
@[simp] theorem State.meterClear_scn (s : State) (v : Word) : (s.meterClear v).scn = s.scn := rfl
@[simp] theorem State.meterClear_far (s : State) (v : Word) : (s.meterClear v).far = s.far := rfl
@[simp] theorem State.meterClear_out (s : State) (v : Word) : (s.meterClear v).out = s.out := rfl
@[simp] theorem State.meterClear_str (s : State) (v : Word) : (s.meterClear v).str = s.str := rfl
@[simp] theorem State.meterClear_net (s : State) (v : Word) : (s.meterClear v).net = s.net := rfl
@[simp] theorem State.meterClear_raft (s : State) (v : Word) : (s.meterClear v).raft = s.raft := rfl
@[simp] theorem State.meterClear_ref (s : State) (v : Word) : (s.meterClear v).ref = s.ref := rfl
@[simp] theorem State.meterClear_tim (s : State) (v : Word) : (s.meterClear v).tim = s.tim := rfl
@[simp] theorem State.meterClear_pair (s : State) (v : Word) : (s.meterClear v).pair = s.pair := rfl
@[simp] theorem State.meterClear_dac (s : State) (v : Word) : (s.meterClear v).dac = s.dac := rfl
@[simp] theorem State.meterClear_sup (s : State) (v : Word) : (s.meterClear v).sup = s.sup := rfl
@[simp] theorem State.meterClear_fuse (s : State) (v : Word) : (s.meterClear v).fuse = s.fuse := rfl
@[simp] theorem State.meterClear_boot (s : State) (v : Word) : (s.meterClear v).boot = s.boot := rfl
@[simp] theorem State.meterClear_freeCtr (s : State) (v : Word) : (s.meterClear v).freeCtr = s.freeCtr := rfl
@[simp] theorem State.meterClear_pending (s : State) (v : Word) : (s.meterClear v).pending = s.pending := rfl

/-! State.setLim -/

@[simp] theorem State.setLim_regs (s : State) (k : Nat) (l : LimSt) : (s.setLim k l).regs = s.regs := rfl
@[simp] theorem State.setLim_stg (s : State) (k : Nat) (l : LimSt) : (s.setLim k l).stg = s.stg := rfl
@[simp] theorem State.setLim_stgB (s : State) (k : Nat) (l : LimSt) : (s.setLim k l).stgB = s.stgB := rfl
@[simp] theorem State.setLim_stgAt (s : State) (k : Nat) (l : LimSt) : (s.setLim k l).stgAt = s.stgAt := rfl
@[simp] theorem State.setLim_sidx (s : State) (k : Nat) (l : LimSt) : (s.setLim k l).sidx = s.sidx := rfl
@[simp] theorem State.setLim_time (s : State) (k : Nat) (l : LimSt) : (s.setLim k l).time = s.time := rfl
@[simp] theorem State.setLim_glb (s : State) (k : Nat) (l : LimSt) : (s.setLim k l).glb = s.glb := rfl
@[simp] theorem State.setLim_host (s : State) (k : Nat) (l : LimSt) : (s.setLim k l).host = s.host := rfl
@[simp] theorem State.setLim_tly (s : State) (k : Nat) (l : LimSt) : (s.setLim k l).tly = s.tly := rfl
@[simp] theorem State.setLim_eng (s : State) (k : Nat) (l : LimSt) : (s.setLim k l).eng = s.eng := rfl
@[simp] theorem State.setLim_scn (s : State) (k : Nat) (l : LimSt) : (s.setLim k l).scn = s.scn := rfl
@[simp] theorem State.setLim_lnd (s : State) (k : Nat) (l : LimSt) : (s.setLim k l).lnd = s.lnd := rfl
@[simp] theorem State.setLim_far (s : State) (k : Nat) (l : LimSt) : (s.setLim k l).far = s.far := rfl
@[simp] theorem State.setLim_str (s : State) (k : Nat) (l : LimSt) : (s.setLim k l).str = s.str := rfl
@[simp] theorem State.setLim_net (s : State) (k : Nat) (l : LimSt) : (s.setLim k l).net = s.net := rfl
@[simp] theorem State.setLim_raft (s : State) (k : Nat) (l : LimSt) : (s.setLim k l).raft = s.raft := rfl
@[simp] theorem State.setLim_ref (s : State) (k : Nat) (l : LimSt) : (s.setLim k l).ref = s.ref := rfl
@[simp] theorem State.setLim_tim (s : State) (k : Nat) (l : LimSt) : (s.setLim k l).tim = s.tim := rfl
@[simp] theorem State.setLim_pair (s : State) (k : Nat) (l : LimSt) : (s.setLim k l).pair = s.pair := rfl
@[simp] theorem State.setLim_dac (s : State) (k : Nat) (l : LimSt) : (s.setLim k l).dac = s.dac := rfl
@[simp] theorem State.setLim_sup (s : State) (k : Nat) (l : LimSt) : (s.setLim k l).sup = s.sup := rfl
@[simp] theorem State.setLim_fuse (s : State) (k : Nat) (l : LimSt) : (s.setLim k l).fuse = s.fuse := rfl
@[simp] theorem State.setLim_boot (s : State) (k : Nat) (l : LimSt) : (s.setLim k l).boot = s.boot := rfl
@[simp] theorem State.setLim_freeCtr (s : State) (k : Nat) (l : LimSt) : (s.setLim k l).freeCtr = s.freeCtr := rfl
@[simp] theorem State.setLim_pending (s : State) (k : Nat) (l : LimSt) : (s.setLim k l).pending = s.pending := rfl

/-! State.setPath -/

@[simp] theorem State.setPath_regs (s : State) (n : Nat) (p : PathSt) : (s.setPath n p).regs = s.regs := rfl
@[simp] theorem State.setPath_stg (s : State) (n : Nat) (p : PathSt) : (s.setPath n p).stg = s.stg := rfl
@[simp] theorem State.setPath_stgB (s : State) (n : Nat) (p : PathSt) : (s.setPath n p).stgB = s.stgB := rfl
@[simp] theorem State.setPath_stgAt (s : State) (n : Nat) (p : PathSt) : (s.setPath n p).stgAt = s.stgAt := rfl
@[simp] theorem State.setPath_sidx (s : State) (n : Nat) (p : PathSt) : (s.setPath n p).sidx = s.sidx := rfl
@[simp] theorem State.setPath_time (s : State) (n : Nat) (p : PathSt) : (s.setPath n p).time = s.time := rfl
@[simp] theorem State.setPath_glb (s : State) (n : Nat) (p : PathSt) : (s.setPath n p).glb = s.glb := rfl
@[simp] theorem State.setPath_host (s : State) (n : Nat) (p : PathSt) : (s.setPath n p).host = s.host := rfl
@[simp] theorem State.setPath_tly (s : State) (n : Nat) (p : PathSt) : (s.setPath n p).tly = s.tly := rfl
@[simp] theorem State.setPath_eng (s : State) (n : Nat) (p : PathSt) : (s.setPath n p).eng = s.eng := rfl
@[simp] theorem State.setPath_scn (s : State) (n : Nat) (p : PathSt) : (s.setPath n p).scn = s.scn := rfl
@[simp] theorem State.setPath_lnd (s : State) (n : Nat) (p : PathSt) : (s.setPath n p).lnd = s.lnd := rfl
@[simp] theorem State.setPath_far (s : State) (n : Nat) (p : PathSt) : (s.setPath n p).far = s.far := rfl
@[simp] theorem State.setPath_str (s : State) (n : Nat) (p : PathSt) : (s.setPath n p).str = s.str := rfl
@[simp] theorem State.setPath_net (s : State) (n : Nat) (p : PathSt) : (s.setPath n p).net = s.net := rfl
@[simp] theorem State.setPath_raft (s : State) (n : Nat) (p : PathSt) : (s.setPath n p).raft = s.raft := rfl
@[simp] theorem State.setPath_ref (s : State) (n : Nat) (p : PathSt) : (s.setPath n p).ref = s.ref := rfl
@[simp] theorem State.setPath_tim (s : State) (n : Nat) (p : PathSt) : (s.setPath n p).tim = s.tim := rfl
@[simp] theorem State.setPath_pair (s : State) (n : Nat) (p : PathSt) : (s.setPath n p).pair = s.pair := rfl
@[simp] theorem State.setPath_dac (s : State) (n : Nat) (p : PathSt) : (s.setPath n p).dac = s.dac := rfl
@[simp] theorem State.setPath_sup (s : State) (n : Nat) (p : PathSt) : (s.setPath n p).sup = s.sup := rfl
@[simp] theorem State.setPath_fuse (s : State) (n : Nat) (p : PathSt) : (s.setPath n p).fuse = s.fuse := rfl
@[simp] theorem State.setPath_boot (s : State) (n : Nat) (p : PathSt) : (s.setPath n p).boot = s.boot := rfl
@[simp] theorem State.setPath_freeCtr (s : State) (n : Nat) (p : PathSt) : (s.setPath n p).freeCtr = s.freeCtr := rfl
@[simp] theorem State.setPath_pending (s : State) (n : Nat) (p : PathSt) : (s.setPath n p).pending = s.pending := rfl

/-! State.setTdm -/

@[simp] theorem State.setTdm_regs (s : State) (p : Nat) (x : TdmSt) : (s.setTdm p x).regs = s.regs := rfl
@[simp] theorem State.setTdm_stg (s : State) (p : Nat) (x : TdmSt) : (s.setTdm p x).stg = s.stg := rfl
@[simp] theorem State.setTdm_stgB (s : State) (p : Nat) (x : TdmSt) : (s.setTdm p x).stgB = s.stgB := rfl
@[simp] theorem State.setTdm_stgAt (s : State) (p : Nat) (x : TdmSt) : (s.setTdm p x).stgAt = s.stgAt := rfl
@[simp] theorem State.setTdm_sidx (s : State) (p : Nat) (x : TdmSt) : (s.setTdm p x).sidx = s.sidx := rfl
@[simp] theorem State.setTdm_time (s : State) (p : Nat) (x : TdmSt) : (s.setTdm p x).time = s.time := rfl
@[simp] theorem State.setTdm_glb (s : State) (p : Nat) (x : TdmSt) : (s.setTdm p x).glb = s.glb := rfl
@[simp] theorem State.setTdm_host (s : State) (p : Nat) (x : TdmSt) : (s.setTdm p x).host = s.host := rfl
@[simp] theorem State.setTdm_tly (s : State) (p : Nat) (x : TdmSt) : (s.setTdm p x).tly = s.tly := rfl
@[simp] theorem State.setTdm_eng (s : State) (p : Nat) (x : TdmSt) : (s.setTdm p x).eng = s.eng := rfl
@[simp] theorem State.setTdm_scn (s : State) (p : Nat) (x : TdmSt) : (s.setTdm p x).scn = s.scn := rfl
@[simp] theorem State.setTdm_lnd (s : State) (p : Nat) (x : TdmSt) : (s.setTdm p x).lnd = s.lnd := rfl
@[simp] theorem State.setTdm_far (s : State) (p : Nat) (x : TdmSt) : (s.setTdm p x).far = s.far := rfl
@[simp] theorem State.setTdm_out (s : State) (p : Nat) (x : TdmSt) : (s.setTdm p x).out = s.out := rfl
@[simp] theorem State.setTdm_net (s : State) (p : Nat) (x : TdmSt) : (s.setTdm p x).net = s.net := rfl
@[simp] theorem State.setTdm_raft (s : State) (p : Nat) (x : TdmSt) : (s.setTdm p x).raft = s.raft := rfl
@[simp] theorem State.setTdm_ref (s : State) (p : Nat) (x : TdmSt) : (s.setTdm p x).ref = s.ref := rfl
@[simp] theorem State.setTdm_tim (s : State) (p : Nat) (x : TdmSt) : (s.setTdm p x).tim = s.tim := rfl
@[simp] theorem State.setTdm_pair (s : State) (p : Nat) (x : TdmSt) : (s.setTdm p x).pair = s.pair := rfl
@[simp] theorem State.setTdm_dac (s : State) (p : Nat) (x : TdmSt) : (s.setTdm p x).dac = s.dac := rfl
@[simp] theorem State.setTdm_sup (s : State) (p : Nat) (x : TdmSt) : (s.setTdm p x).sup = s.sup := rfl
@[simp] theorem State.setTdm_fuse (s : State) (p : Nat) (x : TdmSt) : (s.setTdm p x).fuse = s.fuse := rfl
@[simp] theorem State.setTdm_boot (s : State) (p : Nat) (x : TdmSt) : (s.setTdm p x).boot = s.boot := rfl
@[simp] theorem State.setTdm_freeCtr (s : State) (p : Nat) (x : TdmSt) : (s.setTdm p x).freeCtr = s.freeCtr := rfl
@[simp] theorem State.setTdm_pending (s : State) (p : Nat) (x : TdmSt) : (s.setTdm p x).pending = s.pending := rfl

/-! State.setBoom -/

@[simp] theorem State.setBoom_regs (s : State) (b : Nat) (x : BoomSt) : (s.setBoom b x).regs = s.regs := rfl
@[simp] theorem State.setBoom_stg (s : State) (b : Nat) (x : BoomSt) : (s.setBoom b x).stg = s.stg := rfl
@[simp] theorem State.setBoom_stgB (s : State) (b : Nat) (x : BoomSt) : (s.setBoom b x).stgB = s.stgB := rfl
@[simp] theorem State.setBoom_stgAt (s : State) (b : Nat) (x : BoomSt) : (s.setBoom b x).stgAt = s.stgAt := rfl
@[simp] theorem State.setBoom_sidx (s : State) (b : Nat) (x : BoomSt) : (s.setBoom b x).sidx = s.sidx := rfl
@[simp] theorem State.setBoom_time (s : State) (b : Nat) (x : BoomSt) : (s.setBoom b x).time = s.time := rfl
@[simp] theorem State.setBoom_glb (s : State) (b : Nat) (x : BoomSt) : (s.setBoom b x).glb = s.glb := rfl
@[simp] theorem State.setBoom_host (s : State) (b : Nat) (x : BoomSt) : (s.setBoom b x).host = s.host := rfl
@[simp] theorem State.setBoom_tly (s : State) (b : Nat) (x : BoomSt) : (s.setBoom b x).tly = s.tly := rfl
@[simp] theorem State.setBoom_eng (s : State) (b : Nat) (x : BoomSt) : (s.setBoom b x).eng = s.eng := rfl
@[simp] theorem State.setBoom_scn (s : State) (b : Nat) (x : BoomSt) : (s.setBoom b x).scn = s.scn := rfl
@[simp] theorem State.setBoom_lnd (s : State) (b : Nat) (x : BoomSt) : (s.setBoom b x).lnd = s.lnd := rfl
@[simp] theorem State.setBoom_far (s : State) (b : Nat) (x : BoomSt) : (s.setBoom b x).far = s.far := rfl
@[simp] theorem State.setBoom_out (s : State) (b : Nat) (x : BoomSt) : (s.setBoom b x).out = s.out := rfl
@[simp] theorem State.setBoom_net (s : State) (b : Nat) (x : BoomSt) : (s.setBoom b x).net = s.net := rfl
@[simp] theorem State.setBoom_raft (s : State) (b : Nat) (x : BoomSt) : (s.setBoom b x).raft = s.raft := rfl
@[simp] theorem State.setBoom_ref (s : State) (b : Nat) (x : BoomSt) : (s.setBoom b x).ref = s.ref := rfl
@[simp] theorem State.setBoom_tim (s : State) (b : Nat) (x : BoomSt) : (s.setBoom b x).tim = s.tim := rfl
@[simp] theorem State.setBoom_pair (s : State) (b : Nat) (x : BoomSt) : (s.setBoom b x).pair = s.pair := rfl
@[simp] theorem State.setBoom_dac (s : State) (b : Nat) (x : BoomSt) : (s.setBoom b x).dac = s.dac := rfl
@[simp] theorem State.setBoom_sup (s : State) (b : Nat) (x : BoomSt) : (s.setBoom b x).sup = s.sup := rfl
@[simp] theorem State.setBoom_fuse (s : State) (b : Nat) (x : BoomSt) : (s.setBoom b x).fuse = s.fuse := rfl
@[simp] theorem State.setBoom_boot (s : State) (b : Nat) (x : BoomSt) : (s.setBoom b x).boot = s.boot := rfl
@[simp] theorem State.setBoom_freeCtr (s : State) (b : Nat) (x : BoomSt) : (s.setBoom b x).freeCtr = s.freeCtr := rfl
@[simp] theorem State.setBoom_pending (s : State) (b : Nat) (x : BoomSt) : (s.setBoom b x).pending = s.pending := rfl

/-! State.setGrp -/

@[simp] theorem State.setGrp_regs (s : State) (g : Nat) (x : GrpSt) : (s.setGrp g x).regs = s.regs := rfl
@[simp] theorem State.setGrp_stg (s : State) (g : Nat) (x : GrpSt) : (s.setGrp g x).stg = s.stg := rfl
@[simp] theorem State.setGrp_stgB (s : State) (g : Nat) (x : GrpSt) : (s.setGrp g x).stgB = s.stgB := rfl
@[simp] theorem State.setGrp_stgAt (s : State) (g : Nat) (x : GrpSt) : (s.setGrp g x).stgAt = s.stgAt := rfl
@[simp] theorem State.setGrp_sidx (s : State) (g : Nat) (x : GrpSt) : (s.setGrp g x).sidx = s.sidx := rfl
@[simp] theorem State.setGrp_time (s : State) (g : Nat) (x : GrpSt) : (s.setGrp g x).time = s.time := rfl
@[simp] theorem State.setGrp_glb (s : State) (g : Nat) (x : GrpSt) : (s.setGrp g x).glb = s.glb := rfl
@[simp] theorem State.setGrp_host (s : State) (g : Nat) (x : GrpSt) : (s.setGrp g x).host = s.host := rfl
@[simp] theorem State.setGrp_tly (s : State) (g : Nat) (x : GrpSt) : (s.setGrp g x).tly = s.tly := rfl
@[simp] theorem State.setGrp_eng (s : State) (g : Nat) (x : GrpSt) : (s.setGrp g x).eng = s.eng := rfl
@[simp] theorem State.setGrp_scn (s : State) (g : Nat) (x : GrpSt) : (s.setGrp g x).scn = s.scn := rfl
@[simp] theorem State.setGrp_lnd (s : State) (g : Nat) (x : GrpSt) : (s.setGrp g x).lnd = s.lnd := rfl
@[simp] theorem State.setGrp_far (s : State) (g : Nat) (x : GrpSt) : (s.setGrp g x).far = s.far := rfl
@[simp] theorem State.setGrp_out (s : State) (g : Nat) (x : GrpSt) : (s.setGrp g x).out = s.out := rfl
@[simp] theorem State.setGrp_net (s : State) (g : Nat) (x : GrpSt) : (s.setGrp g x).net = s.net := rfl
@[simp] theorem State.setGrp_raft (s : State) (g : Nat) (x : GrpSt) : (s.setGrp g x).raft = s.raft := rfl
@[simp] theorem State.setGrp_ref (s : State) (g : Nat) (x : GrpSt) : (s.setGrp g x).ref = s.ref := rfl
@[simp] theorem State.setGrp_tim (s : State) (g : Nat) (x : GrpSt) : (s.setGrp g x).tim = s.tim := rfl
@[simp] theorem State.setGrp_pair (s : State) (g : Nat) (x : GrpSt) : (s.setGrp g x).pair = s.pair := rfl
@[simp] theorem State.setGrp_dac (s : State) (g : Nat) (x : GrpSt) : (s.setGrp g x).dac = s.dac := rfl
@[simp] theorem State.setGrp_sup (s : State) (g : Nat) (x : GrpSt) : (s.setGrp g x).sup = s.sup := rfl
@[simp] theorem State.setGrp_fuse (s : State) (g : Nat) (x : GrpSt) : (s.setGrp g x).fuse = s.fuse := rfl
@[simp] theorem State.setGrp_boot (s : State) (g : Nat) (x : GrpSt) : (s.setGrp g x).boot = s.boot := rfl
@[simp] theorem State.setGrp_freeCtr (s : State) (g : Nat) (x : GrpSt) : (s.setGrp g x).freeCtr = s.freeCtr := rfl
@[simp] theorem State.setGrp_pending (s : State) (g : Nat) (x : GrpSt) : (s.setGrp g x).pending = s.pending := rfl

/-! State.setCh -/

@[simp] theorem State.setCh_regs (s : State) (c : Nat) (x : ChSt) : (s.setCh c x).regs = s.regs := rfl
@[simp] theorem State.setCh_stg (s : State) (c : Nat) (x : ChSt) : (s.setCh c x).stg = s.stg := rfl
@[simp] theorem State.setCh_stgB (s : State) (c : Nat) (x : ChSt) : (s.setCh c x).stgB = s.stgB := rfl
@[simp] theorem State.setCh_stgAt (s : State) (c : Nat) (x : ChSt) : (s.setCh c x).stgAt = s.stgAt := rfl
@[simp] theorem State.setCh_sidx (s : State) (c : Nat) (x : ChSt) : (s.setCh c x).sidx = s.sidx := rfl
@[simp] theorem State.setCh_time (s : State) (c : Nat) (x : ChSt) : (s.setCh c x).time = s.time := rfl
@[simp] theorem State.setCh_glb (s : State) (c : Nat) (x : ChSt) : (s.setCh c x).glb = s.glb := rfl
@[simp] theorem State.setCh_host (s : State) (c : Nat) (x : ChSt) : (s.setCh c x).host = s.host := rfl
@[simp] theorem State.setCh_tly (s : State) (c : Nat) (x : ChSt) : (s.setCh c x).tly = s.tly := rfl
@[simp] theorem State.setCh_eng (s : State) (c : Nat) (x : ChSt) : (s.setCh c x).eng = s.eng := rfl
@[simp] theorem State.setCh_scn (s : State) (c : Nat) (x : ChSt) : (s.setCh c x).scn = s.scn := rfl
@[simp] theorem State.setCh_lnd (s : State) (c : Nat) (x : ChSt) : (s.setCh c x).lnd = s.lnd := rfl
@[simp] theorem State.setCh_far (s : State) (c : Nat) (x : ChSt) : (s.setCh c x).far = s.far := rfl
@[simp] theorem State.setCh_out (s : State) (c : Nat) (x : ChSt) : (s.setCh c x).out = s.out := rfl
@[simp] theorem State.setCh_net (s : State) (c : Nat) (x : ChSt) : (s.setCh c x).net = s.net := rfl
@[simp] theorem State.setCh_raft (s : State) (c : Nat) (x : ChSt) : (s.setCh c x).raft = s.raft := rfl
@[simp] theorem State.setCh_ref (s : State) (c : Nat) (x : ChSt) : (s.setCh c x).ref = s.ref := rfl
@[simp] theorem State.setCh_tim (s : State) (c : Nat) (x : ChSt) : (s.setCh c x).tim = s.tim := rfl
@[simp] theorem State.setCh_pair (s : State) (c : Nat) (x : ChSt) : (s.setCh c x).pair = s.pair := rfl
@[simp] theorem State.setCh_dac (s : State) (c : Nat) (x : ChSt) : (s.setCh c x).dac = s.dac := rfl
@[simp] theorem State.setCh_sup (s : State) (c : Nat) (x : ChSt) : (s.setCh c x).sup = s.sup := rfl
@[simp] theorem State.setCh_fuse (s : State) (c : Nat) (x : ChSt) : (s.setCh c x).fuse = s.fuse := rfl
@[simp] theorem State.setCh_boot (s : State) (c : Nat) (x : ChSt) : (s.setCh c x).boot = s.boot := rfl
@[simp] theorem State.setCh_freeCtr (s : State) (c : Nat) (x : ChSt) : (s.setCh c x).freeCtr = s.freeCtr := rfl
@[simp] theorem State.setCh_pending (s : State) (c : Nat) (x : ChSt) : (s.setCh c x).pending = s.pending := rfl

/-! State.setRx -/

@[simp] theorem State.setRx_regs (s : State) (f : Nat) (x : RxSt) : (s.setRx f x).regs = s.regs := rfl
@[simp] theorem State.setRx_stg (s : State) (f : Nat) (x : RxSt) : (s.setRx f x).stg = s.stg := rfl
@[simp] theorem State.setRx_stgB (s : State) (f : Nat) (x : RxSt) : (s.setRx f x).stgB = s.stgB := rfl
@[simp] theorem State.setRx_stgAt (s : State) (f : Nat) (x : RxSt) : (s.setRx f x).stgAt = s.stgAt := rfl
@[simp] theorem State.setRx_sidx (s : State) (f : Nat) (x : RxSt) : (s.setRx f x).sidx = s.sidx := rfl
@[simp] theorem State.setRx_time (s : State) (f : Nat) (x : RxSt) : (s.setRx f x).time = s.time := rfl
@[simp] theorem State.setRx_glb (s : State) (f : Nat) (x : RxSt) : (s.setRx f x).glb = s.glb := rfl
@[simp] theorem State.setRx_host (s : State) (f : Nat) (x : RxSt) : (s.setRx f x).host = s.host := rfl
@[simp] theorem State.setRx_tly (s : State) (f : Nat) (x : RxSt) : (s.setRx f x).tly = s.tly := rfl
@[simp] theorem State.setRx_eng (s : State) (f : Nat) (x : RxSt) : (s.setRx f x).eng = s.eng := rfl
@[simp] theorem State.setRx_scn (s : State) (f : Nat) (x : RxSt) : (s.setRx f x).scn = s.scn := rfl
@[simp] theorem State.setRx_lnd (s : State) (f : Nat) (x : RxSt) : (s.setRx f x).lnd = s.lnd := rfl
@[simp] theorem State.setRx_far (s : State) (f : Nat) (x : RxSt) : (s.setRx f x).far = s.far := rfl
@[simp] theorem State.setRx_out (s : State) (f : Nat) (x : RxSt) : (s.setRx f x).out = s.out := rfl
@[simp] theorem State.setRx_str (s : State) (f : Nat) (x : RxSt) : (s.setRx f x).str = s.str := rfl
@[simp] theorem State.setRx_raft (s : State) (f : Nat) (x : RxSt) : (s.setRx f x).raft = s.raft := rfl
@[simp] theorem State.setRx_ref (s : State) (f : Nat) (x : RxSt) : (s.setRx f x).ref = s.ref := rfl
@[simp] theorem State.setRx_tim (s : State) (f : Nat) (x : RxSt) : (s.setRx f x).tim = s.tim := rfl
@[simp] theorem State.setRx_pair (s : State) (f : Nat) (x : RxSt) : (s.setRx f x).pair = s.pair := rfl
@[simp] theorem State.setRx_dac (s : State) (f : Nat) (x : RxSt) : (s.setRx f x).dac = s.dac := rfl
@[simp] theorem State.setRx_sup (s : State) (f : Nat) (x : RxSt) : (s.setRx f x).sup = s.sup := rfl
@[simp] theorem State.setRx_fuse (s : State) (f : Nat) (x : RxSt) : (s.setRx f x).fuse = s.fuse := rfl
@[simp] theorem State.setRx_boot (s : State) (f : Nat) (x : RxSt) : (s.setRx f x).boot = s.boot := rfl
@[simp] theorem State.setRx_freeCtr (s : State) (f : Nat) (x : RxSt) : (s.setRx f x).freeCtr = s.freeCtr := rfl
@[simp] theorem State.setRx_pending (s : State) (f : Nat) (x : RxSt) : (s.setRx f x).pending = s.pending := rfl

/-! State.setTx -/

@[simp] theorem State.setTx_regs (s : State) (f : Nat) (x : TxSt) : (s.setTx f x).regs = s.regs := rfl
@[simp] theorem State.setTx_stg (s : State) (f : Nat) (x : TxSt) : (s.setTx f x).stg = s.stg := rfl
@[simp] theorem State.setTx_stgB (s : State) (f : Nat) (x : TxSt) : (s.setTx f x).stgB = s.stgB := rfl
@[simp] theorem State.setTx_stgAt (s : State) (f : Nat) (x : TxSt) : (s.setTx f x).stgAt = s.stgAt := rfl
@[simp] theorem State.setTx_sidx (s : State) (f : Nat) (x : TxSt) : (s.setTx f x).sidx = s.sidx := rfl
@[simp] theorem State.setTx_time (s : State) (f : Nat) (x : TxSt) : (s.setTx f x).time = s.time := rfl
@[simp] theorem State.setTx_glb (s : State) (f : Nat) (x : TxSt) : (s.setTx f x).glb = s.glb := rfl
@[simp] theorem State.setTx_host (s : State) (f : Nat) (x : TxSt) : (s.setTx f x).host = s.host := rfl
@[simp] theorem State.setTx_tly (s : State) (f : Nat) (x : TxSt) : (s.setTx f x).tly = s.tly := rfl
@[simp] theorem State.setTx_eng (s : State) (f : Nat) (x : TxSt) : (s.setTx f x).eng = s.eng := rfl
@[simp] theorem State.setTx_scn (s : State) (f : Nat) (x : TxSt) : (s.setTx f x).scn = s.scn := rfl
@[simp] theorem State.setTx_lnd (s : State) (f : Nat) (x : TxSt) : (s.setTx f x).lnd = s.lnd := rfl
@[simp] theorem State.setTx_far (s : State) (f : Nat) (x : TxSt) : (s.setTx f x).far = s.far := rfl
@[simp] theorem State.setTx_out (s : State) (f : Nat) (x : TxSt) : (s.setTx f x).out = s.out := rfl
@[simp] theorem State.setTx_str (s : State) (f : Nat) (x : TxSt) : (s.setTx f x).str = s.str := rfl
@[simp] theorem State.setTx_raft (s : State) (f : Nat) (x : TxSt) : (s.setTx f x).raft = s.raft := rfl
@[simp] theorem State.setTx_ref (s : State) (f : Nat) (x : TxSt) : (s.setTx f x).ref = s.ref := rfl
@[simp] theorem State.setTx_tim (s : State) (f : Nat) (x : TxSt) : (s.setTx f x).tim = s.tim := rfl
@[simp] theorem State.setTx_pair (s : State) (f : Nat) (x : TxSt) : (s.setTx f x).pair = s.pair := rfl
@[simp] theorem State.setTx_dac (s : State) (f : Nat) (x : TxSt) : (s.setTx f x).dac = s.dac := rfl
@[simp] theorem State.setTx_sup (s : State) (f : Nat) (x : TxSt) : (s.setTx f x).sup = s.sup := rfl
@[simp] theorem State.setTx_fuse (s : State) (f : Nat) (x : TxSt) : (s.setTx f x).fuse = s.fuse := rfl
@[simp] theorem State.setTx_boot (s : State) (f : Nat) (x : TxSt) : (s.setTx f x).boot = s.boot := rfl
@[simp] theorem State.setTx_freeCtr (s : State) (f : Nat) (x : TxSt) : (s.setTx f x).freeCtr = s.freeCtr := rfl
@[simp] theorem State.setTx_pending (s : State) (f : Nat) (x : TxSt) : (s.setTx f x).pending = s.pending := rfl

/-! State.onRef -/

@[simp] theorem State.onRef_regs (s : State) (f : RefSt → RefSt) : (s.onRef f).regs = s.regs := rfl
@[simp] theorem State.onRef_stg (s : State) (f : RefSt → RefSt) : (s.onRef f).stg = s.stg := rfl
@[simp] theorem State.onRef_stgB (s : State) (f : RefSt → RefSt) : (s.onRef f).stgB = s.stgB := rfl
@[simp] theorem State.onRef_stgAt (s : State) (f : RefSt → RefSt) : (s.onRef f).stgAt = s.stgAt := rfl
@[simp] theorem State.onRef_sidx (s : State) (f : RefSt → RefSt) : (s.onRef f).sidx = s.sidx := rfl
@[simp] theorem State.onRef_time (s : State) (f : RefSt → RefSt) : (s.onRef f).time = s.time := rfl
@[simp] theorem State.onRef_glb (s : State) (f : RefSt → RefSt) : (s.onRef f).glb = s.glb := rfl
@[simp] theorem State.onRef_host (s : State) (f : RefSt → RefSt) : (s.onRef f).host = s.host := rfl
@[simp] theorem State.onRef_tly (s : State) (f : RefSt → RefSt) : (s.onRef f).tly = s.tly := rfl
@[simp] theorem State.onRef_eng (s : State) (f : RefSt → RefSt) : (s.onRef f).eng = s.eng := rfl
@[simp] theorem State.onRef_scn (s : State) (f : RefSt → RefSt) : (s.onRef f).scn = s.scn := rfl
@[simp] theorem State.onRef_lnd (s : State) (f : RefSt → RefSt) : (s.onRef f).lnd = s.lnd := rfl
@[simp] theorem State.onRef_far (s : State) (f : RefSt → RefSt) : (s.onRef f).far = s.far := rfl
@[simp] theorem State.onRef_out (s : State) (f : RefSt → RefSt) : (s.onRef f).out = s.out := rfl
@[simp] theorem State.onRef_str (s : State) (f : RefSt → RefSt) : (s.onRef f).str = s.str := rfl
@[simp] theorem State.onRef_net (s : State) (f : RefSt → RefSt) : (s.onRef f).net = s.net := rfl
@[simp] theorem State.onRef_raft (s : State) (f : RefSt → RefSt) : (s.onRef f).raft = s.raft := rfl
@[simp] theorem State.onRef_tim (s : State) (f : RefSt → RefSt) : (s.onRef f).tim = s.tim := rfl
@[simp] theorem State.onRef_pair (s : State) (f : RefSt → RefSt) : (s.onRef f).pair = s.pair := rfl
@[simp] theorem State.onRef_dac (s : State) (f : RefSt → RefSt) : (s.onRef f).dac = s.dac := rfl
@[simp] theorem State.onRef_sup (s : State) (f : RefSt → RefSt) : (s.onRef f).sup = s.sup := rfl
@[simp] theorem State.onRef_fuse (s : State) (f : RefSt → RefSt) : (s.onRef f).fuse = s.fuse := rfl
@[simp] theorem State.onRef_boot (s : State) (f : RefSt → RefSt) : (s.onRef f).boot = s.boot := rfl
@[simp] theorem State.onRef_freeCtr (s : State) (f : RefSt → RefSt) : (s.onRef f).freeCtr = s.freeCtr := rfl
@[simp] theorem State.onRef_pending (s : State) (f : RefSt → RefSt) : (s.onRef f).pending = s.pending := rfl
@[simp] theorem State.onRef_ref (s : State) (f : RefSt → RefSt) : (s.onRef f).ref = f s.ref := rfl

/-! State.onTim -/

@[simp] theorem State.onTim_regs (s : State) (f : TimSt → TimSt) : (s.onTim f).regs = s.regs := rfl
@[simp] theorem State.onTim_stg (s : State) (f : TimSt → TimSt) : (s.onTim f).stg = s.stg := rfl
@[simp] theorem State.onTim_stgB (s : State) (f : TimSt → TimSt) : (s.onTim f).stgB = s.stgB := rfl
@[simp] theorem State.onTim_stgAt (s : State) (f : TimSt → TimSt) : (s.onTim f).stgAt = s.stgAt := rfl
@[simp] theorem State.onTim_sidx (s : State) (f : TimSt → TimSt) : (s.onTim f).sidx = s.sidx := rfl
@[simp] theorem State.onTim_time (s : State) (f : TimSt → TimSt) : (s.onTim f).time = s.time := rfl
@[simp] theorem State.onTim_glb (s : State) (f : TimSt → TimSt) : (s.onTim f).glb = s.glb := rfl
@[simp] theorem State.onTim_host (s : State) (f : TimSt → TimSt) : (s.onTim f).host = s.host := rfl
@[simp] theorem State.onTim_tly (s : State) (f : TimSt → TimSt) : (s.onTim f).tly = s.tly := rfl
@[simp] theorem State.onTim_eng (s : State) (f : TimSt → TimSt) : (s.onTim f).eng = s.eng := rfl
@[simp] theorem State.onTim_scn (s : State) (f : TimSt → TimSt) : (s.onTim f).scn = s.scn := rfl
@[simp] theorem State.onTim_lnd (s : State) (f : TimSt → TimSt) : (s.onTim f).lnd = s.lnd := rfl
@[simp] theorem State.onTim_far (s : State) (f : TimSt → TimSt) : (s.onTim f).far = s.far := rfl
@[simp] theorem State.onTim_out (s : State) (f : TimSt → TimSt) : (s.onTim f).out = s.out := rfl
@[simp] theorem State.onTim_str (s : State) (f : TimSt → TimSt) : (s.onTim f).str = s.str := rfl
@[simp] theorem State.onTim_net (s : State) (f : TimSt → TimSt) : (s.onTim f).net = s.net := rfl
@[simp] theorem State.onTim_raft (s : State) (f : TimSt → TimSt) : (s.onTim f).raft = s.raft := rfl
@[simp] theorem State.onTim_ref (s : State) (f : TimSt → TimSt) : (s.onTim f).ref = s.ref := rfl
@[simp] theorem State.onTim_pair (s : State) (f : TimSt → TimSt) : (s.onTim f).pair = s.pair := rfl
@[simp] theorem State.onTim_dac (s : State) (f : TimSt → TimSt) : (s.onTim f).dac = s.dac := rfl
@[simp] theorem State.onTim_sup (s : State) (f : TimSt → TimSt) : (s.onTim f).sup = s.sup := rfl
@[simp] theorem State.onTim_fuse (s : State) (f : TimSt → TimSt) : (s.onTim f).fuse = s.fuse := rfl
@[simp] theorem State.onTim_boot (s : State) (f : TimSt → TimSt) : (s.onTim f).boot = s.boot := rfl
@[simp] theorem State.onTim_freeCtr (s : State) (f : TimSt → TimSt) : (s.onTim f).freeCtr = s.freeCtr := rfl
@[simp] theorem State.onTim_pending (s : State) (f : TimSt → TimSt) : (s.onTim f).pending = s.pending := rfl
@[simp] theorem State.onTim_tim (s : State) (f : TimSt → TimSt) : (s.onTim f).tim = f s.tim := rfl

/-! State.onRaft -/

@[simp] theorem State.onRaft_regs (s : State) (f : RaftSt → RaftSt) : (s.onRaft f).regs = s.regs := rfl
@[simp] theorem State.onRaft_stg (s : State) (f : RaftSt → RaftSt) : (s.onRaft f).stg = s.stg := rfl
@[simp] theorem State.onRaft_stgB (s : State) (f : RaftSt → RaftSt) : (s.onRaft f).stgB = s.stgB := rfl
@[simp] theorem State.onRaft_stgAt (s : State) (f : RaftSt → RaftSt) : (s.onRaft f).stgAt = s.stgAt := rfl
@[simp] theorem State.onRaft_sidx (s : State) (f : RaftSt → RaftSt) : (s.onRaft f).sidx = s.sidx := rfl
@[simp] theorem State.onRaft_time (s : State) (f : RaftSt → RaftSt) : (s.onRaft f).time = s.time := rfl
@[simp] theorem State.onRaft_glb (s : State) (f : RaftSt → RaftSt) : (s.onRaft f).glb = s.glb := rfl
@[simp] theorem State.onRaft_host (s : State) (f : RaftSt → RaftSt) : (s.onRaft f).host = s.host := rfl
@[simp] theorem State.onRaft_tly (s : State) (f : RaftSt → RaftSt) : (s.onRaft f).tly = s.tly := rfl
@[simp] theorem State.onRaft_eng (s : State) (f : RaftSt → RaftSt) : (s.onRaft f).eng = s.eng := rfl
@[simp] theorem State.onRaft_scn (s : State) (f : RaftSt → RaftSt) : (s.onRaft f).scn = s.scn := rfl
@[simp] theorem State.onRaft_lnd (s : State) (f : RaftSt → RaftSt) : (s.onRaft f).lnd = s.lnd := rfl
@[simp] theorem State.onRaft_far (s : State) (f : RaftSt → RaftSt) : (s.onRaft f).far = s.far := rfl
@[simp] theorem State.onRaft_out (s : State) (f : RaftSt → RaftSt) : (s.onRaft f).out = s.out := rfl
@[simp] theorem State.onRaft_str (s : State) (f : RaftSt → RaftSt) : (s.onRaft f).str = s.str := rfl
@[simp] theorem State.onRaft_net (s : State) (f : RaftSt → RaftSt) : (s.onRaft f).net = s.net := rfl
@[simp] theorem State.onRaft_ref (s : State) (f : RaftSt → RaftSt) : (s.onRaft f).ref = s.ref := rfl
@[simp] theorem State.onRaft_tim (s : State) (f : RaftSt → RaftSt) : (s.onRaft f).tim = s.tim := rfl
@[simp] theorem State.onRaft_pair (s : State) (f : RaftSt → RaftSt) : (s.onRaft f).pair = s.pair := rfl
@[simp] theorem State.onRaft_dac (s : State) (f : RaftSt → RaftSt) : (s.onRaft f).dac = s.dac := rfl
@[simp] theorem State.onRaft_sup (s : State) (f : RaftSt → RaftSt) : (s.onRaft f).sup = s.sup := rfl
@[simp] theorem State.onRaft_fuse (s : State) (f : RaftSt → RaftSt) : (s.onRaft f).fuse = s.fuse := rfl
@[simp] theorem State.onRaft_boot (s : State) (f : RaftSt → RaftSt) : (s.onRaft f).boot = s.boot := rfl
@[simp] theorem State.onRaft_freeCtr (s : State) (f : RaftSt → RaftSt) : (s.onRaft f).freeCtr = s.freeCtr := rfl
@[simp] theorem State.onRaft_pending (s : State) (f : RaftSt → RaftSt) : (s.onRaft f).pending = s.pending := rfl
@[simp] theorem State.onRaft_raft (s : State) (f : RaftSt → RaftSt) : (s.onRaft f).raft = f s.raft := rfl

/-! State.dropInbox -/

@[simp] theorem State.dropInbox_regs (s : State) (k : Nat) : (s.dropInbox k).regs = s.regs := rfl
@[simp] theorem State.dropInbox_stg (s : State) (k : Nat) : (s.dropInbox k).stg = s.stg := rfl
@[simp] theorem State.dropInbox_stgB (s : State) (k : Nat) : (s.dropInbox k).stgB = s.stgB := rfl
@[simp] theorem State.dropInbox_stgAt (s : State) (k : Nat) : (s.dropInbox k).stgAt = s.stgAt := rfl
@[simp] theorem State.dropInbox_sidx (s : State) (k : Nat) : (s.dropInbox k).sidx = s.sidx := rfl
@[simp] theorem State.dropInbox_time (s : State) (k : Nat) : (s.dropInbox k).time = s.time := rfl
@[simp] theorem State.dropInbox_glb (s : State) (k : Nat) : (s.dropInbox k).glb = s.glb := rfl
@[simp] theorem State.dropInbox_host (s : State) (k : Nat) : (s.dropInbox k).host = s.host := rfl
@[simp] theorem State.dropInbox_tly (s : State) (k : Nat) : (s.dropInbox k).tly = s.tly := rfl
@[simp] theorem State.dropInbox_eng (s : State) (k : Nat) : (s.dropInbox k).eng = s.eng := rfl
@[simp] theorem State.dropInbox_scn (s : State) (k : Nat) : (s.dropInbox k).scn = s.scn := rfl
@[simp] theorem State.dropInbox_lnd (s : State) (k : Nat) : (s.dropInbox k).lnd = s.lnd := rfl
@[simp] theorem State.dropInbox_far (s : State) (k : Nat) : (s.dropInbox k).far = s.far := rfl
@[simp] theorem State.dropInbox_out (s : State) (k : Nat) : (s.dropInbox k).out = s.out := rfl
@[simp] theorem State.dropInbox_net (s : State) (k : Nat) : (s.dropInbox k).net = s.net := rfl
@[simp] theorem State.dropInbox_raft (s : State) (k : Nat) : (s.dropInbox k).raft = s.raft := rfl
@[simp] theorem State.dropInbox_ref (s : State) (k : Nat) : (s.dropInbox k).ref = s.ref := rfl
@[simp] theorem State.dropInbox_tim (s : State) (k : Nat) : (s.dropInbox k).tim = s.tim := rfl
@[simp] theorem State.dropInbox_pair (s : State) (k : Nat) : (s.dropInbox k).pair = s.pair := rfl
@[simp] theorem State.dropInbox_dac (s : State) (k : Nat) : (s.dropInbox k).dac = s.dac := rfl
@[simp] theorem State.dropInbox_sup (s : State) (k : Nat) : (s.dropInbox k).sup = s.sup := rfl
@[simp] theorem State.dropInbox_fuse (s : State) (k : Nat) : (s.dropInbox k).fuse = s.fuse := rfl
@[simp] theorem State.dropInbox_boot (s : State) (k : Nat) : (s.dropInbox k).boot = s.boot := rfl
@[simp] theorem State.dropInbox_freeCtr (s : State) (k : Nat) : (s.dropInbox k).freeCtr = s.freeCtr := rfl
@[simp] theorem State.dropInbox_pending (s : State) (k : Nat) : (s.dropInbox k).pending = s.pending := rfl

/-! State.onPair -/

@[simp] theorem State.onPair_regs (s : State) (f : PairSt → PairSt) : (s.onPair f).regs = s.regs := rfl
@[simp] theorem State.onPair_stg (s : State) (f : PairSt → PairSt) : (s.onPair f).stg = s.stg := rfl
@[simp] theorem State.onPair_stgB (s : State) (f : PairSt → PairSt) : (s.onPair f).stgB = s.stgB := rfl
@[simp] theorem State.onPair_stgAt (s : State) (f : PairSt → PairSt) : (s.onPair f).stgAt = s.stgAt := rfl
@[simp] theorem State.onPair_sidx (s : State) (f : PairSt → PairSt) : (s.onPair f).sidx = s.sidx := rfl
@[simp] theorem State.onPair_time (s : State) (f : PairSt → PairSt) : (s.onPair f).time = s.time := rfl
@[simp] theorem State.onPair_glb (s : State) (f : PairSt → PairSt) : (s.onPair f).glb = s.glb := rfl
@[simp] theorem State.onPair_host (s : State) (f : PairSt → PairSt) : (s.onPair f).host = s.host := rfl
@[simp] theorem State.onPair_tly (s : State) (f : PairSt → PairSt) : (s.onPair f).tly = s.tly := rfl
@[simp] theorem State.onPair_eng (s : State) (f : PairSt → PairSt) : (s.onPair f).eng = s.eng := rfl
@[simp] theorem State.onPair_scn (s : State) (f : PairSt → PairSt) : (s.onPair f).scn = s.scn := rfl
@[simp] theorem State.onPair_lnd (s : State) (f : PairSt → PairSt) : (s.onPair f).lnd = s.lnd := rfl
@[simp] theorem State.onPair_far (s : State) (f : PairSt → PairSt) : (s.onPair f).far = s.far := rfl
@[simp] theorem State.onPair_out (s : State) (f : PairSt → PairSt) : (s.onPair f).out = s.out := rfl
@[simp] theorem State.onPair_str (s : State) (f : PairSt → PairSt) : (s.onPair f).str = s.str := rfl
@[simp] theorem State.onPair_net (s : State) (f : PairSt → PairSt) : (s.onPair f).net = s.net := rfl
@[simp] theorem State.onPair_raft (s : State) (f : PairSt → PairSt) : (s.onPair f).raft = s.raft := rfl
@[simp] theorem State.onPair_ref (s : State) (f : PairSt → PairSt) : (s.onPair f).ref = s.ref := rfl
@[simp] theorem State.onPair_tim (s : State) (f : PairSt → PairSt) : (s.onPair f).tim = s.tim := rfl
@[simp] theorem State.onPair_dac (s : State) (f : PairSt → PairSt) : (s.onPair f).dac = s.dac := rfl
@[simp] theorem State.onPair_sup (s : State) (f : PairSt → PairSt) : (s.onPair f).sup = s.sup := rfl
@[simp] theorem State.onPair_fuse (s : State) (f : PairSt → PairSt) : (s.onPair f).fuse = s.fuse := rfl
@[simp] theorem State.onPair_boot (s : State) (f : PairSt → PairSt) : (s.onPair f).boot = s.boot := rfl
@[simp] theorem State.onPair_freeCtr (s : State) (f : PairSt → PairSt) : (s.onPair f).freeCtr = s.freeCtr := rfl
@[simp] theorem State.onPair_pending (s : State) (f : PairSt → PairSt) : (s.onPair f).pending = s.pending := rfl
@[simp] theorem State.onPair_pair (s : State) (f : PairSt → PairSt) : (s.onPair f).pair = f s.pair := rfl

/-! State.onFuse -/

@[simp] theorem State.onFuse_regs (s : State) (f : FuseSt → FuseSt) : (s.onFuse f).regs = s.regs := rfl
@[simp] theorem State.onFuse_stg (s : State) (f : FuseSt → FuseSt) : (s.onFuse f).stg = s.stg := rfl
@[simp] theorem State.onFuse_stgB (s : State) (f : FuseSt → FuseSt) : (s.onFuse f).stgB = s.stgB := rfl
@[simp] theorem State.onFuse_stgAt (s : State) (f : FuseSt → FuseSt) : (s.onFuse f).stgAt = s.stgAt := rfl
@[simp] theorem State.onFuse_sidx (s : State) (f : FuseSt → FuseSt) : (s.onFuse f).sidx = s.sidx := rfl
@[simp] theorem State.onFuse_time (s : State) (f : FuseSt → FuseSt) : (s.onFuse f).time = s.time := rfl
@[simp] theorem State.onFuse_glb (s : State) (f : FuseSt → FuseSt) : (s.onFuse f).glb = s.glb := rfl
@[simp] theorem State.onFuse_host (s : State) (f : FuseSt → FuseSt) : (s.onFuse f).host = s.host := rfl
@[simp] theorem State.onFuse_tly (s : State) (f : FuseSt → FuseSt) : (s.onFuse f).tly = s.tly := rfl
@[simp] theorem State.onFuse_eng (s : State) (f : FuseSt → FuseSt) : (s.onFuse f).eng = s.eng := rfl
@[simp] theorem State.onFuse_scn (s : State) (f : FuseSt → FuseSt) : (s.onFuse f).scn = s.scn := rfl
@[simp] theorem State.onFuse_lnd (s : State) (f : FuseSt → FuseSt) : (s.onFuse f).lnd = s.lnd := rfl
@[simp] theorem State.onFuse_far (s : State) (f : FuseSt → FuseSt) : (s.onFuse f).far = s.far := rfl
@[simp] theorem State.onFuse_out (s : State) (f : FuseSt → FuseSt) : (s.onFuse f).out = s.out := rfl
@[simp] theorem State.onFuse_str (s : State) (f : FuseSt → FuseSt) : (s.onFuse f).str = s.str := rfl
@[simp] theorem State.onFuse_net (s : State) (f : FuseSt → FuseSt) : (s.onFuse f).net = s.net := rfl
@[simp] theorem State.onFuse_raft (s : State) (f : FuseSt → FuseSt) : (s.onFuse f).raft = s.raft := rfl
@[simp] theorem State.onFuse_ref (s : State) (f : FuseSt → FuseSt) : (s.onFuse f).ref = s.ref := rfl
@[simp] theorem State.onFuse_tim (s : State) (f : FuseSt → FuseSt) : (s.onFuse f).tim = s.tim := rfl
@[simp] theorem State.onFuse_pair (s : State) (f : FuseSt → FuseSt) : (s.onFuse f).pair = s.pair := rfl
@[simp] theorem State.onFuse_dac (s : State) (f : FuseSt → FuseSt) : (s.onFuse f).dac = s.dac := rfl
@[simp] theorem State.onFuse_sup (s : State) (f : FuseSt → FuseSt) : (s.onFuse f).sup = s.sup := rfl
@[simp] theorem State.onFuse_boot (s : State) (f : FuseSt → FuseSt) : (s.onFuse f).boot = s.boot := rfl
@[simp] theorem State.onFuse_freeCtr (s : State) (f : FuseSt → FuseSt) : (s.onFuse f).freeCtr = s.freeCtr := rfl
@[simp] theorem State.onFuse_pending (s : State) (f : FuseSt → FuseSt) : (s.onFuse f).pending = s.pending := rfl
@[simp] theorem State.onFuse_fuse (s : State) (f : FuseSt → FuseSt) : (s.onFuse f).fuse = f s.fuse := rfl

/-! State.onGlb -/

@[simp] theorem State.onGlb_regs (s : State) (f : GlbSt → GlbSt) : (s.onGlb f).regs = s.regs := rfl
@[simp] theorem State.onGlb_stg (s : State) (f : GlbSt → GlbSt) : (s.onGlb f).stg = s.stg := rfl
@[simp] theorem State.onGlb_stgB (s : State) (f : GlbSt → GlbSt) : (s.onGlb f).stgB = s.stgB := rfl
@[simp] theorem State.onGlb_stgAt (s : State) (f : GlbSt → GlbSt) : (s.onGlb f).stgAt = s.stgAt := rfl
@[simp] theorem State.onGlb_sidx (s : State) (f : GlbSt → GlbSt) : (s.onGlb f).sidx = s.sidx := rfl
@[simp] theorem State.onGlb_time (s : State) (f : GlbSt → GlbSt) : (s.onGlb f).time = s.time := rfl
@[simp] theorem State.onGlb_host (s : State) (f : GlbSt → GlbSt) : (s.onGlb f).host = s.host := rfl
@[simp] theorem State.onGlb_tly (s : State) (f : GlbSt → GlbSt) : (s.onGlb f).tly = s.tly := rfl
@[simp] theorem State.onGlb_eng (s : State) (f : GlbSt → GlbSt) : (s.onGlb f).eng = s.eng := rfl
@[simp] theorem State.onGlb_scn (s : State) (f : GlbSt → GlbSt) : (s.onGlb f).scn = s.scn := rfl
@[simp] theorem State.onGlb_lnd (s : State) (f : GlbSt → GlbSt) : (s.onGlb f).lnd = s.lnd := rfl
@[simp] theorem State.onGlb_far (s : State) (f : GlbSt → GlbSt) : (s.onGlb f).far = s.far := rfl
@[simp] theorem State.onGlb_out (s : State) (f : GlbSt → GlbSt) : (s.onGlb f).out = s.out := rfl
@[simp] theorem State.onGlb_str (s : State) (f : GlbSt → GlbSt) : (s.onGlb f).str = s.str := rfl
@[simp] theorem State.onGlb_net (s : State) (f : GlbSt → GlbSt) : (s.onGlb f).net = s.net := rfl
@[simp] theorem State.onGlb_raft (s : State) (f : GlbSt → GlbSt) : (s.onGlb f).raft = s.raft := rfl
@[simp] theorem State.onGlb_ref (s : State) (f : GlbSt → GlbSt) : (s.onGlb f).ref = s.ref := rfl
@[simp] theorem State.onGlb_tim (s : State) (f : GlbSt → GlbSt) : (s.onGlb f).tim = s.tim := rfl
@[simp] theorem State.onGlb_pair (s : State) (f : GlbSt → GlbSt) : (s.onGlb f).pair = s.pair := rfl
@[simp] theorem State.onGlb_dac (s : State) (f : GlbSt → GlbSt) : (s.onGlb f).dac = s.dac := rfl
@[simp] theorem State.onGlb_sup (s : State) (f : GlbSt → GlbSt) : (s.onGlb f).sup = s.sup := rfl
@[simp] theorem State.onGlb_fuse (s : State) (f : GlbSt → GlbSt) : (s.onGlb f).fuse = s.fuse := rfl
@[simp] theorem State.onGlb_boot (s : State) (f : GlbSt → GlbSt) : (s.onGlb f).boot = s.boot := rfl
@[simp] theorem State.onGlb_freeCtr (s : State) (f : GlbSt → GlbSt) : (s.onGlb f).freeCtr = s.freeCtr := rfl
@[simp] theorem State.onGlb_pending (s : State) (f : GlbSt → GlbSt) : (s.onGlb f).pending = s.pending := rfl
@[simp] theorem State.onGlb_glb (s : State) (f : GlbSt → GlbSt) : (s.onGlb f).glb = f s.glb := rfl

/-! State.onHost -/

@[simp] theorem State.onHost_regs (s : State) (f : HostSt → HostSt) : (s.onHost f).regs = s.regs := rfl
@[simp] theorem State.onHost_stg (s : State) (f : HostSt → HostSt) : (s.onHost f).stg = s.stg := rfl
@[simp] theorem State.onHost_stgB (s : State) (f : HostSt → HostSt) : (s.onHost f).stgB = s.stgB := rfl
@[simp] theorem State.onHost_stgAt (s : State) (f : HostSt → HostSt) : (s.onHost f).stgAt = s.stgAt := rfl
@[simp] theorem State.onHost_sidx (s : State) (f : HostSt → HostSt) : (s.onHost f).sidx = s.sidx := rfl
@[simp] theorem State.onHost_time (s : State) (f : HostSt → HostSt) : (s.onHost f).time = s.time := rfl
@[simp] theorem State.onHost_glb (s : State) (f : HostSt → HostSt) : (s.onHost f).glb = s.glb := rfl
@[simp] theorem State.onHost_tly (s : State) (f : HostSt → HostSt) : (s.onHost f).tly = s.tly := rfl
@[simp] theorem State.onHost_eng (s : State) (f : HostSt → HostSt) : (s.onHost f).eng = s.eng := rfl
@[simp] theorem State.onHost_scn (s : State) (f : HostSt → HostSt) : (s.onHost f).scn = s.scn := rfl
@[simp] theorem State.onHost_lnd (s : State) (f : HostSt → HostSt) : (s.onHost f).lnd = s.lnd := rfl
@[simp] theorem State.onHost_far (s : State) (f : HostSt → HostSt) : (s.onHost f).far = s.far := rfl
@[simp] theorem State.onHost_out (s : State) (f : HostSt → HostSt) : (s.onHost f).out = s.out := rfl
@[simp] theorem State.onHost_str (s : State) (f : HostSt → HostSt) : (s.onHost f).str = s.str := rfl
@[simp] theorem State.onHost_net (s : State) (f : HostSt → HostSt) : (s.onHost f).net = s.net := rfl
@[simp] theorem State.onHost_raft (s : State) (f : HostSt → HostSt) : (s.onHost f).raft = s.raft := rfl
@[simp] theorem State.onHost_ref (s : State) (f : HostSt → HostSt) : (s.onHost f).ref = s.ref := rfl
@[simp] theorem State.onHost_tim (s : State) (f : HostSt → HostSt) : (s.onHost f).tim = s.tim := rfl
@[simp] theorem State.onHost_pair (s : State) (f : HostSt → HostSt) : (s.onHost f).pair = s.pair := rfl
@[simp] theorem State.onHost_dac (s : State) (f : HostSt → HostSt) : (s.onHost f).dac = s.dac := rfl
@[simp] theorem State.onHost_sup (s : State) (f : HostSt → HostSt) : (s.onHost f).sup = s.sup := rfl
@[simp] theorem State.onHost_fuse (s : State) (f : HostSt → HostSt) : (s.onHost f).fuse = s.fuse := rfl
@[simp] theorem State.onHost_boot (s : State) (f : HostSt → HostSt) : (s.onHost f).boot = s.boot := rfl
@[simp] theorem State.onHost_freeCtr (s : State) (f : HostSt → HostSt) : (s.onHost f).freeCtr = s.freeCtr := rfl
@[simp] theorem State.onHost_pending (s : State) (f : HostSt → HostSt) : (s.onHost f).pending = s.pending := rfl
@[simp] theorem State.onHost_host (s : State) (f : HostSt → HostSt) : (s.onHost f).host = f s.host := rfl

/-! State.onFar -/

@[simp] theorem State.onFar_regs (s : State) (f : FarSt → FarSt) : (s.onFar f).regs = s.regs := rfl
@[simp] theorem State.onFar_stg (s : State) (f : FarSt → FarSt) : (s.onFar f).stg = s.stg := rfl
@[simp] theorem State.onFar_stgB (s : State) (f : FarSt → FarSt) : (s.onFar f).stgB = s.stgB := rfl
@[simp] theorem State.onFar_stgAt (s : State) (f : FarSt → FarSt) : (s.onFar f).stgAt = s.stgAt := rfl
@[simp] theorem State.onFar_sidx (s : State) (f : FarSt → FarSt) : (s.onFar f).sidx = s.sidx := rfl
@[simp] theorem State.onFar_time (s : State) (f : FarSt → FarSt) : (s.onFar f).time = s.time := rfl
@[simp] theorem State.onFar_glb (s : State) (f : FarSt → FarSt) : (s.onFar f).glb = s.glb := rfl
@[simp] theorem State.onFar_host (s : State) (f : FarSt → FarSt) : (s.onFar f).host = s.host := rfl
@[simp] theorem State.onFar_tly (s : State) (f : FarSt → FarSt) : (s.onFar f).tly = s.tly := rfl
@[simp] theorem State.onFar_eng (s : State) (f : FarSt → FarSt) : (s.onFar f).eng = s.eng := rfl
@[simp] theorem State.onFar_scn (s : State) (f : FarSt → FarSt) : (s.onFar f).scn = s.scn := rfl
@[simp] theorem State.onFar_lnd (s : State) (f : FarSt → FarSt) : (s.onFar f).lnd = s.lnd := rfl
@[simp] theorem State.onFar_out (s : State) (f : FarSt → FarSt) : (s.onFar f).out = s.out := rfl
@[simp] theorem State.onFar_str (s : State) (f : FarSt → FarSt) : (s.onFar f).str = s.str := rfl
@[simp] theorem State.onFar_net (s : State) (f : FarSt → FarSt) : (s.onFar f).net = s.net := rfl
@[simp] theorem State.onFar_raft (s : State) (f : FarSt → FarSt) : (s.onFar f).raft = s.raft := rfl
@[simp] theorem State.onFar_ref (s : State) (f : FarSt → FarSt) : (s.onFar f).ref = s.ref := rfl
@[simp] theorem State.onFar_tim (s : State) (f : FarSt → FarSt) : (s.onFar f).tim = s.tim := rfl
@[simp] theorem State.onFar_pair (s : State) (f : FarSt → FarSt) : (s.onFar f).pair = s.pair := rfl
@[simp] theorem State.onFar_dac (s : State) (f : FarSt → FarSt) : (s.onFar f).dac = s.dac := rfl
@[simp] theorem State.onFar_sup (s : State) (f : FarSt → FarSt) : (s.onFar f).sup = s.sup := rfl
@[simp] theorem State.onFar_fuse (s : State) (f : FarSt → FarSt) : (s.onFar f).fuse = s.fuse := rfl
@[simp] theorem State.onFar_boot (s : State) (f : FarSt → FarSt) : (s.onFar f).boot = s.boot := rfl
@[simp] theorem State.onFar_freeCtr (s : State) (f : FarSt → FarSt) : (s.onFar f).freeCtr = s.freeCtr := rfl
@[simp] theorem State.onFar_pending (s : State) (f : FarSt → FarSt) : (s.onFar f).pending = s.pending := rfl
@[simp] theorem State.onFar_far (s : State) (f : FarSt → FarSt) : (s.onFar f).far = f s.far := rfl

/-! State.onDac -/

@[simp] theorem State.onDac_regs (s : State) (f : DacSt → DacSt) : (s.onDac f).regs = s.regs := rfl
@[simp] theorem State.onDac_stg (s : State) (f : DacSt → DacSt) : (s.onDac f).stg = s.stg := rfl
@[simp] theorem State.onDac_stgB (s : State) (f : DacSt → DacSt) : (s.onDac f).stgB = s.stgB := rfl
@[simp] theorem State.onDac_stgAt (s : State) (f : DacSt → DacSt) : (s.onDac f).stgAt = s.stgAt := rfl
@[simp] theorem State.onDac_sidx (s : State) (f : DacSt → DacSt) : (s.onDac f).sidx = s.sidx := rfl
@[simp] theorem State.onDac_time (s : State) (f : DacSt → DacSt) : (s.onDac f).time = s.time := rfl
@[simp] theorem State.onDac_glb (s : State) (f : DacSt → DacSt) : (s.onDac f).glb = s.glb := rfl
@[simp] theorem State.onDac_host (s : State) (f : DacSt → DacSt) : (s.onDac f).host = s.host := rfl
@[simp] theorem State.onDac_tly (s : State) (f : DacSt → DacSt) : (s.onDac f).tly = s.tly := rfl
@[simp] theorem State.onDac_eng (s : State) (f : DacSt → DacSt) : (s.onDac f).eng = s.eng := rfl
@[simp] theorem State.onDac_scn (s : State) (f : DacSt → DacSt) : (s.onDac f).scn = s.scn := rfl
@[simp] theorem State.onDac_lnd (s : State) (f : DacSt → DacSt) : (s.onDac f).lnd = s.lnd := rfl
@[simp] theorem State.onDac_far (s : State) (f : DacSt → DacSt) : (s.onDac f).far = s.far := rfl
@[simp] theorem State.onDac_out (s : State) (f : DacSt → DacSt) : (s.onDac f).out = s.out := rfl
@[simp] theorem State.onDac_str (s : State) (f : DacSt → DacSt) : (s.onDac f).str = s.str := rfl
@[simp] theorem State.onDac_net (s : State) (f : DacSt → DacSt) : (s.onDac f).net = s.net := rfl
@[simp] theorem State.onDac_raft (s : State) (f : DacSt → DacSt) : (s.onDac f).raft = s.raft := rfl
@[simp] theorem State.onDac_ref (s : State) (f : DacSt → DacSt) : (s.onDac f).ref = s.ref := rfl
@[simp] theorem State.onDac_tim (s : State) (f : DacSt → DacSt) : (s.onDac f).tim = s.tim := rfl
@[simp] theorem State.onDac_pair (s : State) (f : DacSt → DacSt) : (s.onDac f).pair = s.pair := rfl
@[simp] theorem State.onDac_sup (s : State) (f : DacSt → DacSt) : (s.onDac f).sup = s.sup := rfl
@[simp] theorem State.onDac_fuse (s : State) (f : DacSt → DacSt) : (s.onDac f).fuse = s.fuse := rfl
@[simp] theorem State.onDac_boot (s : State) (f : DacSt → DacSt) : (s.onDac f).boot = s.boot := rfl
@[simp] theorem State.onDac_freeCtr (s : State) (f : DacSt → DacSt) : (s.onDac f).freeCtr = s.freeCtr := rfl
@[simp] theorem State.onDac_pending (s : State) (f : DacSt → DacSt) : (s.onDac f).pending = s.pending := rfl
@[simp] theorem State.onDac_dac (s : State) (f : DacSt → DacSt) : (s.onDac f).dac = f s.dac := rfl

/-! State.onBoot -/

@[simp] theorem State.onBoot_regs (s : State) (f : BootSt → BootSt) : (s.onBoot f).regs = s.regs := rfl
@[simp] theorem State.onBoot_stg (s : State) (f : BootSt → BootSt) : (s.onBoot f).stg = s.stg := rfl
@[simp] theorem State.onBoot_stgB (s : State) (f : BootSt → BootSt) : (s.onBoot f).stgB = s.stgB := rfl
@[simp] theorem State.onBoot_stgAt (s : State) (f : BootSt → BootSt) : (s.onBoot f).stgAt = s.stgAt := rfl
@[simp] theorem State.onBoot_sidx (s : State) (f : BootSt → BootSt) : (s.onBoot f).sidx = s.sidx := rfl
@[simp] theorem State.onBoot_time (s : State) (f : BootSt → BootSt) : (s.onBoot f).time = s.time := rfl
@[simp] theorem State.onBoot_glb (s : State) (f : BootSt → BootSt) : (s.onBoot f).glb = s.glb := rfl
@[simp] theorem State.onBoot_host (s : State) (f : BootSt → BootSt) : (s.onBoot f).host = s.host := rfl
@[simp] theorem State.onBoot_tly (s : State) (f : BootSt → BootSt) : (s.onBoot f).tly = s.tly := rfl
@[simp] theorem State.onBoot_eng (s : State) (f : BootSt → BootSt) : (s.onBoot f).eng = s.eng := rfl
@[simp] theorem State.onBoot_scn (s : State) (f : BootSt → BootSt) : (s.onBoot f).scn = s.scn := rfl
@[simp] theorem State.onBoot_lnd (s : State) (f : BootSt → BootSt) : (s.onBoot f).lnd = s.lnd := rfl
@[simp] theorem State.onBoot_far (s : State) (f : BootSt → BootSt) : (s.onBoot f).far = s.far := rfl
@[simp] theorem State.onBoot_out (s : State) (f : BootSt → BootSt) : (s.onBoot f).out = s.out := rfl
@[simp] theorem State.onBoot_str (s : State) (f : BootSt → BootSt) : (s.onBoot f).str = s.str := rfl
@[simp] theorem State.onBoot_net (s : State) (f : BootSt → BootSt) : (s.onBoot f).net = s.net := rfl
@[simp] theorem State.onBoot_raft (s : State) (f : BootSt → BootSt) : (s.onBoot f).raft = s.raft := rfl
@[simp] theorem State.onBoot_ref (s : State) (f : BootSt → BootSt) : (s.onBoot f).ref = s.ref := rfl
@[simp] theorem State.onBoot_tim (s : State) (f : BootSt → BootSt) : (s.onBoot f).tim = s.tim := rfl
@[simp] theorem State.onBoot_pair (s : State) (f : BootSt → BootSt) : (s.onBoot f).pair = s.pair := rfl
@[simp] theorem State.onBoot_dac (s : State) (f : BootSt → BootSt) : (s.onBoot f).dac = s.dac := rfl
@[simp] theorem State.onBoot_sup (s : State) (f : BootSt → BootSt) : (s.onBoot f).sup = s.sup := rfl
@[simp] theorem State.onBoot_fuse (s : State) (f : BootSt → BootSt) : (s.onBoot f).fuse = s.fuse := rfl
@[simp] theorem State.onBoot_freeCtr (s : State) (f : BootSt → BootSt) : (s.onBoot f).freeCtr = s.freeCtr := rfl
@[simp] theorem State.onBoot_pending (s : State) (f : BootSt → BootSt) : (s.onBoot f).pending = s.pending := rfl
@[simp] theorem State.onBoot_boot (s : State) (f : BootSt → BootSt) : (s.onBoot f).boot = f s.boot := rfl

/-! State.onSup -/

@[simp] theorem State.onSup_regs (s : State) (f : SupSt → SupSt) : (s.onSup f).regs = s.regs := rfl
@[simp] theorem State.onSup_stg (s : State) (f : SupSt → SupSt) : (s.onSup f).stg = s.stg := rfl
@[simp] theorem State.onSup_stgB (s : State) (f : SupSt → SupSt) : (s.onSup f).stgB = s.stgB := rfl
@[simp] theorem State.onSup_stgAt (s : State) (f : SupSt → SupSt) : (s.onSup f).stgAt = s.stgAt := rfl
@[simp] theorem State.onSup_sidx (s : State) (f : SupSt → SupSt) : (s.onSup f).sidx = s.sidx := rfl
@[simp] theorem State.onSup_time (s : State) (f : SupSt → SupSt) : (s.onSup f).time = s.time := rfl
@[simp] theorem State.onSup_glb (s : State) (f : SupSt → SupSt) : (s.onSup f).glb = s.glb := rfl
@[simp] theorem State.onSup_host (s : State) (f : SupSt → SupSt) : (s.onSup f).host = s.host := rfl
@[simp] theorem State.onSup_tly (s : State) (f : SupSt → SupSt) : (s.onSup f).tly = s.tly := rfl
@[simp] theorem State.onSup_eng (s : State) (f : SupSt → SupSt) : (s.onSup f).eng = s.eng := rfl
@[simp] theorem State.onSup_scn (s : State) (f : SupSt → SupSt) : (s.onSup f).scn = s.scn := rfl
@[simp] theorem State.onSup_lnd (s : State) (f : SupSt → SupSt) : (s.onSup f).lnd = s.lnd := rfl
@[simp] theorem State.onSup_far (s : State) (f : SupSt → SupSt) : (s.onSup f).far = s.far := rfl
@[simp] theorem State.onSup_out (s : State) (f : SupSt → SupSt) : (s.onSup f).out = s.out := rfl
@[simp] theorem State.onSup_str (s : State) (f : SupSt → SupSt) : (s.onSup f).str = s.str := rfl
@[simp] theorem State.onSup_net (s : State) (f : SupSt → SupSt) : (s.onSup f).net = s.net := rfl
@[simp] theorem State.onSup_raft (s : State) (f : SupSt → SupSt) : (s.onSup f).raft = s.raft := rfl
@[simp] theorem State.onSup_ref (s : State) (f : SupSt → SupSt) : (s.onSup f).ref = s.ref := rfl
@[simp] theorem State.onSup_tim (s : State) (f : SupSt → SupSt) : (s.onSup f).tim = s.tim := rfl
@[simp] theorem State.onSup_pair (s : State) (f : SupSt → SupSt) : (s.onSup f).pair = s.pair := rfl
@[simp] theorem State.onSup_dac (s : State) (f : SupSt → SupSt) : (s.onSup f).dac = s.dac := rfl
@[simp] theorem State.onSup_fuse (s : State) (f : SupSt → SupSt) : (s.onSup f).fuse = s.fuse := rfl
@[simp] theorem State.onSup_boot (s : State) (f : SupSt → SupSt) : (s.onSup f).boot = s.boot := rfl
@[simp] theorem State.onSup_freeCtr (s : State) (f : SupSt → SupSt) : (s.onSup f).freeCtr = s.freeCtr := rfl
@[simp] theorem State.onSup_pending (s : State) (f : SupSt → SupSt) : (s.onSup f).pending = s.pending := rfl
@[simp] theorem State.onSup_sup (s : State) (f : SupSt → SupSt) : (s.onSup f).sup = f s.sup := rfl

/-! State.clkTurn -/

@[simp] theorem State.clkTurn_regs (s : State) (on : Bool) (n : Nat) (span : Nat) : (s.clkTurn on n span).regs = s.regs := rfl
@[simp] theorem State.clkTurn_stg (s : State) (on : Bool) (n : Nat) (span : Nat) : (s.clkTurn on n span).stg = s.stg := rfl
@[simp] theorem State.clkTurn_stgB (s : State) (on : Bool) (n : Nat) (span : Nat) : (s.clkTurn on n span).stgB = s.stgB := rfl
@[simp] theorem State.clkTurn_stgAt (s : State) (on : Bool) (n : Nat) (span : Nat) : (s.clkTurn on n span).stgAt = s.stgAt := rfl
@[simp] theorem State.clkTurn_sidx (s : State) (on : Bool) (n : Nat) (span : Nat) : (s.clkTurn on n span).sidx = s.sidx := rfl
@[simp] theorem State.clkTurn_time (s : State) (on : Bool) (n : Nat) (span : Nat) : (s.clkTurn on n span).time = s.time := rfl
@[simp] theorem State.clkTurn_glb (s : State) (on : Bool) (n : Nat) (span : Nat) : (s.clkTurn on n span).glb = s.glb := rfl
@[simp] theorem State.clkTurn_host (s : State) (on : Bool) (n : Nat) (span : Nat) : (s.clkTurn on n span).host = s.host := rfl
@[simp] theorem State.clkTurn_tly (s : State) (on : Bool) (n : Nat) (span : Nat) : (s.clkTurn on n span).tly = s.tly := rfl
@[simp] theorem State.clkTurn_eng (s : State) (on : Bool) (n : Nat) (span : Nat) : (s.clkTurn on n span).eng = s.eng := rfl
@[simp] theorem State.clkTurn_scn (s : State) (on : Bool) (n : Nat) (span : Nat) : (s.clkTurn on n span).scn = s.scn := rfl
@[simp] theorem State.clkTurn_lnd (s : State) (on : Bool) (n : Nat) (span : Nat) : (s.clkTurn on n span).lnd = s.lnd := rfl
@[simp] theorem State.clkTurn_far (s : State) (on : Bool) (n : Nat) (span : Nat) : (s.clkTurn on n span).far = s.far := rfl
@[simp] theorem State.clkTurn_str (s : State) (on : Bool) (n : Nat) (span : Nat) : (s.clkTurn on n span).str = s.str := rfl
@[simp] theorem State.clkTurn_net (s : State) (on : Bool) (n : Nat) (span : Nat) : (s.clkTurn on n span).net = s.net := rfl
@[simp] theorem State.clkTurn_raft (s : State) (on : Bool) (n : Nat) (span : Nat) : (s.clkTurn on n span).raft = s.raft := rfl
@[simp] theorem State.clkTurn_ref (s : State) (on : Bool) (n : Nat) (span : Nat) : (s.clkTurn on n span).ref = s.ref := rfl
@[simp] theorem State.clkTurn_tim (s : State) (on : Bool) (n : Nat) (span : Nat) : (s.clkTurn on n span).tim = s.tim := rfl
@[simp] theorem State.clkTurn_pair (s : State) (on : Bool) (n : Nat) (span : Nat) : (s.clkTurn on n span).pair = s.pair := rfl
@[simp] theorem State.clkTurn_dac (s : State) (on : Bool) (n : Nat) (span : Nat) : (s.clkTurn on n span).dac = s.dac := rfl
@[simp] theorem State.clkTurn_sup (s : State) (on : Bool) (n : Nat) (span : Nat) : (s.clkTurn on n span).sup = s.sup := rfl
@[simp] theorem State.clkTurn_fuse (s : State) (on : Bool) (n : Nat) (span : Nat) : (s.clkTurn on n span).fuse = s.fuse := rfl
@[simp] theorem State.clkTurn_boot (s : State) (on : Bool) (n : Nat) (span : Nat) : (s.clkTurn on n span).boot = s.boot := rfl
@[simp] theorem State.clkTurn_freeCtr (s : State) (on : Bool) (n : Nat) (span : Nat) : (s.clkTurn on n span).freeCtr = s.freeCtr := rfl
@[simp] theorem State.clkTurn_pending (s : State) (on : Bool) (n : Nat) (span : Nat) : (s.clkTurn on n span).pending = s.pending := rfl

/-! State.onTly -/

@[simp] theorem State.onTly_regs (s : State) (f : TlySt → TlySt) : (s.onTly f).regs = s.regs := rfl
@[simp] theorem State.onTly_stg (s : State) (f : TlySt → TlySt) : (s.onTly f).stg = s.stg := rfl
@[simp] theorem State.onTly_stgB (s : State) (f : TlySt → TlySt) : (s.onTly f).stgB = s.stgB := rfl
@[simp] theorem State.onTly_stgAt (s : State) (f : TlySt → TlySt) : (s.onTly f).stgAt = s.stgAt := rfl
@[simp] theorem State.onTly_sidx (s : State) (f : TlySt → TlySt) : (s.onTly f).sidx = s.sidx := rfl
@[simp] theorem State.onTly_time (s : State) (f : TlySt → TlySt) : (s.onTly f).time = s.time := rfl
@[simp] theorem State.onTly_glb (s : State) (f : TlySt → TlySt) : (s.onTly f).glb = s.glb := rfl
@[simp] theorem State.onTly_host (s : State) (f : TlySt → TlySt) : (s.onTly f).host = s.host := rfl
@[simp] theorem State.onTly_eng (s : State) (f : TlySt → TlySt) : (s.onTly f).eng = s.eng := rfl
@[simp] theorem State.onTly_scn (s : State) (f : TlySt → TlySt) : (s.onTly f).scn = s.scn := rfl
@[simp] theorem State.onTly_lnd (s : State) (f : TlySt → TlySt) : (s.onTly f).lnd = s.lnd := rfl
@[simp] theorem State.onTly_far (s : State) (f : TlySt → TlySt) : (s.onTly f).far = s.far := rfl
@[simp] theorem State.onTly_out (s : State) (f : TlySt → TlySt) : (s.onTly f).out = s.out := rfl
@[simp] theorem State.onTly_str (s : State) (f : TlySt → TlySt) : (s.onTly f).str = s.str := rfl
@[simp] theorem State.onTly_net (s : State) (f : TlySt → TlySt) : (s.onTly f).net = s.net := rfl
@[simp] theorem State.onTly_raft (s : State) (f : TlySt → TlySt) : (s.onTly f).raft = s.raft := rfl
@[simp] theorem State.onTly_ref (s : State) (f : TlySt → TlySt) : (s.onTly f).ref = s.ref := rfl
@[simp] theorem State.onTly_tim (s : State) (f : TlySt → TlySt) : (s.onTly f).tim = s.tim := rfl
@[simp] theorem State.onTly_pair (s : State) (f : TlySt → TlySt) : (s.onTly f).pair = s.pair := rfl
@[simp] theorem State.onTly_dac (s : State) (f : TlySt → TlySt) : (s.onTly f).dac = s.dac := rfl
@[simp] theorem State.onTly_sup (s : State) (f : TlySt → TlySt) : (s.onTly f).sup = s.sup := rfl
@[simp] theorem State.onTly_fuse (s : State) (f : TlySt → TlySt) : (s.onTly f).fuse = s.fuse := rfl
@[simp] theorem State.onTly_boot (s : State) (f : TlySt → TlySt) : (s.onTly f).boot = s.boot := rfl
@[simp] theorem State.onTly_freeCtr (s : State) (f : TlySt → TlySt) : (s.onTly f).freeCtr = s.freeCtr := rfl
@[simp] theorem State.onTly_pending (s : State) (f : TlySt → TlySt) : (s.onTly f).pending = s.pending := rfl
@[simp] theorem State.onTly_tly (s : State) (f : TlySt → TlySt) : (s.onTly f).tly = f s.tly := rfl

/-! State.backdate -/

@[simp] theorem State.backdate_regs (s : State) (was : Tbl Nat) : (s.backdate was).regs = s.regs := rfl
@[simp] theorem State.backdate_stg (s : State) (was : Tbl Nat) : (s.backdate was).stg = s.stg := rfl
@[simp] theorem State.backdate_stgB (s : State) (was : Tbl Nat) : (s.backdate was).stgB = s.stgB := rfl
@[simp] theorem State.backdate_sidx (s : State) (was : Tbl Nat) : (s.backdate was).sidx = s.sidx := rfl
@[simp] theorem State.backdate_time (s : State) (was : Tbl Nat) : (s.backdate was).time = s.time := rfl
@[simp] theorem State.backdate_glb (s : State) (was : Tbl Nat) : (s.backdate was).glb = s.glb := rfl
@[simp] theorem State.backdate_host (s : State) (was : Tbl Nat) : (s.backdate was).host = s.host := rfl
@[simp] theorem State.backdate_tly (s : State) (was : Tbl Nat) : (s.backdate was).tly = s.tly := rfl
@[simp] theorem State.backdate_eng (s : State) (was : Tbl Nat) : (s.backdate was).eng = s.eng := rfl
@[simp] theorem State.backdate_scn (s : State) (was : Tbl Nat) : (s.backdate was).scn = s.scn := rfl
@[simp] theorem State.backdate_lnd (s : State) (was : Tbl Nat) : (s.backdate was).lnd = s.lnd := rfl
@[simp] theorem State.backdate_far (s : State) (was : Tbl Nat) : (s.backdate was).far = s.far := rfl
@[simp] theorem State.backdate_out (s : State) (was : Tbl Nat) : (s.backdate was).out = s.out := rfl
@[simp] theorem State.backdate_str (s : State) (was : Tbl Nat) : (s.backdate was).str = s.str := rfl
@[simp] theorem State.backdate_net (s : State) (was : Tbl Nat) : (s.backdate was).net = s.net := rfl
@[simp] theorem State.backdate_raft (s : State) (was : Tbl Nat) : (s.backdate was).raft = s.raft := rfl
@[simp] theorem State.backdate_ref (s : State) (was : Tbl Nat) : (s.backdate was).ref = s.ref := rfl
@[simp] theorem State.backdate_tim (s : State) (was : Tbl Nat) : (s.backdate was).tim = s.tim := rfl
@[simp] theorem State.backdate_pair (s : State) (was : Tbl Nat) : (s.backdate was).pair = s.pair := rfl
@[simp] theorem State.backdate_dac (s : State) (was : Tbl Nat) : (s.backdate was).dac = s.dac := rfl
@[simp] theorem State.backdate_sup (s : State) (was : Tbl Nat) : (s.backdate was).sup = s.sup := rfl
@[simp] theorem State.backdate_fuse (s : State) (was : Tbl Nat) : (s.backdate was).fuse = s.fuse := rfl
@[simp] theorem State.backdate_boot (s : State) (was : Tbl Nat) : (s.backdate was).boot = s.boot := rfl
@[simp] theorem State.backdate_freeCtr (s : State) (was : Tbl Nat) : (s.backdate was).freeCtr = s.freeCtr := rfl
@[simp] theorem State.backdate_pending (s : State) (was : Tbl Nat) : (s.backdate was).pending = s.pending := rfl

/-! State.withPending -/

@[simp] theorem State.withPending_regs (s : State) (l : List Instr) : (s.withPending l).regs = s.regs := rfl
@[simp] theorem State.withPending_stg (s : State) (l : List Instr) : (s.withPending l).stg = s.stg := rfl
@[simp] theorem State.withPending_stgB (s : State) (l : List Instr) : (s.withPending l).stgB = s.stgB := rfl
@[simp] theorem State.withPending_stgAt (s : State) (l : List Instr) : (s.withPending l).stgAt = s.stgAt := rfl
@[simp] theorem State.withPending_sidx (s : State) (l : List Instr) : (s.withPending l).sidx = s.sidx := rfl
@[simp] theorem State.withPending_time (s : State) (l : List Instr) : (s.withPending l).time = s.time := rfl
@[simp] theorem State.withPending_glb (s : State) (l : List Instr) : (s.withPending l).glb = s.glb := rfl
@[simp] theorem State.withPending_host (s : State) (l : List Instr) : (s.withPending l).host = s.host := rfl
@[simp] theorem State.withPending_tly (s : State) (l : List Instr) : (s.withPending l).tly = s.tly := rfl
@[simp] theorem State.withPending_eng (s : State) (l : List Instr) : (s.withPending l).eng = s.eng := rfl
@[simp] theorem State.withPending_scn (s : State) (l : List Instr) : (s.withPending l).scn = s.scn := rfl
@[simp] theorem State.withPending_lnd (s : State) (l : List Instr) : (s.withPending l).lnd = s.lnd := rfl
@[simp] theorem State.withPending_far (s : State) (l : List Instr) : (s.withPending l).far = s.far := rfl
@[simp] theorem State.withPending_out (s : State) (l : List Instr) : (s.withPending l).out = s.out := rfl
@[simp] theorem State.withPending_str (s : State) (l : List Instr) : (s.withPending l).str = s.str := rfl
@[simp] theorem State.withPending_net (s : State) (l : List Instr) : (s.withPending l).net = s.net := rfl
@[simp] theorem State.withPending_raft (s : State) (l : List Instr) : (s.withPending l).raft = s.raft := rfl
@[simp] theorem State.withPending_ref (s : State) (l : List Instr) : (s.withPending l).ref = s.ref := rfl
@[simp] theorem State.withPending_tim (s : State) (l : List Instr) : (s.withPending l).tim = s.tim := rfl
@[simp] theorem State.withPending_pair (s : State) (l : List Instr) : (s.withPending l).pair = s.pair := rfl
@[simp] theorem State.withPending_dac (s : State) (l : List Instr) : (s.withPending l).dac = s.dac := rfl
@[simp] theorem State.withPending_sup (s : State) (l : List Instr) : (s.withPending l).sup = s.sup := rfl
@[simp] theorem State.withPending_fuse (s : State) (l : List Instr) : (s.withPending l).fuse = s.fuse := rfl
@[simp] theorem State.withPending_boot (s : State) (l : List Instr) : (s.withPending l).boot = s.boot := rfl
@[simp] theorem State.withPending_freeCtr (s : State) (l : List Instr) : (s.withPending l).freeCtr = s.freeCtr := rfl

/-! State.resetRegs -/

@[simp] theorem State.resetRegs_sidx (s : State) (lo hi : Nat) : (s.resetRegs lo hi).sidx = s.sidx := rfl
@[simp] theorem State.resetRegs_time (s : State) (lo hi : Nat) : (s.resetRegs lo hi).time = s.time := rfl
@[simp] theorem State.resetRegs_glb (s : State) (lo hi : Nat) : (s.resetRegs lo hi).glb = s.glb := rfl
@[simp] theorem State.resetRegs_host (s : State) (lo hi : Nat) : (s.resetRegs lo hi).host = s.host := rfl
@[simp] theorem State.resetRegs_tly (s : State) (lo hi : Nat) : (s.resetRegs lo hi).tly = s.tly := rfl
@[simp] theorem State.resetRegs_eng (s : State) (lo hi : Nat) : (s.resetRegs lo hi).eng = s.eng := rfl
@[simp] theorem State.resetRegs_scn (s : State) (lo hi : Nat) : (s.resetRegs lo hi).scn = s.scn := rfl
@[simp] theorem State.resetRegs_lnd (s : State) (lo hi : Nat) : (s.resetRegs lo hi).lnd = s.lnd := rfl
@[simp] theorem State.resetRegs_far (s : State) (lo hi : Nat) : (s.resetRegs lo hi).far = s.far := rfl
@[simp] theorem State.resetRegs_out (s : State) (lo hi : Nat) : (s.resetRegs lo hi).out = s.out := rfl
@[simp] theorem State.resetRegs_str (s : State) (lo hi : Nat) : (s.resetRegs lo hi).str = s.str := rfl
@[simp] theorem State.resetRegs_net (s : State) (lo hi : Nat) : (s.resetRegs lo hi).net = s.net := rfl
@[simp] theorem State.resetRegs_raft (s : State) (lo hi : Nat) : (s.resetRegs lo hi).raft = s.raft := rfl
@[simp] theorem State.resetRegs_ref (s : State) (lo hi : Nat) : (s.resetRegs lo hi).ref = s.ref := rfl
@[simp] theorem State.resetRegs_tim (s : State) (lo hi : Nat) : (s.resetRegs lo hi).tim = s.tim := rfl
@[simp] theorem State.resetRegs_pair (s : State) (lo hi : Nat) : (s.resetRegs lo hi).pair = s.pair := rfl
@[simp] theorem State.resetRegs_dac (s : State) (lo hi : Nat) : (s.resetRegs lo hi).dac = s.dac := rfl
@[simp] theorem State.resetRegs_sup (s : State) (lo hi : Nat) : (s.resetRegs lo hi).sup = s.sup := rfl
@[simp] theorem State.resetRegs_fuse (s : State) (lo hi : Nat) : (s.resetRegs lo hi).fuse = s.fuse := rfl
@[simp] theorem State.resetRegs_boot (s : State) (lo hi : Nat) : (s.resetRegs lo hi).boot = s.boot := rfl
@[simp] theorem State.resetRegs_freeCtr (s : State) (lo hi : Nat) : (s.resetRegs lo hi).freeCtr = s.freeCtr := rfl
@[simp] theorem State.resetRegs_pending (s : State) (lo hi : Nat) : (s.resetRegs lo hi).pending = s.pending := rfl

/-! State.draw -/

@[simp] theorem State.draw_regs (s : State) : (s.draw).1.regs = s.regs := rfl
@[simp] theorem State.draw_stg (s : State) : (s.draw).1.stg = s.stg := rfl
@[simp] theorem State.draw_stgB (s : State) : (s.draw).1.stgB = s.stgB := rfl
@[simp] theorem State.draw_stgAt (s : State) : (s.draw).1.stgAt = s.stgAt := rfl
@[simp] theorem State.draw_sidx (s : State) : (s.draw).1.sidx = s.sidx := rfl
@[simp] theorem State.draw_time (s : State) : (s.draw).1.time = s.time := rfl
@[simp] theorem State.draw_glb (s : State) : (s.draw).1.glb = s.glb := rfl
@[simp] theorem State.draw_host (s : State) : (s.draw).1.host = s.host := rfl
@[simp] theorem State.draw_tly (s : State) : (s.draw).1.tly = s.tly := rfl
@[simp] theorem State.draw_eng (s : State) : (s.draw).1.eng = s.eng := rfl
@[simp] theorem State.draw_scn (s : State) : (s.draw).1.scn = s.scn := rfl
@[simp] theorem State.draw_lnd (s : State) : (s.draw).1.lnd = s.lnd := rfl
@[simp] theorem State.draw_far (s : State) : (s.draw).1.far = s.far := rfl
@[simp] theorem State.draw_out (s : State) : (s.draw).1.out = s.out := rfl
@[simp] theorem State.draw_str (s : State) : (s.draw).1.str = s.str := rfl
@[simp] theorem State.draw_net (s : State) : (s.draw).1.net = s.net := rfl
@[simp] theorem State.draw_raft (s : State) : (s.draw).1.raft = s.raft := rfl
@[simp] theorem State.draw_ref (s : State) : (s.draw).1.ref = s.ref := rfl
@[simp] theorem State.draw_tim (s : State) : (s.draw).1.tim = s.tim := rfl
@[simp] theorem State.draw_pair (s : State) : (s.draw).1.pair = s.pair := rfl
@[simp] theorem State.draw_dac (s : State) : (s.draw).1.dac = s.dac := rfl
@[simp] theorem State.draw_sup (s : State) : (s.draw).1.sup = s.sup := rfl
@[simp] theorem State.draw_fuse (s : State) : (s.draw).1.fuse = s.fuse := rfl
@[simp] theorem State.draw_boot (s : State) : (s.draw).1.boot = s.boot := rfl
@[simp] theorem State.draw_pending (s : State) : (s.draw).1.pending = s.pending := rfl

/-! State.takeSeq -/

@[simp] theorem State.takeSeq_regs (s : State) (src : Nat) : (s.takeSeq src).regs = s.regs := rfl
@[simp] theorem State.takeSeq_stg (s : State) (src : Nat) : (s.takeSeq src).stg = s.stg := rfl
@[simp] theorem State.takeSeq_stgB (s : State) (src : Nat) : (s.takeSeq src).stgB = s.stgB := rfl
@[simp] theorem State.takeSeq_stgAt (s : State) (src : Nat) : (s.takeSeq src).stgAt = s.stgAt := rfl
@[simp] theorem State.takeSeq_sidx (s : State) (src : Nat) : (s.takeSeq src).sidx = s.sidx := rfl
@[simp] theorem State.takeSeq_time (s : State) (src : Nat) : (s.takeSeq src).time = s.time := rfl
@[simp] theorem State.takeSeq_glb (s : State) (src : Nat) : (s.takeSeq src).glb = s.glb := rfl
@[simp] theorem State.takeSeq_tly (s : State) (src : Nat) : (s.takeSeq src).tly = s.tly := rfl
@[simp] theorem State.takeSeq_eng (s : State) (src : Nat) : (s.takeSeq src).eng = s.eng := rfl
@[simp] theorem State.takeSeq_scn (s : State) (src : Nat) : (s.takeSeq src).scn = s.scn := rfl
@[simp] theorem State.takeSeq_lnd (s : State) (src : Nat) : (s.takeSeq src).lnd = s.lnd := rfl
@[simp] theorem State.takeSeq_far (s : State) (src : Nat) : (s.takeSeq src).far = s.far := rfl
@[simp] theorem State.takeSeq_out (s : State) (src : Nat) : (s.takeSeq src).out = s.out := rfl
@[simp] theorem State.takeSeq_str (s : State) (src : Nat) : (s.takeSeq src).str = s.str := rfl
@[simp] theorem State.takeSeq_net (s : State) (src : Nat) : (s.takeSeq src).net = s.net := rfl
@[simp] theorem State.takeSeq_raft (s : State) (src : Nat) : (s.takeSeq src).raft = s.raft := rfl
@[simp] theorem State.takeSeq_ref (s : State) (src : Nat) : (s.takeSeq src).ref = s.ref := rfl
@[simp] theorem State.takeSeq_tim (s : State) (src : Nat) : (s.takeSeq src).tim = s.tim := rfl
@[simp] theorem State.takeSeq_pair (s : State) (src : Nat) : (s.takeSeq src).pair = s.pair := rfl
@[simp] theorem State.takeSeq_dac (s : State) (src : Nat) : (s.takeSeq src).dac = s.dac := rfl
@[simp] theorem State.takeSeq_sup (s : State) (src : Nat) : (s.takeSeq src).sup = s.sup := rfl
@[simp] theorem State.takeSeq_fuse (s : State) (src : Nat) : (s.takeSeq src).fuse = s.fuse := rfl
@[simp] theorem State.takeSeq_boot (s : State) (src : Nat) : (s.takeSeq src).boot = s.boot := rfl
@[simp] theorem State.takeSeq_freeCtr (s : State) (src : Nat) : (s.takeSeq src).freeCtr = s.freeCtr := rfl
@[simp] theorem State.takeSeq_pending (s : State) (src : Nat) : (s.takeSeq src).pending = s.pending := rfl

@[simp] theorem State.withPending_pending (s : State) (l : List Instr) : (s.withPending l).pending = l := rfl

end Sys2Proof.Machine
end

