-- ==== Sys2Proof/Laws/Tbl.lean ====
section
/-! SUPPORT. What reads and writes of a sparse table do, and that every write keeps its canonical form. -/

namespace Sys2Proof.Machine

variable {α : Type}

/-! Reads after writes -/

theorem Tbl.get_erase_of_ne (d : Nat → α) (t : Tbl α) {k j : Nat} (h : j ≠ k) :
    Tbl.get d (Tbl.erase t k) j = Tbl.get d t j := by
  induction t with
  | nil => rfl
  | cons p t ih =>
    obtain ⟨a, v⟩ := p
    by_cases ha : a = k
    · subst ha; simp [Tbl.erase, Tbl.get, h.symm, ih]
    · simp [Tbl.erase, Tbl.get, ha, ih]

theorem Tbl.get_insert_self (d : Nat → α) (t : Tbl α) (k : Nat) (v : α) : Tbl.get d (Tbl.insert t k v) k = v := by
  induction t with
  | nil => simp [Tbl.insert, Tbl.get]
  | cons p t ih =>
    obtain ⟨a, w⟩ := p
    rcases Nat.lt_trichotomy k a with h | h | h
    · simp [Tbl.insert, Tbl.get, h]
    · simp [Tbl.insert, Tbl.get, h]
    · simp [Tbl.insert, Tbl.get, Nat.not_lt.mpr (Nat.le_of_lt h), Nat.ne_of_lt h, ih]

theorem Tbl.get_insert_of_ne (d : Nat → α) (t : Tbl α) {k j : Nat} (v : α) (h : j ≠ k) :
    Tbl.get d (Tbl.insert t k v) j = Tbl.get d t j := by
  induction t with
  | nil => simp [Tbl.insert, Tbl.get, h.symm]
  | cons p t ih =>
    obtain ⟨a, w⟩ := p
    rcases Nat.lt_trichotomy k a with hk | hk | hk
    · simp [Tbl.insert, Tbl.get, hk, h.symm]
    · subst hk; simp [Tbl.insert, Tbl.get, h.symm]
    · simp [Tbl.insert, Tbl.get, Nat.not_lt.mpr (Nat.le_of_lt hk), Nat.ne_of_lt hk, ih]

theorem Tbl.find_insert_self (t : Tbl α) (k : Nat) (v : α) : Tbl.find (Tbl.insert t k v) k = some v := by
  induction t with
  | nil => simp [Tbl.insert, Tbl.find]
  | cons p t ih =>
    obtain ⟨a, w⟩ := p
    rcases Nat.lt_trichotomy k a with h | h | h
    · simp [Tbl.insert, Tbl.find, h]
    · simp [Tbl.insert, Tbl.find, h]
    · simp [Tbl.insert, Tbl.find, Nat.not_lt.mpr (Nat.le_of_lt h), Nat.ne_of_lt h, ih]

theorem Tbl.find_insert_of_ne (t : Tbl α) {k j : Nat} (v : α) (h : j ≠ k) :
    Tbl.find (Tbl.insert t k v) j = Tbl.find t j := by
  induction t with
  | nil => simp [Tbl.insert, Tbl.find, h.symm]
  | cons p t ih =>
    obtain ⟨a, w⟩ := p
    rcases Nat.lt_trichotomy k a with hk | hk | hk
    · simp [Tbl.insert, Tbl.find, hk, h.symm]
    · subst hk; simp [Tbl.insert, Tbl.find, h.symm]
    · simp [Tbl.insert, Tbl.find, Nat.not_lt.mpr (Nat.le_of_lt hk), Nat.ne_of_lt hk, ih]

theorem Tbl.find_erase_of_ne (t : Tbl α) {k j : Nat} (h : j ≠ k) : Tbl.find (Tbl.erase t k) j = Tbl.find t j := by
  induction t with
  | nil => rfl
  | cons p t ih =>
    obtain ⟨a, v⟩ := p
    by_cases ha : a = k
    · subst ha; simp [Tbl.erase, Tbl.find, h.symm, ih]
    · simp [Tbl.erase, Tbl.find, ha, ih]

theorem Tbl.get_erase_self (d : Nat → α) (t : Tbl α) (k : Nat) : Tbl.get d (Tbl.erase t k) k = d k := by
  induction t with
  | nil => rfl
  | cons p t ih =>
    obtain ⟨a, v⟩ := p
    by_cases ha : a = k
    · simp [Tbl.erase, ha, ih]
    · simp [Tbl.erase, Tbl.get, ha, ih]

theorem Tbl.find_erase_self (t : Tbl α) (k : Nat) : Tbl.find (Tbl.erase t k) k = none := by
  induction t with
  | nil => rfl
  | cons p t ih =>
    obtain ⟨a, v⟩ := p
    by_cases ha : a = k
    · simp [Tbl.erase, ha, ih]
    · simp [Tbl.erase, Tbl.find, ha, ih]

/-- A read after a write to the same key gives the value written, whatever the table. -/
theorem Tbl.get_put_self [DecidableEq α] (d : Nat → α) (t : Tbl α) (k : Nat) (v : α) :
    Tbl.get d (Tbl.put d t k v) k = v := by
  unfold Tbl.put; split
  · next hv => rw [Tbl.get_erase_self, hv]
  · exact Tbl.get_insert_self d t k v

/-- A write changes no other key, whatever the table. -/
theorem Tbl.get_put_of_ne [DecidableEq α] (d : Nat → α) (t : Tbl α) {k j : Nat} (v : α) (h : j ≠ k) :
    Tbl.get d (Tbl.put d t k v) j = Tbl.get d t j := by
  unfold Tbl.put; split
  · exact Tbl.get_erase_of_ne d t h
  · exact Tbl.get_insert_of_ne d t v h

/-! The canonical form -/

theorem Tbl.sortedFrom_mono : ∀ (t : Tbl α) {n m : Nat}, m ≤ n → Tbl.sortedFrom n t = true → Tbl.sortedFrom m t = true
  | [], _, _, _, _ => rfl
  | (a, v) :: t, n, m, h, hs => by
    simp only [Tbl.sortedFrom, Bool.and_eq_true, decide_eq_true_eq] at hs ⊢
    exact ⟨Nat.le_trans h hs.1, hs.2⟩

/-- A key below all of a table's is not listed. -/
theorem Tbl.get_of_sortedFrom (d : Nat → α) : ∀ (t : Tbl α) {n k : Nat}, Tbl.sortedFrom n t = true → k < n → Tbl.get d t k = d k
  | [], _, _, _, _ => rfl
  | (a, v) :: t, n, k, hs, h => by
    simp only [Tbl.sortedFrom, Bool.and_eq_true, decide_eq_true_eq] at hs
    have hk : a ≠ k := by omega
    simpa [Tbl.get, hk] using Tbl.get_of_sortedFrom d t hs.2 (by omega)

theorem Tbl.sortedFrom_erase : ∀ (t : Tbl α) {n : Nat} (k : Nat), Tbl.sortedFrom n t = true →
    Tbl.sortedFrom n (Tbl.erase t k) = true
  | [], _, _, _ => rfl
  | (a, v) :: t, n, k, hs => by
    simp only [Tbl.sortedFrom, Bool.and_eq_true, decide_eq_true_eq] at hs
    by_cases ha : a = k
    · simpa [Tbl.erase, ha] using Tbl.sortedFrom_mono _ (by omega : n ≤ a + 1) (Tbl.sortedFrom_erase t k hs.2)
    · simp [Tbl.erase, ha, Tbl.sortedFrom, hs.1, Tbl.sortedFrom_erase t k hs.2]

theorem Tbl.sortedFrom_insert : ∀ (t : Tbl α) {n k : Nat} (v : α), n ≤ k → Tbl.sortedFrom n t = true →
    Tbl.sortedFrom n (Tbl.insert t k v) = true
  | [], _, _, _, h, _ => by simp [Tbl.insert, Tbl.sortedFrom, h]
  | (a, w) :: t, n, k, v, h, hs => by
    simp only [Tbl.sortedFrom, Bool.and_eq_true, decide_eq_true_eq] at hs
    rcases Nat.lt_trichotomy k a with hk | hk | hk
    · simp only [Tbl.insert, hk, if_true, Tbl.sortedFrom, Bool.and_eq_true, decide_eq_true_eq]
      exact ⟨h, hk, hs.2⟩
    · subst hk; simp [Tbl.insert, Tbl.sortedFrom, hs]
    · simp [Tbl.insert, Nat.not_lt.mpr (Nat.le_of_lt hk), Nat.ne_of_lt hk, Tbl.sortedFrom, hs.1, Tbl.sortedFrom_insert t v (by omega : a + 1 ≤ k) hs.2]

theorem Tbl.noDefault_erase [DecidableEq α] (d : Nat → α) : ∀ (t : Tbl α) (k : Nat), Tbl.noDefault d t = true →
    Tbl.noDefault d (Tbl.erase t k) = true
  | [], _, _ => rfl
  | (a, v) :: t, k, h => by
    simp only [Tbl.noDefault, Bool.and_eq_true] at h
    by_cases ha : a = k
    · simpa [Tbl.erase, ha] using Tbl.noDefault_erase d t k h.2
    · simp only [Tbl.erase, ha, if_false, Tbl.noDefault, Bool.and_eq_true]
      exact ⟨h.1, Tbl.noDefault_erase d t k h.2⟩

theorem Tbl.noDefault_insert [DecidableEq α] (d : Nat → α) : ∀ (t : Tbl α) (k : Nat) (v : α), v ≠ d k →
    Tbl.noDefault d t = true → Tbl.noDefault d (Tbl.insert t k v) = true
  | [], k, v, hv, _ => by simp [Tbl.insert, Tbl.noDefault, hv]
  | (a, w) :: t, k, v, hv, h => by
    simp only [Tbl.noDefault, Bool.and_eq_true] at h
    rcases Nat.lt_trichotomy k a with hk | hk | hk
    · simpa [Tbl.insert, hk, Tbl.noDefault, hv] using h
    · subst hk; simp [Tbl.insert, Tbl.noDefault, hv, h.2]
    · simp only [Tbl.insert, Nat.not_lt.mpr (Nat.le_of_lt hk), Nat.ne_of_lt hk, if_false, Tbl.noDefault, Bool.and_eq_true]
      exact ⟨h.1, Tbl.noDefault_insert d t k v hv h.2⟩

/-- Every write keeps the canonical form. -/
theorem Tbl.wf_put [DecidableEq α] (d : Nat → α) (t : Tbl α) (k : Nat) (v : α) (h : Tbl.wf d t = true) :
    Tbl.wf d (Tbl.put d t k v) = true := by
  simp only [Tbl.wf, Bool.and_eq_true] at h ⊢
  unfold Tbl.put; split
  · exact ⟨Tbl.sortedFrom_erase t k h.1, Tbl.noDefault_erase d t k h.2⟩
  · next hv => exact ⟨Tbl.sortedFrom_insert t v (Nat.zero_le k) h.1, Tbl.noDefault_insert d t k v hv h.2⟩

/-- The empty table is canonical. -/
theorem Tbl.wf_nil [DecidableEq α] (d : Nat → α) : Tbl.wf d ([] : Tbl α) = true := rfl

/-! Byte memories -/

theorem Memory.wf_write (m : Memory) (a : Nat) (b : Byte) (h : Memory.wf m = true) : Memory.wf (Memory.write m a b) = true :=
  Tbl.wf_put _ m a b h

theorem Memory.wf_writeBytes : ∀ (l : List Byte) (m : Memory) (a : Nat), Memory.wf m = true →
    Memory.wf (Memory.writeBytes m a l) = true
  | [], _, _, h => h
  | b :: l, m, a, h => Memory.wf_writeBytes l _ _ (Memory.wf_write m a b h)

theorem Memory.read_write_self (m : Memory) (a : Nat) (b : Byte) : Memory.read (Memory.write m a b) a = b :=
  Tbl.get_put_self _ m a b

theorem Memory.read_write_of_ne (m : Memory) {a c : Nat} (b : Byte) (h : c ≠ a) :
    Memory.read (Memory.write m a b) c = Memory.read m c := Tbl.get_put_of_ne _ m b h

/-- Bytes outside a written range keep their values. -/
theorem Memory.read_writeBytes_outside : ∀ (l : List Byte) (m : Memory) (a c : Nat), c < a ∨ a + l.length ≤ c →
    Memory.read (Memory.writeBytes m a l) c = Memory.read m c
  | [], _, _, _, _ => rfl
  | b :: l, m, a, c, h => by
    simp only [List.length_cons] at h
    have hc : c ≠ a := by omega
    rw [Memory.writeBytes, Memory.read_writeBytes_outside l _ _ _ (by omega), Memory.read_write_of_ne m b hc]

/-- Byte `i` of a written range reads as written. -/
theorem Memory.read_writeBytes : ∀ (l : List Byte) (m : Memory) (a i : Nat) (hi : i < l.length),
    Memory.read (Memory.writeBytes m a l) (a + i) = l[i]
  | b :: l, m, a, 0, _ => by
    rw [Memory.writeBytes, Memory.read_writeBytes_outside l _ _ _ (by omega)]
    exact Memory.read_write_self m a b
  | b :: l, m, a, i + 1, hi => by
    have := Memory.read_writeBytes l (Memory.write m a b) (a + 1) i (by simpa using hi)
    rw [Memory.writeBytes, show a + (i + 1) = a + 1 + i by omega, this]; rfl

end Sys2Proof.Machine
end

