-- ==== Sys2Proof/Laws/Ops.lean ====
section
/-! SUPPORT. What the named operations do and what they leave: registers, events, counters, completions. -/

namespace Sys2Proof.Machine

/-! Registers and engines -/

@[simp] theorem State.reg_setReg_self (s : State) (off : Nat) (v : Word) : (s.setReg off v).reg off = v :=
  Tbl.get_put_self _ _ _ _

theorem State.reg_setReg_of_ne (s : State) {off o : Nat} (v : Word) (h : o ≠ off) : (s.setReg off v).reg o = s.reg o :=
  Tbl.get_put_of_ne _ _ _ h

theorem State.reg_setFld_of_ne (s : State) (f : Fld) (v : Nat) {o : Nat} (h : o ≠ f.off) : (s.setFld f v).reg o = s.reg o :=
  s.reg_setReg_of_ne _ h

theorem State.fld_setReg_of_ne (s : State) {off : Nat} {f : Fld} (v : Word) (h : f.off ≠ off) :
    (s.setReg off v).fld f = s.fld f := by simp [State.fld, s.reg_setReg_of_ne v h]

theorem State.fld_setFld_of_ne (s : State) {f g : Fld} (v : Nat) (h : f.off ≠ g.off) : (s.setFld g v).fld f = s.fld f :=
  s.fld_setReg_of_ne _ h

theorem State.flag_setFld_of_ne (s : State) {f g : Fld} (v : Nat) (h : f.off ≠ g.off) : (s.setFld g v).flag f = s.flag f := by
  simp [State.flag, s.fld_setFld_of_ne v h]

@[simp] theorem State.engOf_setEng_self (s : State) (e : Nat) (x : Engine) : (s.setEng e x).engOf e = x :=
  Tbl.get_put_self _ _ _ _

theorem State.engOf_setEng_of_ne (s : State) {e j : Nat} (x : Engine) (h : j ≠ e) : (s.setEng e x).engOf j = s.engOf j :=
  Tbl.get_put_of_ne _ _ _ h

@[simp] theorem State.engOf_setReg (s : State) (off : Nat) (v : Word) (e : Nat) : (s.setReg off v).engOf e = s.engOf e := rfl
@[simp] theorem State.engOf_setFld (s : State) (f : Fld) (v e : Nat) : (s.setFld f v).engOf e = s.engOf e := rfl
@[simp] theorem State.reg_setEng (s : State) (e : Nat) (x : Engine) (o : Nat) : (s.setEng e x).reg o = s.reg o := rfl
@[simp] theorem State.fld_setEng (s : State) (e : Nat) (x : Engine) (f : Fld) : (s.setEng e x).fld f = s.fld f := rfl
@[simp] theorem State.flag_setEng (s : State) (e : Nat) (x : Engine) (f : Fld) : (s.setEng e x).flag f = s.flag f := rfl

/-! Bit fields -/

/-- A field reads as it was set. -/
theorem bitsOf_setBits_self (w : Word) (hi lo v : Nat) (h : lo ≤ hi) (hi32 : hi < 32) :
    bitsOf (setBits w hi lo v) hi lo = v % 2 ^ (hi + 1 - lo) := by
  have hb : w.toNat < 2 ^ 32 := w.isLt
  simp only [setBits, bitsOf, BitVec.toNat_ofNat]
  generalize hk : hi + 1 - lo = k
  have hpos : 0 < 2 ^ lo := Nat.two_pow_pos lo
  have hkpos : 0 < 2 ^ k := Nat.two_pow_pos k
  obtain ⟨m, hm⟩ : ∃ m, m + (k + lo) = 32 := ⟨32 - (k + lo), by omega⟩
  have h32 : (2 : Nat) ^ 32 = 2 ^ lo * 2 ^ k * 2 ^ m := by rw [← Nat.pow_add, ← Nat.pow_add]; congr 1; omega
  generalize hA : w.toNat = A at *
  -- A = lowpart + field + highpart
  have h1 : A = A % 2 ^ lo + 2 ^ lo * (A / 2 ^ lo) := (Nat.mod_add_div A _).symm
  have h2 : A / 2 ^ lo = A / 2 ^ lo % 2 ^ k + 2 ^ k * (A / 2 ^ lo / 2 ^ k) := (Nat.mod_add_div _ _).symm
  generalize ha : A % 2 ^ lo = a at *
  generalize hf : A / 2 ^ lo % 2 ^ k = f at *
  generalize hc : A / 2 ^ lo / 2 ^ k = c at *
  have halt : a < 2 ^ lo := ha ▸ Nat.mod_lt _ hpos
  have hvlt : v % 2 ^ k < 2 ^ k := Nat.mod_lt _ hkpos
  have hflt : f < 2 ^ k := hf ▸ Nat.mod_lt _ hkpos
  have hA2 : A = a + 2 ^ lo * f + 2 ^ lo * 2 ^ k * c := by
    rw [h1, h2, Nat.mul_add, Nat.mul_assoc, Nat.add_assoc]
  have hN : A - f * 2 ^ lo + v % 2 ^ k * 2 ^ lo = a + 2 ^ lo * (v % 2 ^ k + 2 ^ k * c) := by
    have e1 : A - f * 2 ^ lo = a + 2 ^ lo * 2 ^ k * c := by
      rw [hA2, Nat.mul_comm f]; omega
    rw [e1, Nat.mul_add, Nat.mul_comm (v % 2 ^ k), Nat.mul_assoc]; omega
  have hclt : c < 2 ^ m := by
    have : 2 ^ lo * 2 ^ k * c < 2 ^ lo * 2 ^ k * 2 ^ m := by rw [← h32]; omega
    exact Nat.lt_of_mul_lt_mul_left this
  have hlt : a + 2 ^ lo * (v % 2 ^ k + 2 ^ k * c) < 2 ^ 32 := by
    have e2 : v % 2 ^ k + 2 ^ k * c + 1 ≤ 2 ^ k * 2 ^ m := by
      have : 2 ^ k * (c + 1) ≤ 2 ^ k * 2 ^ m := Nat.mul_le_mul_left _ hclt
      rw [Nat.mul_add] at this; omega
    have e3 := Nat.mul_le_mul_left (2 ^ lo) e2
    rw [Nat.mul_add, ← Nat.mul_assoc, ← h32] at e3
    omega
  rw [hN, Nat.mod_eq_of_lt hlt, Nat.add_mul_div_left _ _ hpos, Nat.div_eq_of_lt halt, Nat.zero_add,
    Nat.add_mul_mod_self_left, Nat.mod_mod]

theorem State.fld_setFld_self (s : State) (f : Fld) (v : Nat) (h : f.lo ≤ f.hi) (hi : f.hi < 32) :
    (s.setFld f v).fld f = v % 2 ^ (f.hi + 1 - f.lo) := by
  simp only [State.fld, State.setFld, State.reg_setReg_self]
  exact bitsOf_setBits_self _ _ _ _ h hi

end Sys2Proof.Machine
end

