-- ==== Sys2Proof/Laws/Rings.lean ====
section
/-! SUPPORT. Events, counters, rings and completions touch the registers, the host interface and tally only; among the
registers those of the host window and of tally. -/

namespace Sys2Proof.Machine

/-- `t` differs from `s` in the registers, the host interface and tally at most. -/
def State.sameBut (s t : State) : Prop := t = { s with regs := t.regs, host := t.host, tly := t.tly }

@[refl] theorem State.sameBut.refl (s : State) : s.sameBut s := rfl

theorem State.sameBut.trans {s t u : State} (h : s.sameBut t) (k : t.sameBut u) : s.sameBut u := by
  unfold State.sameBut at *; rw [k, h]

theorem State.sameBut_setReg (s : State) (off : Nat) (v : Word) : s.sameBut (s.setReg off v) := rfl
theorem State.sameBut_setFld (s : State) (f : Fld) (v : Nat) : s.sameBut (s.setFld f v) := rfl
theorem State.sameBut_host (s : State) (x : HostSt) : s.sameBut { s with host := x } := rfl
theorem State.sameBut_tly (s : State) (x : TlySt) : s.sameBut { s with tly := x } := rfl

theorem State.sameBut.foldl {α : Type} (g : State → α → State) (l : List α) (s : State)
    (h : ∀ (s : State) x, s.sameBut (g s x)) : s.sameBut (l.foldl g s) := by
  induction l generalizing s with
  | nil => rfl
  | cons a l ih => exact (h s a).trans (ih _)

theorem State.sameBut_incCtr (s : State) (off k : Nat) : s.sameBut (s.incCtr off k).1 := by
  unfold State.incCtr; dsimp only; repeat' split
  all_goals rfl

theorem State.sameBut_sendMsix (s : State) (v : Nat) : s.sameBut (s.sendMsix v) := by
  unfold State.sendMsix; split <;> rfl

theorem State.sameBut_ringWrite (s : State) (r : Nat) (w : List Word) : s.sameBut (s.ringWrite r w) := by
  unfold State.ringWrite; dsimp only; repeat' split
  all_goals first | exact State.sameBut.trans (by rfl) (State.sameBut_sendMsix _ _) | rfl

theorem State.sameBut_evToFifo (s : State) (e : Event) : s.sameBut (s.evToFifo e) := by
  unfold State.evToFifo; dsimp only; repeat' split
  · rfl
  · rfl
  · exact State.sameBut.trans (by rfl) (State.sameBut_sendMsix _ _)
  · rfl

theorem State.sameBut_evToRing (s : State) (e : Event) : s.sameBut (s.evToRing e).1 := by
  unfold State.evToRing; dsimp only; repeat' split
  all_goals try dsimp only
  all_goals first
    | exact s.sameBut_incCtr _ _
    | exact (s.sameBut_incCtr _ _).trans rfl
    | exact State.sameBut.trans (by rfl) (State.sameBut_ringWrite _ _ _)
    | rfl

theorem State.sameBut_evToTally (s : State) (e : Event) : s.sameBut (s.evToTally e).1 := by
  unfold State.evToTally; dsimp only; repeat' split
  all_goals first
    | exact (s.sameBut_incCtr _ _).trans rfl
    | rfl

theorem State.sameBut_raiseN : ∀ (n : Nat) (s : State) (code source : Nat) (a0 a1 : Word),
    s.sameBut (State.raiseN n s code source a0 a1)
  | 0, _, _, _, _, _ => rfl
  | n + 1, s, code, source, a0, a1 => by
    unfold State.raiseN; dsimp only
    have h := ((s.sameBut_evToFifo (s.mkEvent code source a0 a1)).trans
      (State.sameBut_evToRing _ (s.mkEvent code source a0 a1))).trans (State.sameBut_evToTally _ (s.mkEvent code source a0 a1))
    have f := fun l => h.trans (State.sameBut.foldl (fun s off => State.raiseN n s 0x07 0 (BitVec.ofNat 32 off) 0) l _
      (fun s x => State.sameBut_raiseN n s _ _ _ _))
    split
    · exact (f _).trans (State.sameBut_raiseN n _ _ _ _ _)
    · exact f _

theorem State.sameBut_raise (s : State) (code source : Nat) (a0 a1 : Word) : s.sameBut (s.raise code source a0 a1) :=
  State.sameBut_raiseN 8 s code source a0 a1

theorem State.sameBut_raiseN2 (s : State) (code source a0 a1 : Nat) : s.sameBut (s.raiseN2 code source a0 a1) :=
  s.sameBut_raise _ _ _ _

theorem State.sameBut_raiseTally (s : State) (code source : Nat) : s.sameBut (s.raiseTally code source) := by
  unfold State.raiseTally; dsimp only
  have f := fun l => (s.sameBut_evToTally (s.mkEvent code source 0 0)).trans (State.sameBut.foldl
    (fun s off => s.raise 0x07 0 (BitVec.ofNat 32 off) 0) l _ (fun s x => s.sameBut_raise _ _ _ _))
  split
  · exact (f _).trans (State.sameBut_raise _ _ _ _ _)
  · exact f _

theorem State.sameBut_bumpBy (s : State) (off k : Nat) : s.sameBut (s.bumpBy off k) := by
  unfold State.bumpBy; dsimp only; split
  · exact (s.sameBut_incCtr _ _).trans (State.sameBut_raise _ _ _ _ _)
  · exact s.sameBut_incCtr _ _

theorem State.sameBut_bump (s : State) (off : Nat) : s.sameBut (s.bump off) := s.sameBut_bumpBy off 1

theorem State.sameBut_isolate (s : State) (m : Nat) : s.sameBut (s.isolate m) := rfl

theorem State.sameBut_cplToFifo (s : State) (c : Cpl) : s.sameBut (s.cplToFifo c) := by
  unfold State.cplToFifo; dsimp only; split
  · exact State.sameBut.trans (by rfl) (State.sameBut_sendMsix _ _)
  · rfl

theorem State.sameBut_cplToRing (s : State) (r : Nat) (c : Cpl) : s.sameBut (s.cplToRing r c) := by
  unfold State.cplToRing; dsimp only; repeat' split
  · exact s.sameBut_ringWrite _ _
  · rfl
  · exact State.sameBut.trans (by rfl) (State.sameBut_raise _ _ _ _ _)

theorem State.sameBut_drainHeld (s : State) : s.sameBut s.drainHeld := by
  unfold State.drainHeld; dsimp only
  have key : ∀ (l : List (Nat × Cpl)) (t : State × List (Nat × Cpl)), s.sameBut t.1 →
      s.sameBut (l.foldl (fun (t : State × List (Nat × Cpl)) h =>
        if t.1.ringRuns h.1 1 && !t.1.ringFull h.1 && !(t.2.any (fun k => k.1 == h.1)) then (t.1.ringWrite h.1 h.2.words, t.2)
        else (t.1, t.2 ++ [h])) t).1 := by
    intro l
    induction l with
    | nil => intro t h; exact h
    | cons a l ih =>
      intro t h
      refine ih _ ?_
      dsimp only
      split
      · exact h.trans (State.sameBut_ringWrite t.1 a.1 a.2.words)
      · exact h
  exact (key _ _ (State.sameBut.refl s)).trans rfl

theorem State.sameBut_postCpl (s : State) (src cring : Nat) (c : Cpl) : s.sameBut (s.postCpl src cring c) := by
  unfold State.postCpl; repeat' split
  · rfl
  · exact s.sameBut_cplToFifo _
  · exact s.sameBut_cplToRing _ _

theorem State.sameBut_single (s : State) (c : Ctx) (st d0 d1 : Nat) : s.sameBut (s.single c st d0 d1) :=
  s.sameBut_postCpl _ _ _

theorem State.sameBut_accept (s : State) (c : Ctx) (eff d1 : Nat) (sched : Bool) (late : Nat) :
    s.sameBut (s.accept c eff d1 sched late) := by
  unfold State.accept; exact (s.sameBut_postCpl _ _ _).trans rfl

theorem State.sameBut_hostDrained (s : State) : s.sameBut s.hostDrained := by
  unfold State.hostDrained; dsimp only; split
  · refine (State.sameBut.foldl _ _ s (fun s r => ?_)).trans rfl
    split
    · exact (State.sameBut_setFld s _ _).trans (State.sameBut_setFld _ _ _)
    · exact State.sameBut.refl s
  · rfl

theorem State.sameBut_finishAt (s : State) (h eff st d0 d1 : Nat) : s.sameBut (s.finishAt h eff st d0 d1) := by
  unfold State.finishAt; dsimp only; repeat' split
  · rfl
  · exact State.sameBut.trans (by rfl) (State.sameBut_hostDrained _)
  all_goals exact (State.sameBut.trans (by rfl) (State.sameBut_postCpl _ _ _ _)).trans (State.sameBut_hostDrained _)

theorem State.sameBut_finish (s : State) (h st d0 d1 : Nat) : s.sameBut (s.finish h st d0 d1) := by
  unfold State.finish; split
  · rfl
  · exact s.sameBut_finishAt _ _ _ _ _

theorem State.sameBut_finishOpt (s : State) (h : Option Nat) (st d0 d1 : Nat) : s.sameBut (s.finishOpt h st d0 d1) := by
  unfold State.finishOpt; split
  · rfl
  · exact s.sameBut_finish _ _ _ _

theorem State.sameBut_raiseLevel (s : State) (code : Nat) (o : Owner) (cmd : Bool) (a1 : Nat) :
    s.sameBut (s.raiseLevel code o cmd a1) := s.sameBut_raiseN2 _ _ _ _

theorem State.sameBut_takeCmd (s : State) (src : Nat) : s.sameBut (s.takeCmd src).1 := by
  have seq : s.sameBut (s.takeSeq src) := State.sameBut_host s _
  unfold State.takeCmd; dsimp only; repeat' split
  · exact State.sameBut.refl s
  · exact (State.sameBut_setFld s _ _).trans (State.sameBut_setReg _ _ _)
  · exact ((seq.trans (State.sameBut_setFld _ _ _)).trans (State.sameBut_setFld _ _ _)).trans (State.sameBut_setReg _ _ _)
  · exact seq.trans (State.sameBut_setFld _ _ _)
  · exact State.sameBut.refl s

end Sys2Proof.Machine
end

