-- ==== Sys2Proof/Laws/RingFields.lean ====
section
/-! SUPPORT. The fields that events, counters and completions leave as they were: one lemma per operation and field. -/

namespace Sys2Proof.Machine

theorem State.sameBut.stg {s t : State} (h : s.sameBut t) : t.stg = s.stg := by unfold State.sameBut at h; rw [h]
theorem State.sameBut.stgB {s t : State} (h : s.sameBut t) : t.stgB = s.stgB := by unfold State.sameBut at h; rw [h]
theorem State.sameBut.stgAt {s t : State} (h : s.sameBut t) : t.stgAt = s.stgAt := by unfold State.sameBut at h; rw [h]
theorem State.sameBut.sidx {s t : State} (h : s.sameBut t) : t.sidx = s.sidx := by unfold State.sameBut at h; rw [h]
theorem State.sameBut.time {s t : State} (h : s.sameBut t) : t.time = s.time := by unfold State.sameBut at h; rw [h]
theorem State.sameBut.glb {s t : State} (h : s.sameBut t) : t.glb = s.glb := by unfold State.sameBut at h; rw [h]
theorem State.sameBut.eng {s t : State} (h : s.sameBut t) : t.eng = s.eng := by unfold State.sameBut at h; rw [h]
theorem State.sameBut.scn {s t : State} (h : s.sameBut t) : t.scn = s.scn := by unfold State.sameBut at h; rw [h]
theorem State.sameBut.lnd {s t : State} (h : s.sameBut t) : t.lnd = s.lnd := by unfold State.sameBut at h; rw [h]
theorem State.sameBut.far {s t : State} (h : s.sameBut t) : t.far = s.far := by unfold State.sameBut at h; rw [h]
theorem State.sameBut.out {s t : State} (h : s.sameBut t) : t.out = s.out := by unfold State.sameBut at h; rw [h]
theorem State.sameBut.str {s t : State} (h : s.sameBut t) : t.str = s.str := by unfold State.sameBut at h; rw [h]
theorem State.sameBut.net {s t : State} (h : s.sameBut t) : t.net = s.net := by unfold State.sameBut at h; rw [h]
theorem State.sameBut.raft {s t : State} (h : s.sameBut t) : t.raft = s.raft := by unfold State.sameBut at h; rw [h]
theorem State.sameBut.ref {s t : State} (h : s.sameBut t) : t.ref = s.ref := by unfold State.sameBut at h; rw [h]
theorem State.sameBut.tim {s t : State} (h : s.sameBut t) : t.tim = s.tim := by unfold State.sameBut at h; rw [h]
theorem State.sameBut.pair {s t : State} (h : s.sameBut t) : t.pair = s.pair := by unfold State.sameBut at h; rw [h]
theorem State.sameBut.dac {s t : State} (h : s.sameBut t) : t.dac = s.dac := by unfold State.sameBut at h; rw [h]
theorem State.sameBut.sup {s t : State} (h : s.sameBut t) : t.sup = s.sup := by unfold State.sameBut at h; rw [h]
theorem State.sameBut.fuse {s t : State} (h : s.sameBut t) : t.fuse = s.fuse := by unfold State.sameBut at h; rw [h]
theorem State.sameBut.boot {s t : State} (h : s.sameBut t) : t.boot = s.boot := by unfold State.sameBut at h; rw [h]
theorem State.sameBut.freeCtr {s t : State} (h : s.sameBut t) : t.freeCtr = s.freeCtr := by unfold State.sameBut at h; rw [h]
theorem State.sameBut.pending {s t : State} (h : s.sameBut t) : t.pending = s.pending := by unfold State.sameBut at h; rw [h]

theorem State.sameBut.engOf {s t : State} (h : s.sameBut t) (e : Nat) : t.engOf e = s.engOf e := by
  unfold State.engOf; rw [h.eng]

@[simp] theorem State.sendMsix_stg (s : State) (v : Nat) : (s.sendMsix v).stg = s.stg := (s.sameBut_sendMsix _).stg
@[simp] theorem State.sendMsix_stgB (s : State) (v : Nat) : (s.sendMsix v).stgB = s.stgB := (s.sameBut_sendMsix _).stgB
@[simp] theorem State.sendMsix_stgAt (s : State) (v : Nat) : (s.sendMsix v).stgAt = s.stgAt := (s.sameBut_sendMsix _).stgAt
@[simp] theorem State.sendMsix_sidx (s : State) (v : Nat) : (s.sendMsix v).sidx = s.sidx := (s.sameBut_sendMsix _).sidx
@[simp] theorem State.sendMsix_time (s : State) (v : Nat) : (s.sendMsix v).time = s.time := (s.sameBut_sendMsix _).time
@[simp] theorem State.sendMsix_glb (s : State) (v : Nat) : (s.sendMsix v).glb = s.glb := (s.sameBut_sendMsix _).glb
@[simp] theorem State.sendMsix_eng (s : State) (v : Nat) : (s.sendMsix v).eng = s.eng := (s.sameBut_sendMsix _).eng
@[simp] theorem State.sendMsix_scn (s : State) (v : Nat) : (s.sendMsix v).scn = s.scn := (s.sameBut_sendMsix _).scn
@[simp] theorem State.sendMsix_lnd (s : State) (v : Nat) : (s.sendMsix v).lnd = s.lnd := (s.sameBut_sendMsix _).lnd
@[simp] theorem State.sendMsix_far (s : State) (v : Nat) : (s.sendMsix v).far = s.far := (s.sameBut_sendMsix _).far
@[simp] theorem State.sendMsix_out (s : State) (v : Nat) : (s.sendMsix v).out = s.out := (s.sameBut_sendMsix _).out
@[simp] theorem State.sendMsix_str (s : State) (v : Nat) : (s.sendMsix v).str = s.str := (s.sameBut_sendMsix _).str
@[simp] theorem State.sendMsix_net (s : State) (v : Nat) : (s.sendMsix v).net = s.net := (s.sameBut_sendMsix _).net
@[simp] theorem State.sendMsix_raft (s : State) (v : Nat) : (s.sendMsix v).raft = s.raft := (s.sameBut_sendMsix _).raft
@[simp] theorem State.sendMsix_ref (s : State) (v : Nat) : (s.sendMsix v).ref = s.ref := (s.sameBut_sendMsix _).ref
@[simp] theorem State.sendMsix_tim (s : State) (v : Nat) : (s.sendMsix v).tim = s.tim := (s.sameBut_sendMsix _).tim
@[simp] theorem State.sendMsix_pair (s : State) (v : Nat) : (s.sendMsix v).pair = s.pair := (s.sameBut_sendMsix _).pair
@[simp] theorem State.sendMsix_dac (s : State) (v : Nat) : (s.sendMsix v).dac = s.dac := (s.sameBut_sendMsix _).dac
@[simp] theorem State.sendMsix_sup (s : State) (v : Nat) : (s.sendMsix v).sup = s.sup := (s.sameBut_sendMsix _).sup
@[simp] theorem State.sendMsix_fuse (s : State) (v : Nat) : (s.sendMsix v).fuse = s.fuse := (s.sameBut_sendMsix _).fuse
@[simp] theorem State.sendMsix_boot (s : State) (v : Nat) : (s.sendMsix v).boot = s.boot := (s.sameBut_sendMsix _).boot
@[simp] theorem State.sendMsix_freeCtr (s : State) (v : Nat) : (s.sendMsix v).freeCtr = s.freeCtr := (s.sameBut_sendMsix _).freeCtr
@[simp] theorem State.sendMsix_pending (s : State) (v : Nat) : (s.sendMsix v).pending = s.pending := (s.sameBut_sendMsix _).pending
@[simp] theorem State.sendMsix_engOf (s : State) (v : Nat) (e : Nat) : (s.sendMsix v).engOf e = s.engOf e := (s.sameBut_sendMsix _).engOf e

@[simp] theorem State.ringWrite_stg (s : State) (r : Nat) (w : List Word) : (s.ringWrite r w).stg = s.stg := (s.sameBut_ringWrite _ _).stg
@[simp] theorem State.ringWrite_stgB (s : State) (r : Nat) (w : List Word) : (s.ringWrite r w).stgB = s.stgB := (s.sameBut_ringWrite _ _).stgB
@[simp] theorem State.ringWrite_stgAt (s : State) (r : Nat) (w : List Word) : (s.ringWrite r w).stgAt = s.stgAt := (s.sameBut_ringWrite _ _).stgAt
@[simp] theorem State.ringWrite_sidx (s : State) (r : Nat) (w : List Word) : (s.ringWrite r w).sidx = s.sidx := (s.sameBut_ringWrite _ _).sidx
@[simp] theorem State.ringWrite_time (s : State) (r : Nat) (w : List Word) : (s.ringWrite r w).time = s.time := (s.sameBut_ringWrite _ _).time
@[simp] theorem State.ringWrite_glb (s : State) (r : Nat) (w : List Word) : (s.ringWrite r w).glb = s.glb := (s.sameBut_ringWrite _ _).glb
@[simp] theorem State.ringWrite_eng (s : State) (r : Nat) (w : List Word) : (s.ringWrite r w).eng = s.eng := (s.sameBut_ringWrite _ _).eng
@[simp] theorem State.ringWrite_scn (s : State) (r : Nat) (w : List Word) : (s.ringWrite r w).scn = s.scn := (s.sameBut_ringWrite _ _).scn
@[simp] theorem State.ringWrite_lnd (s : State) (r : Nat) (w : List Word) : (s.ringWrite r w).lnd = s.lnd := (s.sameBut_ringWrite _ _).lnd
@[simp] theorem State.ringWrite_far (s : State) (r : Nat) (w : List Word) : (s.ringWrite r w).far = s.far := (s.sameBut_ringWrite _ _).far
@[simp] theorem State.ringWrite_out (s : State) (r : Nat) (w : List Word) : (s.ringWrite r w).out = s.out := (s.sameBut_ringWrite _ _).out
@[simp] theorem State.ringWrite_str (s : State) (r : Nat) (w : List Word) : (s.ringWrite r w).str = s.str := (s.sameBut_ringWrite _ _).str
@[simp] theorem State.ringWrite_net (s : State) (r : Nat) (w : List Word) : (s.ringWrite r w).net = s.net := (s.sameBut_ringWrite _ _).net
@[simp] theorem State.ringWrite_raft (s : State) (r : Nat) (w : List Word) : (s.ringWrite r w).raft = s.raft := (s.sameBut_ringWrite _ _).raft
@[simp] theorem State.ringWrite_ref (s : State) (r : Nat) (w : List Word) : (s.ringWrite r w).ref = s.ref := (s.sameBut_ringWrite _ _).ref
@[simp] theorem State.ringWrite_tim (s : State) (r : Nat) (w : List Word) : (s.ringWrite r w).tim = s.tim := (s.sameBut_ringWrite _ _).tim
@[simp] theorem State.ringWrite_pair (s : State) (r : Nat) (w : List Word) : (s.ringWrite r w).pair = s.pair := (s.sameBut_ringWrite _ _).pair
@[simp] theorem State.ringWrite_dac (s : State) (r : Nat) (w : List Word) : (s.ringWrite r w).dac = s.dac := (s.sameBut_ringWrite _ _).dac
@[simp] theorem State.ringWrite_sup (s : State) (r : Nat) (w : List Word) : (s.ringWrite r w).sup = s.sup := (s.sameBut_ringWrite _ _).sup
@[simp] theorem State.ringWrite_fuse (s : State) (r : Nat) (w : List Word) : (s.ringWrite r w).fuse = s.fuse := (s.sameBut_ringWrite _ _).fuse
@[simp] theorem State.ringWrite_boot (s : State) (r : Nat) (w : List Word) : (s.ringWrite r w).boot = s.boot := (s.sameBut_ringWrite _ _).boot
@[simp] theorem State.ringWrite_freeCtr (s : State) (r : Nat) (w : List Word) : (s.ringWrite r w).freeCtr = s.freeCtr := (s.sameBut_ringWrite _ _).freeCtr
@[simp] theorem State.ringWrite_pending (s : State) (r : Nat) (w : List Word) : (s.ringWrite r w).pending = s.pending := (s.sameBut_ringWrite _ _).pending
@[simp] theorem State.ringWrite_engOf (s : State) (r : Nat) (w : List Word) (e : Nat) : (s.ringWrite r w).engOf e = s.engOf e := (s.sameBut_ringWrite _ _).engOf e

@[simp] theorem State.raise_stg (s : State) (code source : Nat) (a0 a1 : Word) : (s.raise code source a0 a1).stg = s.stg := (s.sameBut_raise _ _ _ _).stg
@[simp] theorem State.raise_stgB (s : State) (code source : Nat) (a0 a1 : Word) : (s.raise code source a0 a1).stgB = s.stgB := (s.sameBut_raise _ _ _ _).stgB
@[simp] theorem State.raise_stgAt (s : State) (code source : Nat) (a0 a1 : Word) : (s.raise code source a0 a1).stgAt = s.stgAt := (s.sameBut_raise _ _ _ _).stgAt
@[simp] theorem State.raise_sidx (s : State) (code source : Nat) (a0 a1 : Word) : (s.raise code source a0 a1).sidx = s.sidx := (s.sameBut_raise _ _ _ _).sidx
@[simp] theorem State.raise_time (s : State) (code source : Nat) (a0 a1 : Word) : (s.raise code source a0 a1).time = s.time := (s.sameBut_raise _ _ _ _).time
@[simp] theorem State.raise_glb (s : State) (code source : Nat) (a0 a1 : Word) : (s.raise code source a0 a1).glb = s.glb := (s.sameBut_raise _ _ _ _).glb
@[simp] theorem State.raise_eng (s : State) (code source : Nat) (a0 a1 : Word) : (s.raise code source a0 a1).eng = s.eng := (s.sameBut_raise _ _ _ _).eng
@[simp] theorem State.raise_scn (s : State) (code source : Nat) (a0 a1 : Word) : (s.raise code source a0 a1).scn = s.scn := (s.sameBut_raise _ _ _ _).scn
@[simp] theorem State.raise_lnd (s : State) (code source : Nat) (a0 a1 : Word) : (s.raise code source a0 a1).lnd = s.lnd := (s.sameBut_raise _ _ _ _).lnd
@[simp] theorem State.raise_far (s : State) (code source : Nat) (a0 a1 : Word) : (s.raise code source a0 a1).far = s.far := (s.sameBut_raise _ _ _ _).far
@[simp] theorem State.raise_out (s : State) (code source : Nat) (a0 a1 : Word) : (s.raise code source a0 a1).out = s.out := (s.sameBut_raise _ _ _ _).out
@[simp] theorem State.raise_str (s : State) (code source : Nat) (a0 a1 : Word) : (s.raise code source a0 a1).str = s.str := (s.sameBut_raise _ _ _ _).str
@[simp] theorem State.raise_net (s : State) (code source : Nat) (a0 a1 : Word) : (s.raise code source a0 a1).net = s.net := (s.sameBut_raise _ _ _ _).net
@[simp] theorem State.raise_raft (s : State) (code source : Nat) (a0 a1 : Word) : (s.raise code source a0 a1).raft = s.raft := (s.sameBut_raise _ _ _ _).raft
@[simp] theorem State.raise_ref (s : State) (code source : Nat) (a0 a1 : Word) : (s.raise code source a0 a1).ref = s.ref := (s.sameBut_raise _ _ _ _).ref
@[simp] theorem State.raise_tim (s : State) (code source : Nat) (a0 a1 : Word) : (s.raise code source a0 a1).tim = s.tim := (s.sameBut_raise _ _ _ _).tim
@[simp] theorem State.raise_pair (s : State) (code source : Nat) (a0 a1 : Word) : (s.raise code source a0 a1).pair = s.pair := (s.sameBut_raise _ _ _ _).pair
@[simp] theorem State.raise_dac (s : State) (code source : Nat) (a0 a1 : Word) : (s.raise code source a0 a1).dac = s.dac := (s.sameBut_raise _ _ _ _).dac
@[simp] theorem State.raise_sup (s : State) (code source : Nat) (a0 a1 : Word) : (s.raise code source a0 a1).sup = s.sup := (s.sameBut_raise _ _ _ _).sup
@[simp] theorem State.raise_fuse (s : State) (code source : Nat) (a0 a1 : Word) : (s.raise code source a0 a1).fuse = s.fuse := (s.sameBut_raise _ _ _ _).fuse
@[simp] theorem State.raise_boot (s : State) (code source : Nat) (a0 a1 : Word) : (s.raise code source a0 a1).boot = s.boot := (s.sameBut_raise _ _ _ _).boot
@[simp] theorem State.raise_freeCtr (s : State) (code source : Nat) (a0 a1 : Word) : (s.raise code source a0 a1).freeCtr = s.freeCtr := (s.sameBut_raise _ _ _ _).freeCtr
@[simp] theorem State.raise_pending (s : State) (code source : Nat) (a0 a1 : Word) : (s.raise code source a0 a1).pending = s.pending := (s.sameBut_raise _ _ _ _).pending
@[simp] theorem State.raise_engOf (s : State) (code source : Nat) (a0 a1 : Word) (e : Nat) : (s.raise code source a0 a1).engOf e = s.engOf e := (s.sameBut_raise _ _ _ _).engOf e

@[simp] theorem State.raiseN2_stg (s : State) (code source a0 a1 : Nat) : (s.raiseN2 code source a0 a1).stg = s.stg := (s.sameBut_raiseN2 _ _ _ _).stg
@[simp] theorem State.raiseN2_stgB (s : State) (code source a0 a1 : Nat) : (s.raiseN2 code source a0 a1).stgB = s.stgB := (s.sameBut_raiseN2 _ _ _ _).stgB
@[simp] theorem State.raiseN2_stgAt (s : State) (code source a0 a1 : Nat) : (s.raiseN2 code source a0 a1).stgAt = s.stgAt := (s.sameBut_raiseN2 _ _ _ _).stgAt
@[simp] theorem State.raiseN2_sidx (s : State) (code source a0 a1 : Nat) : (s.raiseN2 code source a0 a1).sidx = s.sidx := (s.sameBut_raiseN2 _ _ _ _).sidx
@[simp] theorem State.raiseN2_time (s : State) (code source a0 a1 : Nat) : (s.raiseN2 code source a0 a1).time = s.time := (s.sameBut_raiseN2 _ _ _ _).time
@[simp] theorem State.raiseN2_glb (s : State) (code source a0 a1 : Nat) : (s.raiseN2 code source a0 a1).glb = s.glb := (s.sameBut_raiseN2 _ _ _ _).glb
@[simp] theorem State.raiseN2_eng (s : State) (code source a0 a1 : Nat) : (s.raiseN2 code source a0 a1).eng = s.eng := (s.sameBut_raiseN2 _ _ _ _).eng
@[simp] theorem State.raiseN2_scn (s : State) (code source a0 a1 : Nat) : (s.raiseN2 code source a0 a1).scn = s.scn := (s.sameBut_raiseN2 _ _ _ _).scn
@[simp] theorem State.raiseN2_lnd (s : State) (code source a0 a1 : Nat) : (s.raiseN2 code source a0 a1).lnd = s.lnd := (s.sameBut_raiseN2 _ _ _ _).lnd
@[simp] theorem State.raiseN2_far (s : State) (code source a0 a1 : Nat) : (s.raiseN2 code source a0 a1).far = s.far := (s.sameBut_raiseN2 _ _ _ _).far
@[simp] theorem State.raiseN2_out (s : State) (code source a0 a1 : Nat) : (s.raiseN2 code source a0 a1).out = s.out := (s.sameBut_raiseN2 _ _ _ _).out
@[simp] theorem State.raiseN2_str (s : State) (code source a0 a1 : Nat) : (s.raiseN2 code source a0 a1).str = s.str := (s.sameBut_raiseN2 _ _ _ _).str
@[simp] theorem State.raiseN2_net (s : State) (code source a0 a1 : Nat) : (s.raiseN2 code source a0 a1).net = s.net := (s.sameBut_raiseN2 _ _ _ _).net
@[simp] theorem State.raiseN2_raft (s : State) (code source a0 a1 : Nat) : (s.raiseN2 code source a0 a1).raft = s.raft := (s.sameBut_raiseN2 _ _ _ _).raft
@[simp] theorem State.raiseN2_ref (s : State) (code source a0 a1 : Nat) : (s.raiseN2 code source a0 a1).ref = s.ref := (s.sameBut_raiseN2 _ _ _ _).ref
@[simp] theorem State.raiseN2_tim (s : State) (code source a0 a1 : Nat) : (s.raiseN2 code source a0 a1).tim = s.tim := (s.sameBut_raiseN2 _ _ _ _).tim
@[simp] theorem State.raiseN2_pair (s : State) (code source a0 a1 : Nat) : (s.raiseN2 code source a0 a1).pair = s.pair := (s.sameBut_raiseN2 _ _ _ _).pair
@[simp] theorem State.raiseN2_dac (s : State) (code source a0 a1 : Nat) : (s.raiseN2 code source a0 a1).dac = s.dac := (s.sameBut_raiseN2 _ _ _ _).dac
@[simp] theorem State.raiseN2_sup (s : State) (code source a0 a1 : Nat) : (s.raiseN2 code source a0 a1).sup = s.sup := (s.sameBut_raiseN2 _ _ _ _).sup
@[simp] theorem State.raiseN2_fuse (s : State) (code source a0 a1 : Nat) : (s.raiseN2 code source a0 a1).fuse = s.fuse := (s.sameBut_raiseN2 _ _ _ _).fuse
@[simp] theorem State.raiseN2_boot (s : State) (code source a0 a1 : Nat) : (s.raiseN2 code source a0 a1).boot = s.boot := (s.sameBut_raiseN2 _ _ _ _).boot
@[simp] theorem State.raiseN2_freeCtr (s : State) (code source a0 a1 : Nat) : (s.raiseN2 code source a0 a1).freeCtr = s.freeCtr := (s.sameBut_raiseN2 _ _ _ _).freeCtr
@[simp] theorem State.raiseN2_pending (s : State) (code source a0 a1 : Nat) : (s.raiseN2 code source a0 a1).pending = s.pending := (s.sameBut_raiseN2 _ _ _ _).pending
@[simp] theorem State.raiseN2_engOf (s : State) (code source a0 a1 : Nat) (e : Nat) : (s.raiseN2 code source a0 a1).engOf e = s.engOf e := (s.sameBut_raiseN2 _ _ _ _).engOf e

@[simp] theorem State.raiseTally_stg (s : State) (code source : Nat) : (s.raiseTally code source).stg = s.stg := (s.sameBut_raiseTally _ _).stg
@[simp] theorem State.raiseTally_stgB (s : State) (code source : Nat) : (s.raiseTally code source).stgB = s.stgB := (s.sameBut_raiseTally _ _).stgB
@[simp] theorem State.raiseTally_stgAt (s : State) (code source : Nat) : (s.raiseTally code source).stgAt = s.stgAt := (s.sameBut_raiseTally _ _).stgAt
@[simp] theorem State.raiseTally_sidx (s : State) (code source : Nat) : (s.raiseTally code source).sidx = s.sidx := (s.sameBut_raiseTally _ _).sidx
@[simp] theorem State.raiseTally_time (s : State) (code source : Nat) : (s.raiseTally code source).time = s.time := (s.sameBut_raiseTally _ _).time
@[simp] theorem State.raiseTally_glb (s : State) (code source : Nat) : (s.raiseTally code source).glb = s.glb := (s.sameBut_raiseTally _ _).glb
@[simp] theorem State.raiseTally_eng (s : State) (code source : Nat) : (s.raiseTally code source).eng = s.eng := (s.sameBut_raiseTally _ _).eng
@[simp] theorem State.raiseTally_scn (s : State) (code source : Nat) : (s.raiseTally code source).scn = s.scn := (s.sameBut_raiseTally _ _).scn
@[simp] theorem State.raiseTally_lnd (s : State) (code source : Nat) : (s.raiseTally code source).lnd = s.lnd := (s.sameBut_raiseTally _ _).lnd
@[simp] theorem State.raiseTally_far (s : State) (code source : Nat) : (s.raiseTally code source).far = s.far := (s.sameBut_raiseTally _ _).far
@[simp] theorem State.raiseTally_out (s : State) (code source : Nat) : (s.raiseTally code source).out = s.out := (s.sameBut_raiseTally _ _).out
@[simp] theorem State.raiseTally_str (s : State) (code source : Nat) : (s.raiseTally code source).str = s.str := (s.sameBut_raiseTally _ _).str
@[simp] theorem State.raiseTally_net (s : State) (code source : Nat) : (s.raiseTally code source).net = s.net := (s.sameBut_raiseTally _ _).net
@[simp] theorem State.raiseTally_raft (s : State) (code source : Nat) : (s.raiseTally code source).raft = s.raft := (s.sameBut_raiseTally _ _).raft
@[simp] theorem State.raiseTally_ref (s : State) (code source : Nat) : (s.raiseTally code source).ref = s.ref := (s.sameBut_raiseTally _ _).ref
@[simp] theorem State.raiseTally_tim (s : State) (code source : Nat) : (s.raiseTally code source).tim = s.tim := (s.sameBut_raiseTally _ _).tim
@[simp] theorem State.raiseTally_pair (s : State) (code source : Nat) : (s.raiseTally code source).pair = s.pair := (s.sameBut_raiseTally _ _).pair
@[simp] theorem State.raiseTally_dac (s : State) (code source : Nat) : (s.raiseTally code source).dac = s.dac := (s.sameBut_raiseTally _ _).dac
@[simp] theorem State.raiseTally_sup (s : State) (code source : Nat) : (s.raiseTally code source).sup = s.sup := (s.sameBut_raiseTally _ _).sup
@[simp] theorem State.raiseTally_fuse (s : State) (code source : Nat) : (s.raiseTally code source).fuse = s.fuse := (s.sameBut_raiseTally _ _).fuse
@[simp] theorem State.raiseTally_boot (s : State) (code source : Nat) : (s.raiseTally code source).boot = s.boot := (s.sameBut_raiseTally _ _).boot
@[simp] theorem State.raiseTally_freeCtr (s : State) (code source : Nat) : (s.raiseTally code source).freeCtr = s.freeCtr := (s.sameBut_raiseTally _ _).freeCtr
@[simp] theorem State.raiseTally_pending (s : State) (code source : Nat) : (s.raiseTally code source).pending = s.pending := (s.sameBut_raiseTally _ _).pending
@[simp] theorem State.raiseTally_engOf (s : State) (code source : Nat) (e : Nat) : (s.raiseTally code source).engOf e = s.engOf e := (s.sameBut_raiseTally _ _).engOf e

@[simp] theorem State.bumpBy_stg (s : State) (off k : Nat) : (s.bumpBy off k).stg = s.stg := (s.sameBut_bumpBy _ _).stg
@[simp] theorem State.bumpBy_stgB (s : State) (off k : Nat) : (s.bumpBy off k).stgB = s.stgB := (s.sameBut_bumpBy _ _).stgB
@[simp] theorem State.bumpBy_stgAt (s : State) (off k : Nat) : (s.bumpBy off k).stgAt = s.stgAt := (s.sameBut_bumpBy _ _).stgAt
@[simp] theorem State.bumpBy_sidx (s : State) (off k : Nat) : (s.bumpBy off k).sidx = s.sidx := (s.sameBut_bumpBy _ _).sidx
@[simp] theorem State.bumpBy_time (s : State) (off k : Nat) : (s.bumpBy off k).time = s.time := (s.sameBut_bumpBy _ _).time
@[simp] theorem State.bumpBy_glb (s : State) (off k : Nat) : (s.bumpBy off k).glb = s.glb := (s.sameBut_bumpBy _ _).glb
@[simp] theorem State.bumpBy_eng (s : State) (off k : Nat) : (s.bumpBy off k).eng = s.eng := (s.sameBut_bumpBy _ _).eng
@[simp] theorem State.bumpBy_scn (s : State) (off k : Nat) : (s.bumpBy off k).scn = s.scn := (s.sameBut_bumpBy _ _).scn
@[simp] theorem State.bumpBy_lnd (s : State) (off k : Nat) : (s.bumpBy off k).lnd = s.lnd := (s.sameBut_bumpBy _ _).lnd
@[simp] theorem State.bumpBy_far (s : State) (off k : Nat) : (s.bumpBy off k).far = s.far := (s.sameBut_bumpBy _ _).far
@[simp] theorem State.bumpBy_out (s : State) (off k : Nat) : (s.bumpBy off k).out = s.out := (s.sameBut_bumpBy _ _).out
@[simp] theorem State.bumpBy_str (s : State) (off k : Nat) : (s.bumpBy off k).str = s.str := (s.sameBut_bumpBy _ _).str
@[simp] theorem State.bumpBy_net (s : State) (off k : Nat) : (s.bumpBy off k).net = s.net := (s.sameBut_bumpBy _ _).net
@[simp] theorem State.bumpBy_raft (s : State) (off k : Nat) : (s.bumpBy off k).raft = s.raft := (s.sameBut_bumpBy _ _).raft
@[simp] theorem State.bumpBy_ref (s : State) (off k : Nat) : (s.bumpBy off k).ref = s.ref := (s.sameBut_bumpBy _ _).ref
@[simp] theorem State.bumpBy_tim (s : State) (off k : Nat) : (s.bumpBy off k).tim = s.tim := (s.sameBut_bumpBy _ _).tim
@[simp] theorem State.bumpBy_pair (s : State) (off k : Nat) : (s.bumpBy off k).pair = s.pair := (s.sameBut_bumpBy _ _).pair
@[simp] theorem State.bumpBy_dac (s : State) (off k : Nat) : (s.bumpBy off k).dac = s.dac := (s.sameBut_bumpBy _ _).dac
@[simp] theorem State.bumpBy_sup (s : State) (off k : Nat) : (s.bumpBy off k).sup = s.sup := (s.sameBut_bumpBy _ _).sup
@[simp] theorem State.bumpBy_fuse (s : State) (off k : Nat) : (s.bumpBy off k).fuse = s.fuse := (s.sameBut_bumpBy _ _).fuse
@[simp] theorem State.bumpBy_boot (s : State) (off k : Nat) : (s.bumpBy off k).boot = s.boot := (s.sameBut_bumpBy _ _).boot
@[simp] theorem State.bumpBy_freeCtr (s : State) (off k : Nat) : (s.bumpBy off k).freeCtr = s.freeCtr := (s.sameBut_bumpBy _ _).freeCtr
@[simp] theorem State.bumpBy_pending (s : State) (off k : Nat) : (s.bumpBy off k).pending = s.pending := (s.sameBut_bumpBy _ _).pending
@[simp] theorem State.bumpBy_engOf (s : State) (off k : Nat) (e : Nat) : (s.bumpBy off k).engOf e = s.engOf e := (s.sameBut_bumpBy _ _).engOf e

@[simp] theorem State.bump_stg (s : State) (off : Nat) : (s.bump off).stg = s.stg := (s.sameBut_bump _).stg
@[simp] theorem State.bump_stgB (s : State) (off : Nat) : (s.bump off).stgB = s.stgB := (s.sameBut_bump _).stgB
@[simp] theorem State.bump_stgAt (s : State) (off : Nat) : (s.bump off).stgAt = s.stgAt := (s.sameBut_bump _).stgAt
@[simp] theorem State.bump_sidx (s : State) (off : Nat) : (s.bump off).sidx = s.sidx := (s.sameBut_bump _).sidx
@[simp] theorem State.bump_time (s : State) (off : Nat) : (s.bump off).time = s.time := (s.sameBut_bump _).time
@[simp] theorem State.bump_glb (s : State) (off : Nat) : (s.bump off).glb = s.glb := (s.sameBut_bump _).glb
@[simp] theorem State.bump_eng (s : State) (off : Nat) : (s.bump off).eng = s.eng := (s.sameBut_bump _).eng
@[simp] theorem State.bump_scn (s : State) (off : Nat) : (s.bump off).scn = s.scn := (s.sameBut_bump _).scn
@[simp] theorem State.bump_lnd (s : State) (off : Nat) : (s.bump off).lnd = s.lnd := (s.sameBut_bump _).lnd
@[simp] theorem State.bump_far (s : State) (off : Nat) : (s.bump off).far = s.far := (s.sameBut_bump _).far
@[simp] theorem State.bump_out (s : State) (off : Nat) : (s.bump off).out = s.out := (s.sameBut_bump _).out
@[simp] theorem State.bump_str (s : State) (off : Nat) : (s.bump off).str = s.str := (s.sameBut_bump _).str
@[simp] theorem State.bump_net (s : State) (off : Nat) : (s.bump off).net = s.net := (s.sameBut_bump _).net
@[simp] theorem State.bump_raft (s : State) (off : Nat) : (s.bump off).raft = s.raft := (s.sameBut_bump _).raft
@[simp] theorem State.bump_ref (s : State) (off : Nat) : (s.bump off).ref = s.ref := (s.sameBut_bump _).ref
@[simp] theorem State.bump_tim (s : State) (off : Nat) : (s.bump off).tim = s.tim := (s.sameBut_bump _).tim
@[simp] theorem State.bump_pair (s : State) (off : Nat) : (s.bump off).pair = s.pair := (s.sameBut_bump _).pair
@[simp] theorem State.bump_dac (s : State) (off : Nat) : (s.bump off).dac = s.dac := (s.sameBut_bump _).dac
@[simp] theorem State.bump_sup (s : State) (off : Nat) : (s.bump off).sup = s.sup := (s.sameBut_bump _).sup
@[simp] theorem State.bump_fuse (s : State) (off : Nat) : (s.bump off).fuse = s.fuse := (s.sameBut_bump _).fuse
@[simp] theorem State.bump_boot (s : State) (off : Nat) : (s.bump off).boot = s.boot := (s.sameBut_bump _).boot
@[simp] theorem State.bump_freeCtr (s : State) (off : Nat) : (s.bump off).freeCtr = s.freeCtr := (s.sameBut_bump _).freeCtr
@[simp] theorem State.bump_pending (s : State) (off : Nat) : (s.bump off).pending = s.pending := (s.sameBut_bump _).pending
@[simp] theorem State.bump_engOf (s : State) (off : Nat) (e : Nat) : (s.bump off).engOf e = s.engOf e := (s.sameBut_bump _).engOf e

@[simp] theorem State.isolate_stg (s : State) (m : Nat) : (s.isolate m).stg = s.stg := (s.sameBut_isolate _).stg
@[simp] theorem State.isolate_stgB (s : State) (m : Nat) : (s.isolate m).stgB = s.stgB := (s.sameBut_isolate _).stgB
@[simp] theorem State.isolate_stgAt (s : State) (m : Nat) : (s.isolate m).stgAt = s.stgAt := (s.sameBut_isolate _).stgAt
@[simp] theorem State.isolate_sidx (s : State) (m : Nat) : (s.isolate m).sidx = s.sidx := (s.sameBut_isolate _).sidx
@[simp] theorem State.isolate_time (s : State) (m : Nat) : (s.isolate m).time = s.time := (s.sameBut_isolate _).time
@[simp] theorem State.isolate_glb (s : State) (m : Nat) : (s.isolate m).glb = s.glb := (s.sameBut_isolate _).glb
@[simp] theorem State.isolate_eng (s : State) (m : Nat) : (s.isolate m).eng = s.eng := (s.sameBut_isolate _).eng
@[simp] theorem State.isolate_scn (s : State) (m : Nat) : (s.isolate m).scn = s.scn := (s.sameBut_isolate _).scn
@[simp] theorem State.isolate_lnd (s : State) (m : Nat) : (s.isolate m).lnd = s.lnd := (s.sameBut_isolate _).lnd
@[simp] theorem State.isolate_far (s : State) (m : Nat) : (s.isolate m).far = s.far := (s.sameBut_isolate _).far
@[simp] theorem State.isolate_out (s : State) (m : Nat) : (s.isolate m).out = s.out := (s.sameBut_isolate _).out
@[simp] theorem State.isolate_str (s : State) (m : Nat) : (s.isolate m).str = s.str := (s.sameBut_isolate _).str
@[simp] theorem State.isolate_net (s : State) (m : Nat) : (s.isolate m).net = s.net := (s.sameBut_isolate _).net
@[simp] theorem State.isolate_raft (s : State) (m : Nat) : (s.isolate m).raft = s.raft := (s.sameBut_isolate _).raft
@[simp] theorem State.isolate_ref (s : State) (m : Nat) : (s.isolate m).ref = s.ref := (s.sameBut_isolate _).ref
@[simp] theorem State.isolate_tim (s : State) (m : Nat) : (s.isolate m).tim = s.tim := (s.sameBut_isolate _).tim
@[simp] theorem State.isolate_pair (s : State) (m : Nat) : (s.isolate m).pair = s.pair := (s.sameBut_isolate _).pair
@[simp] theorem State.isolate_dac (s : State) (m : Nat) : (s.isolate m).dac = s.dac := (s.sameBut_isolate _).dac
@[simp] theorem State.isolate_sup (s : State) (m : Nat) : (s.isolate m).sup = s.sup := (s.sameBut_isolate _).sup
@[simp] theorem State.isolate_fuse (s : State) (m : Nat) : (s.isolate m).fuse = s.fuse := (s.sameBut_isolate _).fuse
@[simp] theorem State.isolate_boot (s : State) (m : Nat) : (s.isolate m).boot = s.boot := (s.sameBut_isolate _).boot
@[simp] theorem State.isolate_freeCtr (s : State) (m : Nat) : (s.isolate m).freeCtr = s.freeCtr := (s.sameBut_isolate _).freeCtr
@[simp] theorem State.isolate_pending (s : State) (m : Nat) : (s.isolate m).pending = s.pending := (s.sameBut_isolate _).pending
@[simp] theorem State.isolate_engOf (s : State) (m : Nat) (e : Nat) : (s.isolate m).engOf e = s.engOf e := (s.sameBut_isolate _).engOf e

@[simp] theorem State.drainHeld_stg (s : State)  : s.drainHeld.stg = s.stg := (s.sameBut_drainHeld ).stg
@[simp] theorem State.drainHeld_stgB (s : State)  : s.drainHeld.stgB = s.stgB := (s.sameBut_drainHeld ).stgB
@[simp] theorem State.drainHeld_stgAt (s : State)  : s.drainHeld.stgAt = s.stgAt := (s.sameBut_drainHeld ).stgAt
@[simp] theorem State.drainHeld_sidx (s : State)  : s.drainHeld.sidx = s.sidx := (s.sameBut_drainHeld ).sidx
@[simp] theorem State.drainHeld_time (s : State)  : s.drainHeld.time = s.time := (s.sameBut_drainHeld ).time
@[simp] theorem State.drainHeld_glb (s : State)  : s.drainHeld.glb = s.glb := (s.sameBut_drainHeld ).glb
@[simp] theorem State.drainHeld_eng (s : State)  : s.drainHeld.eng = s.eng := (s.sameBut_drainHeld ).eng
@[simp] theorem State.drainHeld_scn (s : State)  : s.drainHeld.scn = s.scn := (s.sameBut_drainHeld ).scn
@[simp] theorem State.drainHeld_lnd (s : State)  : s.drainHeld.lnd = s.lnd := (s.sameBut_drainHeld ).lnd
@[simp] theorem State.drainHeld_far (s : State)  : s.drainHeld.far = s.far := (s.sameBut_drainHeld ).far
@[simp] theorem State.drainHeld_out (s : State)  : s.drainHeld.out = s.out := (s.sameBut_drainHeld ).out
@[simp] theorem State.drainHeld_str (s : State)  : s.drainHeld.str = s.str := (s.sameBut_drainHeld ).str
@[simp] theorem State.drainHeld_net (s : State)  : s.drainHeld.net = s.net := (s.sameBut_drainHeld ).net
@[simp] theorem State.drainHeld_raft (s : State)  : s.drainHeld.raft = s.raft := (s.sameBut_drainHeld ).raft
@[simp] theorem State.drainHeld_ref (s : State)  : s.drainHeld.ref = s.ref := (s.sameBut_drainHeld ).ref
@[simp] theorem State.drainHeld_tim (s : State)  : s.drainHeld.tim = s.tim := (s.sameBut_drainHeld ).tim
@[simp] theorem State.drainHeld_pair (s : State)  : s.drainHeld.pair = s.pair := (s.sameBut_drainHeld ).pair
@[simp] theorem State.drainHeld_dac (s : State)  : s.drainHeld.dac = s.dac := (s.sameBut_drainHeld ).dac
@[simp] theorem State.drainHeld_sup (s : State)  : s.drainHeld.sup = s.sup := (s.sameBut_drainHeld ).sup
@[simp] theorem State.drainHeld_fuse (s : State)  : s.drainHeld.fuse = s.fuse := (s.sameBut_drainHeld ).fuse
@[simp] theorem State.drainHeld_boot (s : State)  : s.drainHeld.boot = s.boot := (s.sameBut_drainHeld ).boot
@[simp] theorem State.drainHeld_freeCtr (s : State)  : s.drainHeld.freeCtr = s.freeCtr := (s.sameBut_drainHeld ).freeCtr
@[simp] theorem State.drainHeld_pending (s : State)  : s.drainHeld.pending = s.pending := (s.sameBut_drainHeld ).pending
@[simp] theorem State.drainHeld_engOf (s : State)  (e : Nat) : s.drainHeld.engOf e = s.engOf e := (s.sameBut_drainHeld ).engOf e

@[simp] theorem State.postCpl_stg (s : State) (src cring : Nat) (c : Cpl) : (s.postCpl src cring c).stg = s.stg := (s.sameBut_postCpl _ _ _).stg
@[simp] theorem State.postCpl_stgB (s : State) (src cring : Nat) (c : Cpl) : (s.postCpl src cring c).stgB = s.stgB := (s.sameBut_postCpl _ _ _).stgB
@[simp] theorem State.postCpl_stgAt (s : State) (src cring : Nat) (c : Cpl) : (s.postCpl src cring c).stgAt = s.stgAt := (s.sameBut_postCpl _ _ _).stgAt
@[simp] theorem State.postCpl_sidx (s : State) (src cring : Nat) (c : Cpl) : (s.postCpl src cring c).sidx = s.sidx := (s.sameBut_postCpl _ _ _).sidx
@[simp] theorem State.postCpl_time (s : State) (src cring : Nat) (c : Cpl) : (s.postCpl src cring c).time = s.time := (s.sameBut_postCpl _ _ _).time
@[simp] theorem State.postCpl_glb (s : State) (src cring : Nat) (c : Cpl) : (s.postCpl src cring c).glb = s.glb := (s.sameBut_postCpl _ _ _).glb
@[simp] theorem State.postCpl_eng (s : State) (src cring : Nat) (c : Cpl) : (s.postCpl src cring c).eng = s.eng := (s.sameBut_postCpl _ _ _).eng
@[simp] theorem State.postCpl_scn (s : State) (src cring : Nat) (c : Cpl) : (s.postCpl src cring c).scn = s.scn := (s.sameBut_postCpl _ _ _).scn
@[simp] theorem State.postCpl_lnd (s : State) (src cring : Nat) (c : Cpl) : (s.postCpl src cring c).lnd = s.lnd := (s.sameBut_postCpl _ _ _).lnd
@[simp] theorem State.postCpl_far (s : State) (src cring : Nat) (c : Cpl) : (s.postCpl src cring c).far = s.far := (s.sameBut_postCpl _ _ _).far
@[simp] theorem State.postCpl_out (s : State) (src cring : Nat) (c : Cpl) : (s.postCpl src cring c).out = s.out := (s.sameBut_postCpl _ _ _).out
@[simp] theorem State.postCpl_str (s : State) (src cring : Nat) (c : Cpl) : (s.postCpl src cring c).str = s.str := (s.sameBut_postCpl _ _ _).str
@[simp] theorem State.postCpl_net (s : State) (src cring : Nat) (c : Cpl) : (s.postCpl src cring c).net = s.net := (s.sameBut_postCpl _ _ _).net
@[simp] theorem State.postCpl_raft (s : State) (src cring : Nat) (c : Cpl) : (s.postCpl src cring c).raft = s.raft := (s.sameBut_postCpl _ _ _).raft
@[simp] theorem State.postCpl_ref (s : State) (src cring : Nat) (c : Cpl) : (s.postCpl src cring c).ref = s.ref := (s.sameBut_postCpl _ _ _).ref
@[simp] theorem State.postCpl_tim (s : State) (src cring : Nat) (c : Cpl) : (s.postCpl src cring c).tim = s.tim := (s.sameBut_postCpl _ _ _).tim
@[simp] theorem State.postCpl_pair (s : State) (src cring : Nat) (c : Cpl) : (s.postCpl src cring c).pair = s.pair := (s.sameBut_postCpl _ _ _).pair
@[simp] theorem State.postCpl_dac (s : State) (src cring : Nat) (c : Cpl) : (s.postCpl src cring c).dac = s.dac := (s.sameBut_postCpl _ _ _).dac
@[simp] theorem State.postCpl_sup (s : State) (src cring : Nat) (c : Cpl) : (s.postCpl src cring c).sup = s.sup := (s.sameBut_postCpl _ _ _).sup
@[simp] theorem State.postCpl_fuse (s : State) (src cring : Nat) (c : Cpl) : (s.postCpl src cring c).fuse = s.fuse := (s.sameBut_postCpl _ _ _).fuse
@[simp] theorem State.postCpl_boot (s : State) (src cring : Nat) (c : Cpl) : (s.postCpl src cring c).boot = s.boot := (s.sameBut_postCpl _ _ _).boot
@[simp] theorem State.postCpl_freeCtr (s : State) (src cring : Nat) (c : Cpl) : (s.postCpl src cring c).freeCtr = s.freeCtr := (s.sameBut_postCpl _ _ _).freeCtr
@[simp] theorem State.postCpl_pending (s : State) (src cring : Nat) (c : Cpl) : (s.postCpl src cring c).pending = s.pending := (s.sameBut_postCpl _ _ _).pending
@[simp] theorem State.postCpl_engOf (s : State) (src cring : Nat) (c : Cpl) (e : Nat) : (s.postCpl src cring c).engOf e = s.engOf e := (s.sameBut_postCpl _ _ _).engOf e

@[simp] theorem State.single_stg (s : State) (c : Ctx) (st d0 d1 : Nat) : (s.single c st d0 d1).stg = s.stg := (s.sameBut_single _ _ _ _).stg
@[simp] theorem State.single_stgB (s : State) (c : Ctx) (st d0 d1 : Nat) : (s.single c st d0 d1).stgB = s.stgB := (s.sameBut_single _ _ _ _).stgB
@[simp] theorem State.single_stgAt (s : State) (c : Ctx) (st d0 d1 : Nat) : (s.single c st d0 d1).stgAt = s.stgAt := (s.sameBut_single _ _ _ _).stgAt
@[simp] theorem State.single_sidx (s : State) (c : Ctx) (st d0 d1 : Nat) : (s.single c st d0 d1).sidx = s.sidx := (s.sameBut_single _ _ _ _).sidx
@[simp] theorem State.single_time (s : State) (c : Ctx) (st d0 d1 : Nat) : (s.single c st d0 d1).time = s.time := (s.sameBut_single _ _ _ _).time
@[simp] theorem State.single_glb (s : State) (c : Ctx) (st d0 d1 : Nat) : (s.single c st d0 d1).glb = s.glb := (s.sameBut_single _ _ _ _).glb
@[simp] theorem State.single_eng (s : State) (c : Ctx) (st d0 d1 : Nat) : (s.single c st d0 d1).eng = s.eng := (s.sameBut_single _ _ _ _).eng
@[simp] theorem State.single_scn (s : State) (c : Ctx) (st d0 d1 : Nat) : (s.single c st d0 d1).scn = s.scn := (s.sameBut_single _ _ _ _).scn
@[simp] theorem State.single_lnd (s : State) (c : Ctx) (st d0 d1 : Nat) : (s.single c st d0 d1).lnd = s.lnd := (s.sameBut_single _ _ _ _).lnd
@[simp] theorem State.single_far (s : State) (c : Ctx) (st d0 d1 : Nat) : (s.single c st d0 d1).far = s.far := (s.sameBut_single _ _ _ _).far
@[simp] theorem State.single_out (s : State) (c : Ctx) (st d0 d1 : Nat) : (s.single c st d0 d1).out = s.out := (s.sameBut_single _ _ _ _).out
@[simp] theorem State.single_str (s : State) (c : Ctx) (st d0 d1 : Nat) : (s.single c st d0 d1).str = s.str := (s.sameBut_single _ _ _ _).str
@[simp] theorem State.single_net (s : State) (c : Ctx) (st d0 d1 : Nat) : (s.single c st d0 d1).net = s.net := (s.sameBut_single _ _ _ _).net
@[simp] theorem State.single_raft (s : State) (c : Ctx) (st d0 d1 : Nat) : (s.single c st d0 d1).raft = s.raft := (s.sameBut_single _ _ _ _).raft
@[simp] theorem State.single_ref (s : State) (c : Ctx) (st d0 d1 : Nat) : (s.single c st d0 d1).ref = s.ref := (s.sameBut_single _ _ _ _).ref
@[simp] theorem State.single_tim (s : State) (c : Ctx) (st d0 d1 : Nat) : (s.single c st d0 d1).tim = s.tim := (s.sameBut_single _ _ _ _).tim
@[simp] theorem State.single_pair (s : State) (c : Ctx) (st d0 d1 : Nat) : (s.single c st d0 d1).pair = s.pair := (s.sameBut_single _ _ _ _).pair
@[simp] theorem State.single_dac (s : State) (c : Ctx) (st d0 d1 : Nat) : (s.single c st d0 d1).dac = s.dac := (s.sameBut_single _ _ _ _).dac
@[simp] theorem State.single_sup (s : State) (c : Ctx) (st d0 d1 : Nat) : (s.single c st d0 d1).sup = s.sup := (s.sameBut_single _ _ _ _).sup
@[simp] theorem State.single_fuse (s : State) (c : Ctx) (st d0 d1 : Nat) : (s.single c st d0 d1).fuse = s.fuse := (s.sameBut_single _ _ _ _).fuse
@[simp] theorem State.single_boot (s : State) (c : Ctx) (st d0 d1 : Nat) : (s.single c st d0 d1).boot = s.boot := (s.sameBut_single _ _ _ _).boot
@[simp] theorem State.single_freeCtr (s : State) (c : Ctx) (st d0 d1 : Nat) : (s.single c st d0 d1).freeCtr = s.freeCtr := (s.sameBut_single _ _ _ _).freeCtr
@[simp] theorem State.single_pending (s : State) (c : Ctx) (st d0 d1 : Nat) : (s.single c st d0 d1).pending = s.pending := (s.sameBut_single _ _ _ _).pending
@[simp] theorem State.single_engOf (s : State) (c : Ctx) (st d0 d1 : Nat) (e : Nat) : (s.single c st d0 d1).engOf e = s.engOf e := (s.sameBut_single _ _ _ _).engOf e

@[simp] theorem State.accept_stg (s : State) (c : Ctx) (eff d1 : Nat) (sched : Bool) (late : Nat) : (s.accept c eff d1 sched late).stg = s.stg := (s.sameBut_accept _ _ _ _ _).stg
@[simp] theorem State.accept_stgB (s : State) (c : Ctx) (eff d1 : Nat) (sched : Bool) (late : Nat) : (s.accept c eff d1 sched late).stgB = s.stgB := (s.sameBut_accept _ _ _ _ _).stgB
@[simp] theorem State.accept_stgAt (s : State) (c : Ctx) (eff d1 : Nat) (sched : Bool) (late : Nat) : (s.accept c eff d1 sched late).stgAt = s.stgAt := (s.sameBut_accept _ _ _ _ _).stgAt
@[simp] theorem State.accept_sidx (s : State) (c : Ctx) (eff d1 : Nat) (sched : Bool) (late : Nat) : (s.accept c eff d1 sched late).sidx = s.sidx := (s.sameBut_accept _ _ _ _ _).sidx
@[simp] theorem State.accept_time (s : State) (c : Ctx) (eff d1 : Nat) (sched : Bool) (late : Nat) : (s.accept c eff d1 sched late).time = s.time := (s.sameBut_accept _ _ _ _ _).time
@[simp] theorem State.accept_glb (s : State) (c : Ctx) (eff d1 : Nat) (sched : Bool) (late : Nat) : (s.accept c eff d1 sched late).glb = s.glb := (s.sameBut_accept _ _ _ _ _).glb
@[simp] theorem State.accept_eng (s : State) (c : Ctx) (eff d1 : Nat) (sched : Bool) (late : Nat) : (s.accept c eff d1 sched late).eng = s.eng := (s.sameBut_accept _ _ _ _ _).eng
@[simp] theorem State.accept_scn (s : State) (c : Ctx) (eff d1 : Nat) (sched : Bool) (late : Nat) : (s.accept c eff d1 sched late).scn = s.scn := (s.sameBut_accept _ _ _ _ _).scn
@[simp] theorem State.accept_lnd (s : State) (c : Ctx) (eff d1 : Nat) (sched : Bool) (late : Nat) : (s.accept c eff d1 sched late).lnd = s.lnd := (s.sameBut_accept _ _ _ _ _).lnd
@[simp] theorem State.accept_far (s : State) (c : Ctx) (eff d1 : Nat) (sched : Bool) (late : Nat) : (s.accept c eff d1 sched late).far = s.far := (s.sameBut_accept _ _ _ _ _).far
@[simp] theorem State.accept_out (s : State) (c : Ctx) (eff d1 : Nat) (sched : Bool) (late : Nat) : (s.accept c eff d1 sched late).out = s.out := (s.sameBut_accept _ _ _ _ _).out
@[simp] theorem State.accept_str (s : State) (c : Ctx) (eff d1 : Nat) (sched : Bool) (late : Nat) : (s.accept c eff d1 sched late).str = s.str := (s.sameBut_accept _ _ _ _ _).str
@[simp] theorem State.accept_net (s : State) (c : Ctx) (eff d1 : Nat) (sched : Bool) (late : Nat) : (s.accept c eff d1 sched late).net = s.net := (s.sameBut_accept _ _ _ _ _).net
@[simp] theorem State.accept_raft (s : State) (c : Ctx) (eff d1 : Nat) (sched : Bool) (late : Nat) : (s.accept c eff d1 sched late).raft = s.raft := (s.sameBut_accept _ _ _ _ _).raft
@[simp] theorem State.accept_ref (s : State) (c : Ctx) (eff d1 : Nat) (sched : Bool) (late : Nat) : (s.accept c eff d1 sched late).ref = s.ref := (s.sameBut_accept _ _ _ _ _).ref
@[simp] theorem State.accept_tim (s : State) (c : Ctx) (eff d1 : Nat) (sched : Bool) (late : Nat) : (s.accept c eff d1 sched late).tim = s.tim := (s.sameBut_accept _ _ _ _ _).tim
@[simp] theorem State.accept_pair (s : State) (c : Ctx) (eff d1 : Nat) (sched : Bool) (late : Nat) : (s.accept c eff d1 sched late).pair = s.pair := (s.sameBut_accept _ _ _ _ _).pair
@[simp] theorem State.accept_dac (s : State) (c : Ctx) (eff d1 : Nat) (sched : Bool) (late : Nat) : (s.accept c eff d1 sched late).dac = s.dac := (s.sameBut_accept _ _ _ _ _).dac
@[simp] theorem State.accept_sup (s : State) (c : Ctx) (eff d1 : Nat) (sched : Bool) (late : Nat) : (s.accept c eff d1 sched late).sup = s.sup := (s.sameBut_accept _ _ _ _ _).sup
@[simp] theorem State.accept_fuse (s : State) (c : Ctx) (eff d1 : Nat) (sched : Bool) (late : Nat) : (s.accept c eff d1 sched late).fuse = s.fuse := (s.sameBut_accept _ _ _ _ _).fuse
@[simp] theorem State.accept_boot (s : State) (c : Ctx) (eff d1 : Nat) (sched : Bool) (late : Nat) : (s.accept c eff d1 sched late).boot = s.boot := (s.sameBut_accept _ _ _ _ _).boot
@[simp] theorem State.accept_freeCtr (s : State) (c : Ctx) (eff d1 : Nat) (sched : Bool) (late : Nat) : (s.accept c eff d1 sched late).freeCtr = s.freeCtr := (s.sameBut_accept _ _ _ _ _).freeCtr
@[simp] theorem State.accept_pending (s : State) (c : Ctx) (eff d1 : Nat) (sched : Bool) (late : Nat) : (s.accept c eff d1 sched late).pending = s.pending := (s.sameBut_accept _ _ _ _ _).pending
@[simp] theorem State.accept_engOf (s : State) (c : Ctx) (eff d1 : Nat) (sched : Bool) (late : Nat) (e : Nat) : (s.accept c eff d1 sched late).engOf e = s.engOf e := (s.sameBut_accept _ _ _ _ _).engOf e

@[simp] theorem State.hostDrained_stg (s : State)  : s.hostDrained.stg = s.stg := (s.sameBut_hostDrained ).stg
@[simp] theorem State.hostDrained_stgB (s : State)  : s.hostDrained.stgB = s.stgB := (s.sameBut_hostDrained ).stgB
@[simp] theorem State.hostDrained_stgAt (s : State)  : s.hostDrained.stgAt = s.stgAt := (s.sameBut_hostDrained ).stgAt
@[simp] theorem State.hostDrained_sidx (s : State)  : s.hostDrained.sidx = s.sidx := (s.sameBut_hostDrained ).sidx
@[simp] theorem State.hostDrained_time (s : State)  : s.hostDrained.time = s.time := (s.sameBut_hostDrained ).time
@[simp] theorem State.hostDrained_glb (s : State)  : s.hostDrained.glb = s.glb := (s.sameBut_hostDrained ).glb
@[simp] theorem State.hostDrained_eng (s : State)  : s.hostDrained.eng = s.eng := (s.sameBut_hostDrained ).eng
@[simp] theorem State.hostDrained_scn (s : State)  : s.hostDrained.scn = s.scn := (s.sameBut_hostDrained ).scn
@[simp] theorem State.hostDrained_lnd (s : State)  : s.hostDrained.lnd = s.lnd := (s.sameBut_hostDrained ).lnd
@[simp] theorem State.hostDrained_far (s : State)  : s.hostDrained.far = s.far := (s.sameBut_hostDrained ).far
@[simp] theorem State.hostDrained_out (s : State)  : s.hostDrained.out = s.out := (s.sameBut_hostDrained ).out
@[simp] theorem State.hostDrained_str (s : State)  : s.hostDrained.str = s.str := (s.sameBut_hostDrained ).str
@[simp] theorem State.hostDrained_net (s : State)  : s.hostDrained.net = s.net := (s.sameBut_hostDrained ).net
@[simp] theorem State.hostDrained_raft (s : State)  : s.hostDrained.raft = s.raft := (s.sameBut_hostDrained ).raft
@[simp] theorem State.hostDrained_ref (s : State)  : s.hostDrained.ref = s.ref := (s.sameBut_hostDrained ).ref
@[simp] theorem State.hostDrained_tim (s : State)  : s.hostDrained.tim = s.tim := (s.sameBut_hostDrained ).tim
@[simp] theorem State.hostDrained_pair (s : State)  : s.hostDrained.pair = s.pair := (s.sameBut_hostDrained ).pair
@[simp] theorem State.hostDrained_dac (s : State)  : s.hostDrained.dac = s.dac := (s.sameBut_hostDrained ).dac
@[simp] theorem State.hostDrained_sup (s : State)  : s.hostDrained.sup = s.sup := (s.sameBut_hostDrained ).sup
@[simp] theorem State.hostDrained_fuse (s : State)  : s.hostDrained.fuse = s.fuse := (s.sameBut_hostDrained ).fuse
@[simp] theorem State.hostDrained_boot (s : State)  : s.hostDrained.boot = s.boot := (s.sameBut_hostDrained ).boot
@[simp] theorem State.hostDrained_freeCtr (s : State)  : s.hostDrained.freeCtr = s.freeCtr := (s.sameBut_hostDrained ).freeCtr
@[simp] theorem State.hostDrained_pending (s : State)  : s.hostDrained.pending = s.pending := (s.sameBut_hostDrained ).pending
@[simp] theorem State.hostDrained_engOf (s : State)  (e : Nat) : s.hostDrained.engOf e = s.engOf e := (s.sameBut_hostDrained ).engOf e

@[simp] theorem State.finishAt_stg (s : State) (h eff st d0 d1 : Nat) : (s.finishAt h eff st d0 d1).stg = s.stg := (s.sameBut_finishAt _ _ _ _ _).stg
@[simp] theorem State.finishAt_stgB (s : State) (h eff st d0 d1 : Nat) : (s.finishAt h eff st d0 d1).stgB = s.stgB := (s.sameBut_finishAt _ _ _ _ _).stgB
@[simp] theorem State.finishAt_stgAt (s : State) (h eff st d0 d1 : Nat) : (s.finishAt h eff st d0 d1).stgAt = s.stgAt := (s.sameBut_finishAt _ _ _ _ _).stgAt
@[simp] theorem State.finishAt_sidx (s : State) (h eff st d0 d1 : Nat) : (s.finishAt h eff st d0 d1).sidx = s.sidx := (s.sameBut_finishAt _ _ _ _ _).sidx
@[simp] theorem State.finishAt_time (s : State) (h eff st d0 d1 : Nat) : (s.finishAt h eff st d0 d1).time = s.time := (s.sameBut_finishAt _ _ _ _ _).time
@[simp] theorem State.finishAt_glb (s : State) (h eff st d0 d1 : Nat) : (s.finishAt h eff st d0 d1).glb = s.glb := (s.sameBut_finishAt _ _ _ _ _).glb
@[simp] theorem State.finishAt_eng (s : State) (h eff st d0 d1 : Nat) : (s.finishAt h eff st d0 d1).eng = s.eng := (s.sameBut_finishAt _ _ _ _ _).eng
@[simp] theorem State.finishAt_scn (s : State) (h eff st d0 d1 : Nat) : (s.finishAt h eff st d0 d1).scn = s.scn := (s.sameBut_finishAt _ _ _ _ _).scn
@[simp] theorem State.finishAt_lnd (s : State) (h eff st d0 d1 : Nat) : (s.finishAt h eff st d0 d1).lnd = s.lnd := (s.sameBut_finishAt _ _ _ _ _).lnd
@[simp] theorem State.finishAt_far (s : State) (h eff st d0 d1 : Nat) : (s.finishAt h eff st d0 d1).far = s.far := (s.sameBut_finishAt _ _ _ _ _).far
@[simp] theorem State.finishAt_out (s : State) (h eff st d0 d1 : Nat) : (s.finishAt h eff st d0 d1).out = s.out := (s.sameBut_finishAt _ _ _ _ _).out
@[simp] theorem State.finishAt_str (s : State) (h eff st d0 d1 : Nat) : (s.finishAt h eff st d0 d1).str = s.str := (s.sameBut_finishAt _ _ _ _ _).str
@[simp] theorem State.finishAt_net (s : State) (h eff st d0 d1 : Nat) : (s.finishAt h eff st d0 d1).net = s.net := (s.sameBut_finishAt _ _ _ _ _).net
@[simp] theorem State.finishAt_raft (s : State) (h eff st d0 d1 : Nat) : (s.finishAt h eff st d0 d1).raft = s.raft := (s.sameBut_finishAt _ _ _ _ _).raft
@[simp] theorem State.finishAt_ref (s : State) (h eff st d0 d1 : Nat) : (s.finishAt h eff st d0 d1).ref = s.ref := (s.sameBut_finishAt _ _ _ _ _).ref
@[simp] theorem State.finishAt_tim (s : State) (h eff st d0 d1 : Nat) : (s.finishAt h eff st d0 d1).tim = s.tim := (s.sameBut_finishAt _ _ _ _ _).tim
@[simp] theorem State.finishAt_pair (s : State) (h eff st d0 d1 : Nat) : (s.finishAt h eff st d0 d1).pair = s.pair := (s.sameBut_finishAt _ _ _ _ _).pair
@[simp] theorem State.finishAt_dac (s : State) (h eff st d0 d1 : Nat) : (s.finishAt h eff st d0 d1).dac = s.dac := (s.sameBut_finishAt _ _ _ _ _).dac
@[simp] theorem State.finishAt_sup (s : State) (h eff st d0 d1 : Nat) : (s.finishAt h eff st d0 d1).sup = s.sup := (s.sameBut_finishAt _ _ _ _ _).sup
@[simp] theorem State.finishAt_fuse (s : State) (h eff st d0 d1 : Nat) : (s.finishAt h eff st d0 d1).fuse = s.fuse := (s.sameBut_finishAt _ _ _ _ _).fuse
@[simp] theorem State.finishAt_boot (s : State) (h eff st d0 d1 : Nat) : (s.finishAt h eff st d0 d1).boot = s.boot := (s.sameBut_finishAt _ _ _ _ _).boot
@[simp] theorem State.finishAt_freeCtr (s : State) (h eff st d0 d1 : Nat) : (s.finishAt h eff st d0 d1).freeCtr = s.freeCtr := (s.sameBut_finishAt _ _ _ _ _).freeCtr
@[simp] theorem State.finishAt_pending (s : State) (h eff st d0 d1 : Nat) : (s.finishAt h eff st d0 d1).pending = s.pending := (s.sameBut_finishAt _ _ _ _ _).pending
@[simp] theorem State.finishAt_engOf (s : State) (h eff st d0 d1 : Nat) (e : Nat) : (s.finishAt h eff st d0 d1).engOf e = s.engOf e := (s.sameBut_finishAt _ _ _ _ _).engOf e

@[simp] theorem State.finish_stg (s : State) (h st d0 d1 : Nat) : (s.finish h st d0 d1).stg = s.stg := (s.sameBut_finish _ _ _ _).stg
@[simp] theorem State.finish_stgB (s : State) (h st d0 d1 : Nat) : (s.finish h st d0 d1).stgB = s.stgB := (s.sameBut_finish _ _ _ _).stgB
@[simp] theorem State.finish_stgAt (s : State) (h st d0 d1 : Nat) : (s.finish h st d0 d1).stgAt = s.stgAt := (s.sameBut_finish _ _ _ _).stgAt
@[simp] theorem State.finish_sidx (s : State) (h st d0 d1 : Nat) : (s.finish h st d0 d1).sidx = s.sidx := (s.sameBut_finish _ _ _ _).sidx
@[simp] theorem State.finish_time (s : State) (h st d0 d1 : Nat) : (s.finish h st d0 d1).time = s.time := (s.sameBut_finish _ _ _ _).time
@[simp] theorem State.finish_glb (s : State) (h st d0 d1 : Nat) : (s.finish h st d0 d1).glb = s.glb := (s.sameBut_finish _ _ _ _).glb
@[simp] theorem State.finish_eng (s : State) (h st d0 d1 : Nat) : (s.finish h st d0 d1).eng = s.eng := (s.sameBut_finish _ _ _ _).eng
@[simp] theorem State.finish_scn (s : State) (h st d0 d1 : Nat) : (s.finish h st d0 d1).scn = s.scn := (s.sameBut_finish _ _ _ _).scn
@[simp] theorem State.finish_lnd (s : State) (h st d0 d1 : Nat) : (s.finish h st d0 d1).lnd = s.lnd := (s.sameBut_finish _ _ _ _).lnd
@[simp] theorem State.finish_far (s : State) (h st d0 d1 : Nat) : (s.finish h st d0 d1).far = s.far := (s.sameBut_finish _ _ _ _).far
@[simp] theorem State.finish_out (s : State) (h st d0 d1 : Nat) : (s.finish h st d0 d1).out = s.out := (s.sameBut_finish _ _ _ _).out
@[simp] theorem State.finish_str (s : State) (h st d0 d1 : Nat) : (s.finish h st d0 d1).str = s.str := (s.sameBut_finish _ _ _ _).str
@[simp] theorem State.finish_net (s : State) (h st d0 d1 : Nat) : (s.finish h st d0 d1).net = s.net := (s.sameBut_finish _ _ _ _).net
@[simp] theorem State.finish_raft (s : State) (h st d0 d1 : Nat) : (s.finish h st d0 d1).raft = s.raft := (s.sameBut_finish _ _ _ _).raft
@[simp] theorem State.finish_ref (s : State) (h st d0 d1 : Nat) : (s.finish h st d0 d1).ref = s.ref := (s.sameBut_finish _ _ _ _).ref
@[simp] theorem State.finish_tim (s : State) (h st d0 d1 : Nat) : (s.finish h st d0 d1).tim = s.tim := (s.sameBut_finish _ _ _ _).tim
@[simp] theorem State.finish_pair (s : State) (h st d0 d1 : Nat) : (s.finish h st d0 d1).pair = s.pair := (s.sameBut_finish _ _ _ _).pair
@[simp] theorem State.finish_dac (s : State) (h st d0 d1 : Nat) : (s.finish h st d0 d1).dac = s.dac := (s.sameBut_finish _ _ _ _).dac
@[simp] theorem State.finish_sup (s : State) (h st d0 d1 : Nat) : (s.finish h st d0 d1).sup = s.sup := (s.sameBut_finish _ _ _ _).sup
@[simp] theorem State.finish_fuse (s : State) (h st d0 d1 : Nat) : (s.finish h st d0 d1).fuse = s.fuse := (s.sameBut_finish _ _ _ _).fuse
@[simp] theorem State.finish_boot (s : State) (h st d0 d1 : Nat) : (s.finish h st d0 d1).boot = s.boot := (s.sameBut_finish _ _ _ _).boot
@[simp] theorem State.finish_freeCtr (s : State) (h st d0 d1 : Nat) : (s.finish h st d0 d1).freeCtr = s.freeCtr := (s.sameBut_finish _ _ _ _).freeCtr
@[simp] theorem State.finish_pending (s : State) (h st d0 d1 : Nat) : (s.finish h st d0 d1).pending = s.pending := (s.sameBut_finish _ _ _ _).pending
@[simp] theorem State.finish_engOf (s : State) (h st d0 d1 : Nat) (e : Nat) : (s.finish h st d0 d1).engOf e = s.engOf e := (s.sameBut_finish _ _ _ _).engOf e

@[simp] theorem State.finishOpt_stg (s : State) (h : Option Nat) (st d0 d1 : Nat) : (s.finishOpt h st d0 d1).stg = s.stg := (s.sameBut_finishOpt _ _ _ _).stg
@[simp] theorem State.finishOpt_stgB (s : State) (h : Option Nat) (st d0 d1 : Nat) : (s.finishOpt h st d0 d1).stgB = s.stgB := (s.sameBut_finishOpt _ _ _ _).stgB
@[simp] theorem State.finishOpt_stgAt (s : State) (h : Option Nat) (st d0 d1 : Nat) : (s.finishOpt h st d0 d1).stgAt = s.stgAt := (s.sameBut_finishOpt _ _ _ _).stgAt
@[simp] theorem State.finishOpt_sidx (s : State) (h : Option Nat) (st d0 d1 : Nat) : (s.finishOpt h st d0 d1).sidx = s.sidx := (s.sameBut_finishOpt _ _ _ _).sidx
@[simp] theorem State.finishOpt_time (s : State) (h : Option Nat) (st d0 d1 : Nat) : (s.finishOpt h st d0 d1).time = s.time := (s.sameBut_finishOpt _ _ _ _).time
@[simp] theorem State.finishOpt_glb (s : State) (h : Option Nat) (st d0 d1 : Nat) : (s.finishOpt h st d0 d1).glb = s.glb := (s.sameBut_finishOpt _ _ _ _).glb
@[simp] theorem State.finishOpt_eng (s : State) (h : Option Nat) (st d0 d1 : Nat) : (s.finishOpt h st d0 d1).eng = s.eng := (s.sameBut_finishOpt _ _ _ _).eng
@[simp] theorem State.finishOpt_scn (s : State) (h : Option Nat) (st d0 d1 : Nat) : (s.finishOpt h st d0 d1).scn = s.scn := (s.sameBut_finishOpt _ _ _ _).scn
@[simp] theorem State.finishOpt_lnd (s : State) (h : Option Nat) (st d0 d1 : Nat) : (s.finishOpt h st d0 d1).lnd = s.lnd := (s.sameBut_finishOpt _ _ _ _).lnd
@[simp] theorem State.finishOpt_far (s : State) (h : Option Nat) (st d0 d1 : Nat) : (s.finishOpt h st d0 d1).far = s.far := (s.sameBut_finishOpt _ _ _ _).far
@[simp] theorem State.finishOpt_out (s : State) (h : Option Nat) (st d0 d1 : Nat) : (s.finishOpt h st d0 d1).out = s.out := (s.sameBut_finishOpt _ _ _ _).out
@[simp] theorem State.finishOpt_str (s : State) (h : Option Nat) (st d0 d1 : Nat) : (s.finishOpt h st d0 d1).str = s.str := (s.sameBut_finishOpt _ _ _ _).str
@[simp] theorem State.finishOpt_net (s : State) (h : Option Nat) (st d0 d1 : Nat) : (s.finishOpt h st d0 d1).net = s.net := (s.sameBut_finishOpt _ _ _ _).net
@[simp] theorem State.finishOpt_raft (s : State) (h : Option Nat) (st d0 d1 : Nat) : (s.finishOpt h st d0 d1).raft = s.raft := (s.sameBut_finishOpt _ _ _ _).raft
@[simp] theorem State.finishOpt_ref (s : State) (h : Option Nat) (st d0 d1 : Nat) : (s.finishOpt h st d0 d1).ref = s.ref := (s.sameBut_finishOpt _ _ _ _).ref
@[simp] theorem State.finishOpt_tim (s : State) (h : Option Nat) (st d0 d1 : Nat) : (s.finishOpt h st d0 d1).tim = s.tim := (s.sameBut_finishOpt _ _ _ _).tim
@[simp] theorem State.finishOpt_pair (s : State) (h : Option Nat) (st d0 d1 : Nat) : (s.finishOpt h st d0 d1).pair = s.pair := (s.sameBut_finishOpt _ _ _ _).pair
@[simp] theorem State.finishOpt_dac (s : State) (h : Option Nat) (st d0 d1 : Nat) : (s.finishOpt h st d0 d1).dac = s.dac := (s.sameBut_finishOpt _ _ _ _).dac
@[simp] theorem State.finishOpt_sup (s : State) (h : Option Nat) (st d0 d1 : Nat) : (s.finishOpt h st d0 d1).sup = s.sup := (s.sameBut_finishOpt _ _ _ _).sup
@[simp] theorem State.finishOpt_fuse (s : State) (h : Option Nat) (st d0 d1 : Nat) : (s.finishOpt h st d0 d1).fuse = s.fuse := (s.sameBut_finishOpt _ _ _ _).fuse
@[simp] theorem State.finishOpt_boot (s : State) (h : Option Nat) (st d0 d1 : Nat) : (s.finishOpt h st d0 d1).boot = s.boot := (s.sameBut_finishOpt _ _ _ _).boot
@[simp] theorem State.finishOpt_freeCtr (s : State) (h : Option Nat) (st d0 d1 : Nat) : (s.finishOpt h st d0 d1).freeCtr = s.freeCtr := (s.sameBut_finishOpt _ _ _ _).freeCtr
@[simp] theorem State.finishOpt_pending (s : State) (h : Option Nat) (st d0 d1 : Nat) : (s.finishOpt h st d0 d1).pending = s.pending := (s.sameBut_finishOpt _ _ _ _).pending
@[simp] theorem State.finishOpt_engOf (s : State) (h : Option Nat) (st d0 d1 : Nat) (e : Nat) : (s.finishOpt h st d0 d1).engOf e = s.engOf e := (s.sameBut_finishOpt _ _ _ _).engOf e

@[simp] theorem State.raiseLevel_stg (s : State) (code : Nat) (o : Owner) (cmd : Bool) (a1 : Nat) : (s.raiseLevel code o cmd a1).stg = s.stg := (s.sameBut_raiseLevel _ _ _ _).stg
@[simp] theorem State.raiseLevel_stgB (s : State) (code : Nat) (o : Owner) (cmd : Bool) (a1 : Nat) : (s.raiseLevel code o cmd a1).stgB = s.stgB := (s.sameBut_raiseLevel _ _ _ _).stgB
@[simp] theorem State.raiseLevel_stgAt (s : State) (code : Nat) (o : Owner) (cmd : Bool) (a1 : Nat) : (s.raiseLevel code o cmd a1).stgAt = s.stgAt := (s.sameBut_raiseLevel _ _ _ _).stgAt
@[simp] theorem State.raiseLevel_sidx (s : State) (code : Nat) (o : Owner) (cmd : Bool) (a1 : Nat) : (s.raiseLevel code o cmd a1).sidx = s.sidx := (s.sameBut_raiseLevel _ _ _ _).sidx
@[simp] theorem State.raiseLevel_time (s : State) (code : Nat) (o : Owner) (cmd : Bool) (a1 : Nat) : (s.raiseLevel code o cmd a1).time = s.time := (s.sameBut_raiseLevel _ _ _ _).time
@[simp] theorem State.raiseLevel_glb (s : State) (code : Nat) (o : Owner) (cmd : Bool) (a1 : Nat) : (s.raiseLevel code o cmd a1).glb = s.glb := (s.sameBut_raiseLevel _ _ _ _).glb
@[simp] theorem State.raiseLevel_eng (s : State) (code : Nat) (o : Owner) (cmd : Bool) (a1 : Nat) : (s.raiseLevel code o cmd a1).eng = s.eng := (s.sameBut_raiseLevel _ _ _ _).eng
@[simp] theorem State.raiseLevel_scn (s : State) (code : Nat) (o : Owner) (cmd : Bool) (a1 : Nat) : (s.raiseLevel code o cmd a1).scn = s.scn := (s.sameBut_raiseLevel _ _ _ _).scn
@[simp] theorem State.raiseLevel_lnd (s : State) (code : Nat) (o : Owner) (cmd : Bool) (a1 : Nat) : (s.raiseLevel code o cmd a1).lnd = s.lnd := (s.sameBut_raiseLevel _ _ _ _).lnd
@[simp] theorem State.raiseLevel_far (s : State) (code : Nat) (o : Owner) (cmd : Bool) (a1 : Nat) : (s.raiseLevel code o cmd a1).far = s.far := (s.sameBut_raiseLevel _ _ _ _).far
@[simp] theorem State.raiseLevel_out (s : State) (code : Nat) (o : Owner) (cmd : Bool) (a1 : Nat) : (s.raiseLevel code o cmd a1).out = s.out := (s.sameBut_raiseLevel _ _ _ _).out
@[simp] theorem State.raiseLevel_str (s : State) (code : Nat) (o : Owner) (cmd : Bool) (a1 : Nat) : (s.raiseLevel code o cmd a1).str = s.str := (s.sameBut_raiseLevel _ _ _ _).str
@[simp] theorem State.raiseLevel_net (s : State) (code : Nat) (o : Owner) (cmd : Bool) (a1 : Nat) : (s.raiseLevel code o cmd a1).net = s.net := (s.sameBut_raiseLevel _ _ _ _).net
@[simp] theorem State.raiseLevel_raft (s : State) (code : Nat) (o : Owner) (cmd : Bool) (a1 : Nat) : (s.raiseLevel code o cmd a1).raft = s.raft := (s.sameBut_raiseLevel _ _ _ _).raft
@[simp] theorem State.raiseLevel_ref (s : State) (code : Nat) (o : Owner) (cmd : Bool) (a1 : Nat) : (s.raiseLevel code o cmd a1).ref = s.ref := (s.sameBut_raiseLevel _ _ _ _).ref
@[simp] theorem State.raiseLevel_tim (s : State) (code : Nat) (o : Owner) (cmd : Bool) (a1 : Nat) : (s.raiseLevel code o cmd a1).tim = s.tim := (s.sameBut_raiseLevel _ _ _ _).tim
@[simp] theorem State.raiseLevel_pair (s : State) (code : Nat) (o : Owner) (cmd : Bool) (a1 : Nat) : (s.raiseLevel code o cmd a1).pair = s.pair := (s.sameBut_raiseLevel _ _ _ _).pair
@[simp] theorem State.raiseLevel_dac (s : State) (code : Nat) (o : Owner) (cmd : Bool) (a1 : Nat) : (s.raiseLevel code o cmd a1).dac = s.dac := (s.sameBut_raiseLevel _ _ _ _).dac
@[simp] theorem State.raiseLevel_sup (s : State) (code : Nat) (o : Owner) (cmd : Bool) (a1 : Nat) : (s.raiseLevel code o cmd a1).sup = s.sup := (s.sameBut_raiseLevel _ _ _ _).sup
@[simp] theorem State.raiseLevel_fuse (s : State) (code : Nat) (o : Owner) (cmd : Bool) (a1 : Nat) : (s.raiseLevel code o cmd a1).fuse = s.fuse := (s.sameBut_raiseLevel _ _ _ _).fuse
@[simp] theorem State.raiseLevel_boot (s : State) (code : Nat) (o : Owner) (cmd : Bool) (a1 : Nat) : (s.raiseLevel code o cmd a1).boot = s.boot := (s.sameBut_raiseLevel _ _ _ _).boot
@[simp] theorem State.raiseLevel_freeCtr (s : State) (code : Nat) (o : Owner) (cmd : Bool) (a1 : Nat) : (s.raiseLevel code o cmd a1).freeCtr = s.freeCtr := (s.sameBut_raiseLevel _ _ _ _).freeCtr
@[simp] theorem State.raiseLevel_pending (s : State) (code : Nat) (o : Owner) (cmd : Bool) (a1 : Nat) : (s.raiseLevel code o cmd a1).pending = s.pending := (s.sameBut_raiseLevel _ _ _ _).pending
@[simp] theorem State.raiseLevel_engOf (s : State) (code : Nat) (o : Owner) (cmd : Bool) (a1 : Nat) (e : Nat) : (s.raiseLevel code o cmd a1).engOf e = s.engOf e := (s.sameBut_raiseLevel _ _ _ _).engOf e

@[simp] theorem State.takeCmd_stg (s : State) (src : Nat) : (s.takeCmd src).1.stg = s.stg := (s.sameBut_takeCmd _).stg
@[simp] theorem State.takeCmd_stgB (s : State) (src : Nat) : (s.takeCmd src).1.stgB = s.stgB := (s.sameBut_takeCmd _).stgB
@[simp] theorem State.takeCmd_stgAt (s : State) (src : Nat) : (s.takeCmd src).1.stgAt = s.stgAt := (s.sameBut_takeCmd _).stgAt
@[simp] theorem State.takeCmd_sidx (s : State) (src : Nat) : (s.takeCmd src).1.sidx = s.sidx := (s.sameBut_takeCmd _).sidx
@[simp] theorem State.takeCmd_time (s : State) (src : Nat) : (s.takeCmd src).1.time = s.time := (s.sameBut_takeCmd _).time
@[simp] theorem State.takeCmd_glb (s : State) (src : Nat) : (s.takeCmd src).1.glb = s.glb := (s.sameBut_takeCmd _).glb
@[simp] theorem State.takeCmd_eng (s : State) (src : Nat) : (s.takeCmd src).1.eng = s.eng := (s.sameBut_takeCmd _).eng
@[simp] theorem State.takeCmd_scn (s : State) (src : Nat) : (s.takeCmd src).1.scn = s.scn := (s.sameBut_takeCmd _).scn
@[simp] theorem State.takeCmd_lnd (s : State) (src : Nat) : (s.takeCmd src).1.lnd = s.lnd := (s.sameBut_takeCmd _).lnd
@[simp] theorem State.takeCmd_far (s : State) (src : Nat) : (s.takeCmd src).1.far = s.far := (s.sameBut_takeCmd _).far
@[simp] theorem State.takeCmd_out (s : State) (src : Nat) : (s.takeCmd src).1.out = s.out := (s.sameBut_takeCmd _).out
@[simp] theorem State.takeCmd_str (s : State) (src : Nat) : (s.takeCmd src).1.str = s.str := (s.sameBut_takeCmd _).str
@[simp] theorem State.takeCmd_net (s : State) (src : Nat) : (s.takeCmd src).1.net = s.net := (s.sameBut_takeCmd _).net
@[simp] theorem State.takeCmd_raft (s : State) (src : Nat) : (s.takeCmd src).1.raft = s.raft := (s.sameBut_takeCmd _).raft
@[simp] theorem State.takeCmd_ref (s : State) (src : Nat) : (s.takeCmd src).1.ref = s.ref := (s.sameBut_takeCmd _).ref
@[simp] theorem State.takeCmd_tim (s : State) (src : Nat) : (s.takeCmd src).1.tim = s.tim := (s.sameBut_takeCmd _).tim
@[simp] theorem State.takeCmd_pair (s : State) (src : Nat) : (s.takeCmd src).1.pair = s.pair := (s.sameBut_takeCmd _).pair
@[simp] theorem State.takeCmd_dac (s : State) (src : Nat) : (s.takeCmd src).1.dac = s.dac := (s.sameBut_takeCmd _).dac
@[simp] theorem State.takeCmd_sup (s : State) (src : Nat) : (s.takeCmd src).1.sup = s.sup := (s.sameBut_takeCmd _).sup
@[simp] theorem State.takeCmd_fuse (s : State) (src : Nat) : (s.takeCmd src).1.fuse = s.fuse := (s.sameBut_takeCmd _).fuse
@[simp] theorem State.takeCmd_boot (s : State) (src : Nat) : (s.takeCmd src).1.boot = s.boot := (s.sameBut_takeCmd _).boot
@[simp] theorem State.takeCmd_freeCtr (s : State) (src : Nat) : (s.takeCmd src).1.freeCtr = s.freeCtr := (s.sameBut_takeCmd _).freeCtr
@[simp] theorem State.takeCmd_pending (s : State) (src : Nat) : (s.takeCmd src).1.pending = s.pending := (s.sameBut_takeCmd _).pending
@[simp] theorem State.takeCmd_engOf (s : State) (src : Nat) (e : Nat) : (s.takeCmd src).1.engOf e = s.engOf e := (s.sameBut_takeCmd _).engOf e

end Sys2Proof.Machine
end

