-- ==== Sys2Proof/Laws/EventRegs.lean ====
section
/-! SUPPORT. Events change no register but those of the host window, TLY_LOST_CNT and TLY_PEG. -/

namespace Sys2Proof.Machine

/-- A register that no event, on its way to rings, FIFO and tally, can change. -/
def quietReg (o : Nat) : Prop := (o < 0x100000 ∨ 0x200000 ≤ o) ∧ o ≠ TLY_LOST_CNT.adr ∧ o ≠ TLY_PEG.adr

theorem CtrRule.index?_bound (r : CtrRule) (off i : Nat) (h : r.index? off = some i) :
    off = r.base + r.stride * i ∧ i < r.n := by
  unfold CtrRule.index? at h
  split at h
  · simp at h
  · split at h
    · next h1 h2 =>
      simp only [Option.some.injEq] at h; subst h
      refine ⟨?_, h2.2⟩
      have := Nat.mod_add_div (off - r.base) r.stride
      omega
    · simp at h

/-- The PEG word of a counter of the host window lies in the host window. -/
theorem pegOf_host (off w b : Nat) (h1 : 0x100000 ≤ off) (h2 : off < 0x200000) (h : pegOf off = some (w, b)) :
    0x100000 ≤ w ∧ w < 0x200000 := by
  unfold pegOf at h
  rw [if_pos (by omega)] at h
  obtain ⟨r, hr, hi⟩ := List.exists_of_findSome?_eq_some h
  simp only [Option.map_eq_some_iff, Prod.mk.injEq] at hi
  obtain ⟨i, hi, hw, -⟩ := hi
  simp only [ctrRulesLow, List.mem_cons, List.not_mem_nil, or_false] at hr
  rcases hr with rfl | rfl | rfl | rfl | rfl | rfl | rfl | rfl | rfl | rfl | rfl | rfl | rfl | rfl | rfl | rfl
  all_goals
    have hb := CtrRule.index?_bound _ off i hi
    simp only [ctrRun, ctrArr, ctrWin] at hb hw
    simp only [SUP_DIP_CNT.adr, THM_WARN_CNT.adr, HOST_ACCERR_CNT.adr, HOST_EVLOST_CNT.adr, LND_REFUSE_CNT.adr,
      KRF_QUEUED_CNT.adr, SCN_LATE_CNT.adr, OUT_REFUSE_CNT.adr, ST_SAT.adr, OUT_SATCNT.adr, TDM_FAULT_CNT.adr,
      TDM_SLIP_CNT.adr, TDM_SYNCLOSS_CNT.adr, BOOM_UNDER_CNT.adr, BOOM_OVER_CNT.adr, BOOM_DROP_CNT.adr] at hb
    try simp only [HOST_PEG.adr, HOST_EVPEG.adr] at hw
    omega

theorem pegOf_tlyLost : pegOf TLY_LOST_CNT.adr = some (TLY_PEG.adr, 0) := by decide

theorem State.reg_incCtr (s : State) (off k o : Nat) (h : o ≠ off) (hp : ∀ w b, pegOf off = some (w, b) → o ≠ w) :
    (s.incCtr off k).1.reg o = s.reg o := by
  unfold State.incCtr; dsimp only; repeat' split
  · rfl
  · exact s.reg_setReg_of_ne _ h
  · next hw => exact (State.reg_setReg_of_ne _ _ (hp _ _ hw)).trans (s.reg_setReg_of_ne _ h)
  · exact s.reg_setReg_of_ne _ h

theorem State.reg_incCtr_host (s : State) (off k o : Nat) (ho : quietReg o) (h1 : 0x100000 ≤ off) (h2 : off < 0x200000) :
    (s.incCtr off k).1.reg o = s.reg o := by
  have hq := ho.1
  refine s.reg_incCtr off k o (by omega) (fun w b hw => ?_)
  have := pegOf_host off w b h1 h2 hw
  omega

theorem State.reg_sendMsix (s : State) (v o : Nat) : (s.sendMsix v).reg o = s.reg o := by
  unfold State.sendMsix; split <;> rfl

theorem State.reg_ringWrite (s : State) (r : Nat) (l : List Word) (o : Nat) (ho : o ≠ (HOST_RING.DIDX (r % 128)).off) :
    (s.ringWrite r l).reg o = s.reg o := by
  unfold State.ringWrite; dsimp only; repeat' split
  all_goals first
    | exact (State.reg_sendMsix _ _ _).trans (State.reg_setFld_of_ne _ _ _ ho)
    | exact State.reg_setFld_of_ne _ _ _ ho

theorem bitsOf_lt (w : Word) (hi lo : Nat) : bitsOf w hi lo < 2 ^ (hi + 1 - lo) := Nat.mod_lt _ (Nat.two_pow_pos _)

theorem State.reg_evToFifo (s : State) (e : Event) (o : Nat) : (s.evToFifo e).reg o = s.reg o := by
  unfold State.evToFifo; dsimp only; repeat' split
  · rfl
  · rfl
  · exact State.reg_sendMsix _ _ _
  · rfl

theorem State.reg_evToRing (s : State) (e : Event) (o : Nat) (ho : quietReg o) : (s.evToRing e).1.reg o = s.reg o := by
  have hq := ho.1
  have hr : s.fld (HOST_XEVR.ERING e.code) < 128 := bitsOf_lt _ 6 0
  have h0 : HOST_NOROUTE_CNT.adr = 0x100114 := rfl
  have h3 : HOST_EVLOST_CNT.adr (s.fld (HOST_XEVR.ERING e.code)) = 0x103000 + 4 * s.fld (HOST_XEVR.ERING e.code) := rfl
  have h4 : (HOST_RING.DIDX (s.fld (HOST_XEVR.ERING e.code) % 128)).off =
    0x10100c + 0x20 * (s.fld (HOST_XEVR.ERING e.code) % 128) := rfl
  unfold State.evToRing; dsimp only
  generalize s.fld (HOST_XEVR.ERING e.code) = r at *
  split
  · rfl
  split
  · exact s.reg_incCtr_host _ _ _ ho (by omega) (by omega)
  split
  · exact (rfl : _ = (s.incCtr _ _).1.reg o).trans (s.reg_incCtr_host _ _ _ ho (by omega) (by omega))
  · exact (State.reg_ringWrite _ _ _ _ (by omega)).trans rfl

theorem State.reg_evToTally (s : State) (e : Event) (o : Nat) (ho : quietReg o) : (s.evToTally e).1.reg o = s.reg o := by
  unfold State.evToTally; dsimp only; repeat' split
  all_goals first
    | exact (rfl : _ = (s.incCtr _ _).1.reg o).trans (s.reg_incCtr _ _ _ ho.2.1 (fun w b hw => by
        rw [pegOf_tlyLost] at hw; simp only [Option.some.injEq, Prod.mk.injEq] at hw; rw [← hw.1]; exact ho.2.2))
    | rfl

theorem State.reg_foldl {α : Type} (g : State → α → State) (o : Nat) (l : List α) (s : State)
    (h : ∀ (s : State) x, (g s x).reg o = s.reg o) : (l.foldl g s).reg o = s.reg o := by
  induction l generalizing s with
  | nil => rfl
  | cons a l ih => exact (ih _).trans (h s a)

theorem State.reg_raiseN : ∀ (n : Nat) (s : State) (code source : Nat) (a0 a1 : Word) (o : Nat), quietReg o →
    (State.raiseN n s code source a0 a1).reg o = s.reg o
  | 0, _, _, _, _, _, _, _ => rfl
  | n + 1, s, code, source, a0, a1, o, ho => by
    unfold State.raiseN; dsimp only
    have h := ((State.reg_evToTally _ (s.mkEvent code source a0 a1) o ho).trans
      (State.reg_evToRing _ (s.mkEvent code source a0 a1) o ho)).trans (s.reg_evToFifo (s.mkEvent code source a0 a1) o)
    have f := fun l => (State.reg_foldl (fun s off => State.raiseN n s 0x07 0 (BitVec.ofNat 32 off) 0) o l _
      (fun s x => State.reg_raiseN n s _ _ _ _ o ho)).trans h
    split
    · exact (State.reg_raiseN n _ _ _ _ _ o ho).trans (f _)
    · exact f _

/-- An event leaves every quiet register as it was. -/
theorem State.reg_raise (s : State) (code source : Nat) (a0 a1 : Word) {o : Nat} (ho : quietReg o) :
    (s.raise code source a0 a1).reg o = s.reg o := State.reg_raiseN 8 s code source a0 a1 o ho

theorem State.reg_raiseN2 (s : State) (code source a0 a1 : Nat) {o : Nat} (ho : quietReg o) :
    (s.raiseN2 code source a0 a1).reg o = s.reg o := s.reg_raise _ _ _ _ ho

theorem State.reg_raiseTally (s : State) (code source : Nat) {o : Nat} (ho : quietReg o) :
    (s.raiseTally code source).reg o = s.reg o := by
  unfold State.raiseTally; dsimp only
  have h := s.reg_evToTally (s.mkEvent code source 0 0) o ho
  have f := fun l => (State.reg_foldl (fun s off => s.raise 0x07 0 (BitVec.ofNat 32 off) 0) o l _
    (fun s x => s.reg_raise _ _ _ _ ho)).trans h
  split
  · exact (State.reg_raise _ _ _ _ _ ho).trans (f _)
  · exact f _

/-- A counter's increment leaves every quiet register but the counter and its PEG word as it was. -/
theorem State.reg_bumpBy (s : State) (off k : Nat) {o : Nat} (ho : quietReg o) (h : o ≠ off)
    (hp : ∀ w b, pegOf off = some (w, b) → o ≠ w) : (s.bumpBy off k).reg o = s.reg o := by
  unfold State.bumpBy; dsimp only; split
  · exact (State.reg_raise _ _ _ _ _ ho).trans (s.reg_incCtr off k o h hp)
  · exact s.reg_incCtr off k o h hp

theorem State.reg_bump (s : State) (off : Nat) {o : Nat} (ho : quietReg o) (h : o ≠ off)
    (hp : ∀ w b, pegOf off = some (w, b) → o ≠ w) : (s.bump off).reg o = s.reg o := s.reg_bumpBy off 1 ho h hp

/-- A completion changes registers of the host window, TLY_LOST_CNT and TLY_PEG at most. -/
theorem State.reg_postCpl (s : State) (src cring : Nat) (c : Cpl) {o : Nat} (ho : quietReg o) :
    (s.postCpl src cring c).reg o = s.reg o := by
  have hq := ho.1
  have h4 : (HOST_RING.DIDX (cring % 128)).off = 0x10100c + 0x20 * (cring % 128) := rfl
  unfold State.postCpl; split
  · rfl
  split
  · unfold State.cplToFifo; dsimp only; split
    · exact State.reg_sendMsix _ _ _
    · rfl
  · unfold State.cplToRing; dsimp only; repeat' split
    · exact s.reg_ringWrite _ _ _ (by omega)
    · rfl
    · exact State.reg_raise _ _ _ _ _ ho

theorem State.reg_single (s : State) (c : Ctx) (st d0 d1 : Nat) {o : Nat} (ho : quietReg o) :
    (s.single c st d0 d1).reg o = s.reg o := s.reg_postCpl _ _ _ ho

theorem State.reg_accept (s : State) (c : Ctx) (eff d1 : Nat) (sched : Bool) (late : Nat) {o : Nat} (ho : quietReg o) :
    (s.accept c eff d1 sched late).reg o = s.reg o := by
  unfold State.accept; exact s.reg_postCpl _ _ _ ho

theorem State.reg_hostDrained (s : State) {o : Nat} (ho : quietReg o) : s.hostDrained.reg o = s.reg o := by
  have hq := ho.1
  unfold State.hostDrained; dsimp only; split
  · have key : ∀ (l : List Nat) (s : State), (∀ r ∈ l, r < 128) →
        ((l.foldl (fun (s : State) r => if s.flag (HOST_RING.EN r) then
          (s.setFld (HOST_RING.EN r) 0).setFld (HOST_RING.STATE r) 0 else s) s).reg o = s.reg o) := by
      intro l
      induction l with
      | nil => intro s _; rfl
      | cons r l ih =>
        intro s hl
        have hr := hl r List.mem_cons_self
        have h1 : (HOST_RING.EN r).off = 0x101008 + 0x20 * r := rfl
        have h2 : (HOST_RING.STATE r).off = 0x101014 + 0x20 * r := rfl
        refine (ih _ (fun x hx => hl x (List.mem_cons_of_mem _ hx))).trans ?_
        dsimp only; split
        · exact (State.reg_setFld_of_ne _ _ _ (by omega)).trans (State.reg_setFld_of_ne _ _ _ (by omega))
        · rfl
    exact key _ s (fun r hr => List.mem_range.mp hr)
  · rfl

theorem State.reg_finishAt (s : State) (h eff status d0 d1 : Nat) {o : Nat} (ho : quietReg o) :
    (s.finishAt h eff status d0 d1).reg o = s.reg o := by
  unfold State.finishAt; split
  · rfl
  · dsimp only; split
    · exact State.reg_hostDrained _ ho
    · exact (State.reg_hostDrained _ ho).trans (State.reg_postCpl _ _ _ _ ho)

theorem State.reg_finish (s : State) (h status d0 d1 : Nat) {o : Nat} (ho : quietReg o) :
    (s.finish h status d0 d1).reg o = s.reg o := by
  unfold State.finish; split
  · rfl
  · exact s.reg_finishAt _ _ _ _ _ ho

theorem State.reg_finishOpt (s : State) (h : Option Nat) (status d0 d1 : Nat) {o : Nat} (ho : quietReg o) :
    (s.finishOpt h status d0 d1).reg o = s.reg o := by
  unfold State.finishOpt; split
  · rfl
  · exact s.reg_finish _ _ _ _ ho

theorem State.reg_opDone (s : State) (h : Option Nat) (eff status d0 d1 q : Nat) {o : Nat} (ho : quietReg o) :
    (s.opDone h eff status d0 d1 q).reg o = s.reg o := by
  unfold State.opDone; split
  · rfl
  split
  · exact s.reg_finishAt _ _ _ _ _ ho
  · dsimp only; split
    · unfold State.sceneDone; exact State.reg_finishAt _ _ _ _ _ _ ho
    · rfl

theorem State.reg_raiseLevel (s : State) (code : Nat) (w : Owner) (cmd : Bool) (a1 : Nat) {o : Nat} (ho : quietReg o) :
    (s.raiseLevel code w cmd a1).reg o = s.reg o := s.reg_raiseN2 _ _ _ _ ho

/-- Taking a command changes registers of the host window at most. -/
theorem State.reg_takeCmd (s : State) (src : Nat) (hs : src < 128) {o : Nat} (ho : quietReg o) :
    (s.takeCmd src).1.reg o = s.reg o := by
  have hq := ho.1
  have h1 : HOST_CMD_STAT.REFUSED.off = 0x100044 := rfl
  have h2 : HOST_CMD_HANDLE.adr = 0x100040 := rfl
  have h3 : HOST_CMD_STAT.PENDING.off = 0x100044 := rfl
  have h4 : (HOST_RING.DIDX src).off = 0x10100c + 0x20 * src := rfl
  unfold State.takeCmd; dsimp only
  split
  · rfl
  split
  · split
    · exact (State.reg_setReg_of_ne _ _ (by omega)).trans (State.reg_setFld_of_ne _ _ _ (by omega))
    · exact (State.reg_setReg_of_ne _ _ (by omega)).trans ((State.reg_setFld_of_ne _ _ _ (by omega)).trans
        ((State.reg_setFld_of_ne _ _ _ (by omega)).trans rfl))
  · split
    · exact (State.reg_setFld_of_ne _ _ _ (by omega)).trans rfl
    · rfl

end Sys2Proof.Machine
end

