-- ==== Sys2Proof/Laws/Land.lean ====
section
/-! SUPPORT. Which registers of an engine each kind of result changes when it lands: one lemma per destination and register. -/

namespace Sys2Proof.Machine

theorem ERegs.with_v_v (r : ERegs) (x : Tbl (BitVec 64)) : ({ r with v := x } : ERegs).v = x := rfl
theorem ERegs.with_v_a (r : ERegs) (x : Tbl (BitVec 64)) : ({ r with v := x } : ERegs).a = r.a := rfl
theorem ERegs.with_v_am (r : ERegs) (x : Tbl (BitVec 64)) : ({ r with v := x } : ERegs).am = r.am := rfl
theorem ERegs.with_v_q (r : ERegs) (x : Tbl (BitVec 64)) : ({ r with v := x } : ERegs).q = r.q := rfl
theorem ERegs.with_v_g (r : ERegs) (x : Tbl (BitVec 64)) : ({ r with v := x } : ERegs).g = r.g := rfl
theorem ERegs.with_v_p (r : ERegs) (x : Tbl (BitVec 64)) : ({ r with v := x } : ERegs).p = r.p := rfl
theorem ERegs.with_v_m (r : ERegs) (x : Tbl (BitVec 64)) : ({ r with v := x } : ERegs).m = r.m := rfl
theorem ERegs.with_v_b (r : ERegs) (x : Tbl (BitVec 64)) : ({ r with v := x } : ERegs).b = r.b := rfl
theorem ERegs.with_v_bStg (r : ERegs) (x : Tbl (BitVec 64)) : ({ r with v := x } : ERegs).bStg = r.bStg := rfl
theorem ERegs.with_v_lcnt (r : ERegs) (x : Tbl (BitVec 64)) : ({ r with v := x } : ERegs).lcnt = r.lcnt := rfl
theorem ERegs.with_v_lbeg (r : ERegs) (x : Tbl (BitVec 64)) : ({ r with v := x } : ERegs).lbeg = r.lbeg := rfl
theorem ERegs.with_v_lend (r : ERegs) (x : Tbl (BitVec 64)) : ({ r with v := x } : ERegs).lend = r.lend := rfl
theorem ERegs.with_v_ldepth (r : ERegs) (x : Tbl (BitVec 64)) : ({ r with v := x } : ERegs).ldepth = r.ldepth := rfl
theorem ERegs.with_v_ectl (r : ERegs) (x : Tbl (BitVec 64)) : ({ r with v := x } : ERegs).ectl = r.ectl := rfl
theorem ERegs.with_v_est (r : ERegs) (x : Tbl (BitVec 64)) : ({ r with v := x } : ERegs).est = r.est := rfl
theorem ERegs.with_v_ipc (r : ERegs) (x : Tbl (BitVec 64)) : ({ r with v := x } : ERegs).ipc = r.ipc := rfl
theorem ERegs.with_v_iest (r : ERegs) (x : Tbl (BitVec 64)) : ({ r with v := x } : ERegs).iest = r.iest := rfl
theorem ERegs.with_v_ivb (r : ERegs) (x : Tbl (BitVec 64)) : ({ r with v := x } : ERegs).ivb = r.ivb := rfl
theorem ERegs.with_v_hr (r : ERegs) (x : Tbl (BitVec 64)) : ({ r with v := x } : ERegs).hr = r.hr := rfl
theorem ERegs.with_v_pc (r : ERegs) (x : Tbl (BitVec 64)) : ({ r with v := x } : ERegs).pc = r.pc := rfl
theorem ERegs.with_a_v (r : ERegs) (x : Tbl (BitVec 80)) : ({ r with a := x } : ERegs).v = r.v := rfl
theorem ERegs.with_a_a (r : ERegs) (x : Tbl (BitVec 80)) : ({ r with a := x } : ERegs).a = x := rfl
theorem ERegs.with_a_am (r : ERegs) (x : Tbl (BitVec 80)) : ({ r with a := x } : ERegs).am = r.am := rfl
theorem ERegs.with_a_q (r : ERegs) (x : Tbl (BitVec 80)) : ({ r with a := x } : ERegs).q = r.q := rfl
theorem ERegs.with_a_g (r : ERegs) (x : Tbl (BitVec 80)) : ({ r with a := x } : ERegs).g = r.g := rfl
theorem ERegs.with_a_p (r : ERegs) (x : Tbl (BitVec 80)) : ({ r with a := x } : ERegs).p = r.p := rfl
theorem ERegs.with_a_m (r : ERegs) (x : Tbl (BitVec 80)) : ({ r with a := x } : ERegs).m = r.m := rfl
theorem ERegs.with_a_b (r : ERegs) (x : Tbl (BitVec 80)) : ({ r with a := x } : ERegs).b = r.b := rfl
theorem ERegs.with_a_bStg (r : ERegs) (x : Tbl (BitVec 80)) : ({ r with a := x } : ERegs).bStg = r.bStg := rfl
theorem ERegs.with_a_lcnt (r : ERegs) (x : Tbl (BitVec 80)) : ({ r with a := x } : ERegs).lcnt = r.lcnt := rfl
theorem ERegs.with_a_lbeg (r : ERegs) (x : Tbl (BitVec 80)) : ({ r with a := x } : ERegs).lbeg = r.lbeg := rfl
theorem ERegs.with_a_lend (r : ERegs) (x : Tbl (BitVec 80)) : ({ r with a := x } : ERegs).lend = r.lend := rfl
theorem ERegs.with_a_ldepth (r : ERegs) (x : Tbl (BitVec 80)) : ({ r with a := x } : ERegs).ldepth = r.ldepth := rfl
theorem ERegs.with_a_ectl (r : ERegs) (x : Tbl (BitVec 80)) : ({ r with a := x } : ERegs).ectl = r.ectl := rfl
theorem ERegs.with_a_est (r : ERegs) (x : Tbl (BitVec 80)) : ({ r with a := x } : ERegs).est = r.est := rfl
theorem ERegs.with_a_ipc (r : ERegs) (x : Tbl (BitVec 80)) : ({ r with a := x } : ERegs).ipc = r.ipc := rfl
theorem ERegs.with_a_iest (r : ERegs) (x : Tbl (BitVec 80)) : ({ r with a := x } : ERegs).iest = r.iest := rfl
theorem ERegs.with_a_ivb (r : ERegs) (x : Tbl (BitVec 80)) : ({ r with a := x } : ERegs).ivb = r.ivb := rfl
theorem ERegs.with_a_hr (r : ERegs) (x : Tbl (BitVec 80)) : ({ r with a := x } : ERegs).hr = r.hr := rfl
theorem ERegs.with_a_pc (r : ERegs) (x : Tbl (BitVec 80)) : ({ r with a := x } : ERegs).pc = r.pc := rfl
theorem ERegs.with_am_v (r : ERegs) (x : Tbl (BitVec 80)) : ({ r with am := x } : ERegs).v = r.v := rfl
theorem ERegs.with_am_a (r : ERegs) (x : Tbl (BitVec 80)) : ({ r with am := x } : ERegs).a = r.a := rfl
theorem ERegs.with_am_am (r : ERegs) (x : Tbl (BitVec 80)) : ({ r with am := x } : ERegs).am = x := rfl
theorem ERegs.with_am_q (r : ERegs) (x : Tbl (BitVec 80)) : ({ r with am := x } : ERegs).q = r.q := rfl
theorem ERegs.with_am_g (r : ERegs) (x : Tbl (BitVec 80)) : ({ r with am := x } : ERegs).g = r.g := rfl
theorem ERegs.with_am_p (r : ERegs) (x : Tbl (BitVec 80)) : ({ r with am := x } : ERegs).p = r.p := rfl
theorem ERegs.with_am_m (r : ERegs) (x : Tbl (BitVec 80)) : ({ r with am := x } : ERegs).m = r.m := rfl
theorem ERegs.with_am_b (r : ERegs) (x : Tbl (BitVec 80)) : ({ r with am := x } : ERegs).b = r.b := rfl
theorem ERegs.with_am_bStg (r : ERegs) (x : Tbl (BitVec 80)) : ({ r with am := x } : ERegs).bStg = r.bStg := rfl
theorem ERegs.with_am_lcnt (r : ERegs) (x : Tbl (BitVec 80)) : ({ r with am := x } : ERegs).lcnt = r.lcnt := rfl
theorem ERegs.with_am_lbeg (r : ERegs) (x : Tbl (BitVec 80)) : ({ r with am := x } : ERegs).lbeg = r.lbeg := rfl
theorem ERegs.with_am_lend (r : ERegs) (x : Tbl (BitVec 80)) : ({ r with am := x } : ERegs).lend = r.lend := rfl
theorem ERegs.with_am_ldepth (r : ERegs) (x : Tbl (BitVec 80)) : ({ r with am := x } : ERegs).ldepth = r.ldepth := rfl
theorem ERegs.with_am_ectl (r : ERegs) (x : Tbl (BitVec 80)) : ({ r with am := x } : ERegs).ectl = r.ectl := rfl
theorem ERegs.with_am_est (r : ERegs) (x : Tbl (BitVec 80)) : ({ r with am := x } : ERegs).est = r.est := rfl
theorem ERegs.with_am_ipc (r : ERegs) (x : Tbl (BitVec 80)) : ({ r with am := x } : ERegs).ipc = r.ipc := rfl
theorem ERegs.with_am_iest (r : ERegs) (x : Tbl (BitVec 80)) : ({ r with am := x } : ERegs).iest = r.iest := rfl
theorem ERegs.with_am_ivb (r : ERegs) (x : Tbl (BitVec 80)) : ({ r with am := x } : ERegs).ivb = r.ivb := rfl
theorem ERegs.with_am_hr (r : ERegs) (x : Tbl (BitVec 80)) : ({ r with am := x } : ERegs).hr = r.hr := rfl
theorem ERegs.with_am_pc (r : ERegs) (x : Tbl (BitVec 80)) : ({ r with am := x } : ERegs).pc = r.pc := rfl
theorem ERegs.with_q_v (r : ERegs) (x : Tbl (BitVec 16)) : ({ r with q := x } : ERegs).v = r.v := rfl
theorem ERegs.with_q_a (r : ERegs) (x : Tbl (BitVec 16)) : ({ r with q := x } : ERegs).a = r.a := rfl
theorem ERegs.with_q_am (r : ERegs) (x : Tbl (BitVec 16)) : ({ r with q := x } : ERegs).am = r.am := rfl
theorem ERegs.with_q_q (r : ERegs) (x : Tbl (BitVec 16)) : ({ r with q := x } : ERegs).q = x := rfl
theorem ERegs.with_q_g (r : ERegs) (x : Tbl (BitVec 16)) : ({ r with q := x } : ERegs).g = r.g := rfl
theorem ERegs.with_q_p (r : ERegs) (x : Tbl (BitVec 16)) : ({ r with q := x } : ERegs).p = r.p := rfl
theorem ERegs.with_q_m (r : ERegs) (x : Tbl (BitVec 16)) : ({ r with q := x } : ERegs).m = r.m := rfl
theorem ERegs.with_q_b (r : ERegs) (x : Tbl (BitVec 16)) : ({ r with q := x } : ERegs).b = r.b := rfl
theorem ERegs.with_q_bStg (r : ERegs) (x : Tbl (BitVec 16)) : ({ r with q := x } : ERegs).bStg = r.bStg := rfl
theorem ERegs.with_q_lcnt (r : ERegs) (x : Tbl (BitVec 16)) : ({ r with q := x } : ERegs).lcnt = r.lcnt := rfl
theorem ERegs.with_q_lbeg (r : ERegs) (x : Tbl (BitVec 16)) : ({ r with q := x } : ERegs).lbeg = r.lbeg := rfl
theorem ERegs.with_q_lend (r : ERegs) (x : Tbl (BitVec 16)) : ({ r with q := x } : ERegs).lend = r.lend := rfl
theorem ERegs.with_q_ldepth (r : ERegs) (x : Tbl (BitVec 16)) : ({ r with q := x } : ERegs).ldepth = r.ldepth := rfl
theorem ERegs.with_q_ectl (r : ERegs) (x : Tbl (BitVec 16)) : ({ r with q := x } : ERegs).ectl = r.ectl := rfl
theorem ERegs.with_q_est (r : ERegs) (x : Tbl (BitVec 16)) : ({ r with q := x } : ERegs).est = r.est := rfl
theorem ERegs.with_q_ipc (r : ERegs) (x : Tbl (BitVec 16)) : ({ r with q := x } : ERegs).ipc = r.ipc := rfl
theorem ERegs.with_q_iest (r : ERegs) (x : Tbl (BitVec 16)) : ({ r with q := x } : ERegs).iest = r.iest := rfl
theorem ERegs.with_q_ivb (r : ERegs) (x : Tbl (BitVec 16)) : ({ r with q := x } : ERegs).ivb = r.ivb := rfl
theorem ERegs.with_q_hr (r : ERegs) (x : Tbl (BitVec 16)) : ({ r with q := x } : ERegs).hr = r.hr := rfl
theorem ERegs.with_q_pc (r : ERegs) (x : Tbl (BitVec 16)) : ({ r with q := x } : ERegs).pc = r.pc := rfl
theorem ERegs.with_g_v (r : ERegs) (x : Tbl Word) : ({ r with g := x } : ERegs).v = r.v := rfl
theorem ERegs.with_g_a (r : ERegs) (x : Tbl Word) : ({ r with g := x } : ERegs).a = r.a := rfl
theorem ERegs.with_g_am (r : ERegs) (x : Tbl Word) : ({ r with g := x } : ERegs).am = r.am := rfl
theorem ERegs.with_g_q (r : ERegs) (x : Tbl Word) : ({ r with g := x } : ERegs).q = r.q := rfl
theorem ERegs.with_g_g (r : ERegs) (x : Tbl Word) : ({ r with g := x } : ERegs).g = x := rfl
theorem ERegs.with_g_p (r : ERegs) (x : Tbl Word) : ({ r with g := x } : ERegs).p = r.p := rfl
theorem ERegs.with_g_m (r : ERegs) (x : Tbl Word) : ({ r with g := x } : ERegs).m = r.m := rfl
theorem ERegs.with_g_b (r : ERegs) (x : Tbl Word) : ({ r with g := x } : ERegs).b = r.b := rfl
theorem ERegs.with_g_bStg (r : ERegs) (x : Tbl Word) : ({ r with g := x } : ERegs).bStg = r.bStg := rfl
theorem ERegs.with_g_lcnt (r : ERegs) (x : Tbl Word) : ({ r with g := x } : ERegs).lcnt = r.lcnt := rfl
theorem ERegs.with_g_lbeg (r : ERegs) (x : Tbl Word) : ({ r with g := x } : ERegs).lbeg = r.lbeg := rfl
theorem ERegs.with_g_lend (r : ERegs) (x : Tbl Word) : ({ r with g := x } : ERegs).lend = r.lend := rfl
theorem ERegs.with_g_ldepth (r : ERegs) (x : Tbl Word) : ({ r with g := x } : ERegs).ldepth = r.ldepth := rfl
theorem ERegs.with_g_ectl (r : ERegs) (x : Tbl Word) : ({ r with g := x } : ERegs).ectl = r.ectl := rfl
theorem ERegs.with_g_est (r : ERegs) (x : Tbl Word) : ({ r with g := x } : ERegs).est = r.est := rfl
theorem ERegs.with_g_ipc (r : ERegs) (x : Tbl Word) : ({ r with g := x } : ERegs).ipc = r.ipc := rfl
theorem ERegs.with_g_iest (r : ERegs) (x : Tbl Word) : ({ r with g := x } : ERegs).iest = r.iest := rfl
theorem ERegs.with_g_ivb (r : ERegs) (x : Tbl Word) : ({ r with g := x } : ERegs).ivb = r.ivb := rfl
theorem ERegs.with_g_hr (r : ERegs) (x : Tbl Word) : ({ r with g := x } : ERegs).hr = r.hr := rfl
theorem ERegs.with_g_pc (r : ERegs) (x : Tbl Word) : ({ r with g := x } : ERegs).pc = r.pc := rfl
theorem ERegs.with_p_v (r : ERegs) (x : Tbl Word) : ({ r with p := x } : ERegs).v = r.v := rfl
theorem ERegs.with_p_a (r : ERegs) (x : Tbl Word) : ({ r with p := x } : ERegs).a = r.a := rfl
theorem ERegs.with_p_am (r : ERegs) (x : Tbl Word) : ({ r with p := x } : ERegs).am = r.am := rfl
theorem ERegs.with_p_q (r : ERegs) (x : Tbl Word) : ({ r with p := x } : ERegs).q = r.q := rfl
theorem ERegs.with_p_g (r : ERegs) (x : Tbl Word) : ({ r with p := x } : ERegs).g = r.g := rfl
theorem ERegs.with_p_p (r : ERegs) (x : Tbl Word) : ({ r with p := x } : ERegs).p = x := rfl
theorem ERegs.with_p_m (r : ERegs) (x : Tbl Word) : ({ r with p := x } : ERegs).m = r.m := rfl
theorem ERegs.with_p_b (r : ERegs) (x : Tbl Word) : ({ r with p := x } : ERegs).b = r.b := rfl
theorem ERegs.with_p_bStg (r : ERegs) (x : Tbl Word) : ({ r with p := x } : ERegs).bStg = r.bStg := rfl
theorem ERegs.with_p_lcnt (r : ERegs) (x : Tbl Word) : ({ r with p := x } : ERegs).lcnt = r.lcnt := rfl
theorem ERegs.with_p_lbeg (r : ERegs) (x : Tbl Word) : ({ r with p := x } : ERegs).lbeg = r.lbeg := rfl
theorem ERegs.with_p_lend (r : ERegs) (x : Tbl Word) : ({ r with p := x } : ERegs).lend = r.lend := rfl
theorem ERegs.with_p_ldepth (r : ERegs) (x : Tbl Word) : ({ r with p := x } : ERegs).ldepth = r.ldepth := rfl
theorem ERegs.with_p_ectl (r : ERegs) (x : Tbl Word) : ({ r with p := x } : ERegs).ectl = r.ectl := rfl
theorem ERegs.with_p_est (r : ERegs) (x : Tbl Word) : ({ r with p := x } : ERegs).est = r.est := rfl
theorem ERegs.with_p_ipc (r : ERegs) (x : Tbl Word) : ({ r with p := x } : ERegs).ipc = r.ipc := rfl
theorem ERegs.with_p_iest (r : ERegs) (x : Tbl Word) : ({ r with p := x } : ERegs).iest = r.iest := rfl
theorem ERegs.with_p_ivb (r : ERegs) (x : Tbl Word) : ({ r with p := x } : ERegs).ivb = r.ivb := rfl
theorem ERegs.with_p_hr (r : ERegs) (x : Tbl Word) : ({ r with p := x } : ERegs).hr = r.hr := rfl
theorem ERegs.with_p_pc (r : ERegs) (x : Tbl Word) : ({ r with p := x } : ERegs).pc = r.pc := rfl
theorem ERegs.with_m_v (r : ERegs) (x : Tbl Word) : ({ r with m := x } : ERegs).v = r.v := rfl
theorem ERegs.with_m_a (r : ERegs) (x : Tbl Word) : ({ r with m := x } : ERegs).a = r.a := rfl
theorem ERegs.with_m_am (r : ERegs) (x : Tbl Word) : ({ r with m := x } : ERegs).am = r.am := rfl
theorem ERegs.with_m_q (r : ERegs) (x : Tbl Word) : ({ r with m := x } : ERegs).q = r.q := rfl
theorem ERegs.with_m_g (r : ERegs) (x : Tbl Word) : ({ r with m := x } : ERegs).g = r.g := rfl
theorem ERegs.with_m_p (r : ERegs) (x : Tbl Word) : ({ r with m := x } : ERegs).p = r.p := rfl
theorem ERegs.with_m_m (r : ERegs) (x : Tbl Word) : ({ r with m := x } : ERegs).m = x := rfl
theorem ERegs.with_m_b (r : ERegs) (x : Tbl Word) : ({ r with m := x } : ERegs).b = r.b := rfl
theorem ERegs.with_m_bStg (r : ERegs) (x : Tbl Word) : ({ r with m := x } : ERegs).bStg = r.bStg := rfl
theorem ERegs.with_m_lcnt (r : ERegs) (x : Tbl Word) : ({ r with m := x } : ERegs).lcnt = r.lcnt := rfl
theorem ERegs.with_m_lbeg (r : ERegs) (x : Tbl Word) : ({ r with m := x } : ERegs).lbeg = r.lbeg := rfl
theorem ERegs.with_m_lend (r : ERegs) (x : Tbl Word) : ({ r with m := x } : ERegs).lend = r.lend := rfl
theorem ERegs.with_m_ldepth (r : ERegs) (x : Tbl Word) : ({ r with m := x } : ERegs).ldepth = r.ldepth := rfl
theorem ERegs.with_m_ectl (r : ERegs) (x : Tbl Word) : ({ r with m := x } : ERegs).ectl = r.ectl := rfl
theorem ERegs.with_m_est (r : ERegs) (x : Tbl Word) : ({ r with m := x } : ERegs).est = r.est := rfl
theorem ERegs.with_m_ipc (r : ERegs) (x : Tbl Word) : ({ r with m := x } : ERegs).ipc = r.ipc := rfl
theorem ERegs.with_m_iest (r : ERegs) (x : Tbl Word) : ({ r with m := x } : ERegs).iest = r.iest := rfl
theorem ERegs.with_m_ivb (r : ERegs) (x : Tbl Word) : ({ r with m := x } : ERegs).ivb = r.ivb := rfl
theorem ERegs.with_m_hr (r : ERegs) (x : Tbl Word) : ({ r with m := x } : ERegs).hr = r.hr := rfl
theorem ERegs.with_m_pc (r : ERegs) (x : Tbl Word) : ({ r with m := x } : ERegs).pc = r.pc := rfl
theorem ERegs.with_lcnt_v (r : ERegs) (x : Tbl Nat) : ({ r with lcnt := x } : ERegs).v = r.v := rfl
theorem ERegs.with_lcnt_a (r : ERegs) (x : Tbl Nat) : ({ r with lcnt := x } : ERegs).a = r.a := rfl
theorem ERegs.with_lcnt_am (r : ERegs) (x : Tbl Nat) : ({ r with lcnt := x } : ERegs).am = r.am := rfl
theorem ERegs.with_lcnt_q (r : ERegs) (x : Tbl Nat) : ({ r with lcnt := x } : ERegs).q = r.q := rfl
theorem ERegs.with_lcnt_g (r : ERegs) (x : Tbl Nat) : ({ r with lcnt := x } : ERegs).g = r.g := rfl
theorem ERegs.with_lcnt_p (r : ERegs) (x : Tbl Nat) : ({ r with lcnt := x } : ERegs).p = r.p := rfl
theorem ERegs.with_lcnt_m (r : ERegs) (x : Tbl Nat) : ({ r with lcnt := x } : ERegs).m = r.m := rfl
theorem ERegs.with_lcnt_b (r : ERegs) (x : Tbl Nat) : ({ r with lcnt := x } : ERegs).b = r.b := rfl
theorem ERegs.with_lcnt_bStg (r : ERegs) (x : Tbl Nat) : ({ r with lcnt := x } : ERegs).bStg = r.bStg := rfl
theorem ERegs.with_lcnt_lcnt (r : ERegs) (x : Tbl Nat) : ({ r with lcnt := x } : ERegs).lcnt = x := rfl
theorem ERegs.with_lcnt_lbeg (r : ERegs) (x : Tbl Nat) : ({ r with lcnt := x } : ERegs).lbeg = r.lbeg := rfl
theorem ERegs.with_lcnt_lend (r : ERegs) (x : Tbl Nat) : ({ r with lcnt := x } : ERegs).lend = r.lend := rfl
theorem ERegs.with_lcnt_ldepth (r : ERegs) (x : Tbl Nat) : ({ r with lcnt := x } : ERegs).ldepth = r.ldepth := rfl
theorem ERegs.with_lcnt_ectl (r : ERegs) (x : Tbl Nat) : ({ r with lcnt := x } : ERegs).ectl = r.ectl := rfl
theorem ERegs.with_lcnt_est (r : ERegs) (x : Tbl Nat) : ({ r with lcnt := x } : ERegs).est = r.est := rfl
theorem ERegs.with_lcnt_ipc (r : ERegs) (x : Tbl Nat) : ({ r with lcnt := x } : ERegs).ipc = r.ipc := rfl
theorem ERegs.with_lcnt_iest (r : ERegs) (x : Tbl Nat) : ({ r with lcnt := x } : ERegs).iest = r.iest := rfl
theorem ERegs.with_lcnt_ivb (r : ERegs) (x : Tbl Nat) : ({ r with lcnt := x } : ERegs).ivb = r.ivb := rfl
theorem ERegs.with_lcnt_hr (r : ERegs) (x : Tbl Nat) : ({ r with lcnt := x } : ERegs).hr = r.hr := rfl
theorem ERegs.with_lcnt_pc (r : ERegs) (x : Tbl Nat) : ({ r with lcnt := x } : ERegs).pc = r.pc := rfl
theorem ERegs.with_lbeg_v (r : ERegs) (x : Tbl Nat) : ({ r with lbeg := x } : ERegs).v = r.v := rfl
theorem ERegs.with_lbeg_a (r : ERegs) (x : Tbl Nat) : ({ r with lbeg := x } : ERegs).a = r.a := rfl
theorem ERegs.with_lbeg_am (r : ERegs) (x : Tbl Nat) : ({ r with lbeg := x } : ERegs).am = r.am := rfl
theorem ERegs.with_lbeg_q (r : ERegs) (x : Tbl Nat) : ({ r with lbeg := x } : ERegs).q = r.q := rfl
theorem ERegs.with_lbeg_g (r : ERegs) (x : Tbl Nat) : ({ r with lbeg := x } : ERegs).g = r.g := rfl
theorem ERegs.with_lbeg_p (r : ERegs) (x : Tbl Nat) : ({ r with lbeg := x } : ERegs).p = r.p := rfl
theorem ERegs.with_lbeg_m (r : ERegs) (x : Tbl Nat) : ({ r with lbeg := x } : ERegs).m = r.m := rfl
theorem ERegs.with_lbeg_b (r : ERegs) (x : Tbl Nat) : ({ r with lbeg := x } : ERegs).b = r.b := rfl
theorem ERegs.with_lbeg_bStg (r : ERegs) (x : Tbl Nat) : ({ r with lbeg := x } : ERegs).bStg = r.bStg := rfl
theorem ERegs.with_lbeg_lcnt (r : ERegs) (x : Tbl Nat) : ({ r with lbeg := x } : ERegs).lcnt = r.lcnt := rfl
theorem ERegs.with_lbeg_lbeg (r : ERegs) (x : Tbl Nat) : ({ r with lbeg := x } : ERegs).lbeg = x := rfl
theorem ERegs.with_lbeg_lend (r : ERegs) (x : Tbl Nat) : ({ r with lbeg := x } : ERegs).lend = r.lend := rfl
theorem ERegs.with_lbeg_ldepth (r : ERegs) (x : Tbl Nat) : ({ r with lbeg := x } : ERegs).ldepth = r.ldepth := rfl
theorem ERegs.with_lbeg_ectl (r : ERegs) (x : Tbl Nat) : ({ r with lbeg := x } : ERegs).ectl = r.ectl := rfl
theorem ERegs.with_lbeg_est (r : ERegs) (x : Tbl Nat) : ({ r with lbeg := x } : ERegs).est = r.est := rfl
theorem ERegs.with_lbeg_ipc (r : ERegs) (x : Tbl Nat) : ({ r with lbeg := x } : ERegs).ipc = r.ipc := rfl
theorem ERegs.with_lbeg_iest (r : ERegs) (x : Tbl Nat) : ({ r with lbeg := x } : ERegs).iest = r.iest := rfl
theorem ERegs.with_lbeg_ivb (r : ERegs) (x : Tbl Nat) : ({ r with lbeg := x } : ERegs).ivb = r.ivb := rfl
theorem ERegs.with_lbeg_hr (r : ERegs) (x : Tbl Nat) : ({ r with lbeg := x } : ERegs).hr = r.hr := rfl
theorem ERegs.with_lbeg_pc (r : ERegs) (x : Tbl Nat) : ({ r with lbeg := x } : ERegs).pc = r.pc := rfl
theorem ERegs.with_lend_v (r : ERegs) (x : Tbl Nat) : ({ r with lend := x } : ERegs).v = r.v := rfl
theorem ERegs.with_lend_a (r : ERegs) (x : Tbl Nat) : ({ r with lend := x } : ERegs).a = r.a := rfl
theorem ERegs.with_lend_am (r : ERegs) (x : Tbl Nat) : ({ r with lend := x } : ERegs).am = r.am := rfl
theorem ERegs.with_lend_q (r : ERegs) (x : Tbl Nat) : ({ r with lend := x } : ERegs).q = r.q := rfl
theorem ERegs.with_lend_g (r : ERegs) (x : Tbl Nat) : ({ r with lend := x } : ERegs).g = r.g := rfl
theorem ERegs.with_lend_p (r : ERegs) (x : Tbl Nat) : ({ r with lend := x } : ERegs).p = r.p := rfl
theorem ERegs.with_lend_m (r : ERegs) (x : Tbl Nat) : ({ r with lend := x } : ERegs).m = r.m := rfl
theorem ERegs.with_lend_b (r : ERegs) (x : Tbl Nat) : ({ r with lend := x } : ERegs).b = r.b := rfl
theorem ERegs.with_lend_bStg (r : ERegs) (x : Tbl Nat) : ({ r with lend := x } : ERegs).bStg = r.bStg := rfl
theorem ERegs.with_lend_lcnt (r : ERegs) (x : Tbl Nat) : ({ r with lend := x } : ERegs).lcnt = r.lcnt := rfl
theorem ERegs.with_lend_lbeg (r : ERegs) (x : Tbl Nat) : ({ r with lend := x } : ERegs).lbeg = r.lbeg := rfl
theorem ERegs.with_lend_lend (r : ERegs) (x : Tbl Nat) : ({ r with lend := x } : ERegs).lend = x := rfl
theorem ERegs.with_lend_ldepth (r : ERegs) (x : Tbl Nat) : ({ r with lend := x } : ERegs).ldepth = r.ldepth := rfl
theorem ERegs.with_lend_ectl (r : ERegs) (x : Tbl Nat) : ({ r with lend := x } : ERegs).ectl = r.ectl := rfl
theorem ERegs.with_lend_est (r : ERegs) (x : Tbl Nat) : ({ r with lend := x } : ERegs).est = r.est := rfl
theorem ERegs.with_lend_ipc (r : ERegs) (x : Tbl Nat) : ({ r with lend := x } : ERegs).ipc = r.ipc := rfl
theorem ERegs.with_lend_iest (r : ERegs) (x : Tbl Nat) : ({ r with lend := x } : ERegs).iest = r.iest := rfl
theorem ERegs.with_lend_ivb (r : ERegs) (x : Tbl Nat) : ({ r with lend := x } : ERegs).ivb = r.ivb := rfl
theorem ERegs.with_lend_hr (r : ERegs) (x : Tbl Nat) : ({ r with lend := x } : ERegs).hr = r.hr := rfl
theorem ERegs.with_lend_pc (r : ERegs) (x : Tbl Nat) : ({ r with lend := x } : ERegs).pc = r.pc := rfl
theorem ERegs.with_ldepth_v (r : ERegs) (x : Nat) : ({ r with ldepth := x } : ERegs).v = r.v := rfl
theorem ERegs.with_ldepth_a (r : ERegs) (x : Nat) : ({ r with ldepth := x } : ERegs).a = r.a := rfl
theorem ERegs.with_ldepth_am (r : ERegs) (x : Nat) : ({ r with ldepth := x } : ERegs).am = r.am := rfl
theorem ERegs.with_ldepth_q (r : ERegs) (x : Nat) : ({ r with ldepth := x } : ERegs).q = r.q := rfl
theorem ERegs.with_ldepth_g (r : ERegs) (x : Nat) : ({ r with ldepth := x } : ERegs).g = r.g := rfl
theorem ERegs.with_ldepth_p (r : ERegs) (x : Nat) : ({ r with ldepth := x } : ERegs).p = r.p := rfl
theorem ERegs.with_ldepth_m (r : ERegs) (x : Nat) : ({ r with ldepth := x } : ERegs).m = r.m := rfl
theorem ERegs.with_ldepth_b (r : ERegs) (x : Nat) : ({ r with ldepth := x } : ERegs).b = r.b := rfl
theorem ERegs.with_ldepth_bStg (r : ERegs) (x : Nat) : ({ r with ldepth := x } : ERegs).bStg = r.bStg := rfl
theorem ERegs.with_ldepth_lcnt (r : ERegs) (x : Nat) : ({ r with ldepth := x } : ERegs).lcnt = r.lcnt := rfl
theorem ERegs.with_ldepth_lbeg (r : ERegs) (x : Nat) : ({ r with ldepth := x } : ERegs).lbeg = r.lbeg := rfl
theorem ERegs.with_ldepth_lend (r : ERegs) (x : Nat) : ({ r with ldepth := x } : ERegs).lend = r.lend := rfl
theorem ERegs.with_ldepth_ldepth (r : ERegs) (x : Nat) : ({ r with ldepth := x } : ERegs).ldepth = x := rfl
theorem ERegs.with_ldepth_ectl (r : ERegs) (x : Nat) : ({ r with ldepth := x } : ERegs).ectl = r.ectl := rfl
theorem ERegs.with_ldepth_est (r : ERegs) (x : Nat) : ({ r with ldepth := x } : ERegs).est = r.est := rfl
theorem ERegs.with_ldepth_ipc (r : ERegs) (x : Nat) : ({ r with ldepth := x } : ERegs).ipc = r.ipc := rfl
theorem ERegs.with_ldepth_iest (r : ERegs) (x : Nat) : ({ r with ldepth := x } : ERegs).iest = r.iest := rfl
theorem ERegs.with_ldepth_ivb (r : ERegs) (x : Nat) : ({ r with ldepth := x } : ERegs).ivb = r.ivb := rfl
theorem ERegs.with_ldepth_hr (r : ERegs) (x : Nat) : ({ r with ldepth := x } : ERegs).hr = r.hr := rfl
theorem ERegs.with_ldepth_pc (r : ERegs) (x : Nat) : ({ r with ldepth := x } : ERegs).pc = r.pc := rfl
theorem ERegs.with_ectl_v (r : ERegs) (x : Word) : ({ r with ectl := x } : ERegs).v = r.v := rfl
theorem ERegs.with_ectl_a (r : ERegs) (x : Word) : ({ r with ectl := x } : ERegs).a = r.a := rfl
theorem ERegs.with_ectl_am (r : ERegs) (x : Word) : ({ r with ectl := x } : ERegs).am = r.am := rfl
theorem ERegs.with_ectl_q (r : ERegs) (x : Word) : ({ r with ectl := x } : ERegs).q = r.q := rfl
theorem ERegs.with_ectl_g (r : ERegs) (x : Word) : ({ r with ectl := x } : ERegs).g = r.g := rfl
theorem ERegs.with_ectl_p (r : ERegs) (x : Word) : ({ r with ectl := x } : ERegs).p = r.p := rfl
theorem ERegs.with_ectl_m (r : ERegs) (x : Word) : ({ r with ectl := x } : ERegs).m = r.m := rfl
theorem ERegs.with_ectl_b (r : ERegs) (x : Word) : ({ r with ectl := x } : ERegs).b = r.b := rfl
theorem ERegs.with_ectl_bStg (r : ERegs) (x : Word) : ({ r with ectl := x } : ERegs).bStg = r.bStg := rfl
theorem ERegs.with_ectl_lcnt (r : ERegs) (x : Word) : ({ r with ectl := x } : ERegs).lcnt = r.lcnt := rfl
theorem ERegs.with_ectl_lbeg (r : ERegs) (x : Word) : ({ r with ectl := x } : ERegs).lbeg = r.lbeg := rfl
theorem ERegs.with_ectl_lend (r : ERegs) (x : Word) : ({ r with ectl := x } : ERegs).lend = r.lend := rfl
theorem ERegs.with_ectl_ldepth (r : ERegs) (x : Word) : ({ r with ectl := x } : ERegs).ldepth = r.ldepth := rfl
theorem ERegs.with_ectl_ectl (r : ERegs) (x : Word) : ({ r with ectl := x } : ERegs).ectl = x := rfl
theorem ERegs.with_ectl_est (r : ERegs) (x : Word) : ({ r with ectl := x } : ERegs).est = r.est := rfl
theorem ERegs.with_ectl_ipc (r : ERegs) (x : Word) : ({ r with ectl := x } : ERegs).ipc = r.ipc := rfl
theorem ERegs.with_ectl_iest (r : ERegs) (x : Word) : ({ r with ectl := x } : ERegs).iest = r.iest := rfl
theorem ERegs.with_ectl_ivb (r : ERegs) (x : Word) : ({ r with ectl := x } : ERegs).ivb = r.ivb := rfl
theorem ERegs.with_ectl_hr (r : ERegs) (x : Word) : ({ r with ectl := x } : ERegs).hr = r.hr := rfl
theorem ERegs.with_ectl_pc (r : ERegs) (x : Word) : ({ r with ectl := x } : ERegs).pc = r.pc := rfl
theorem ERegs.with_est_v (r : ERegs) (x : Word) : ({ r with est := x } : ERegs).v = r.v := rfl
theorem ERegs.with_est_a (r : ERegs) (x : Word) : ({ r with est := x } : ERegs).a = r.a := rfl
theorem ERegs.with_est_am (r : ERegs) (x : Word) : ({ r with est := x } : ERegs).am = r.am := rfl
theorem ERegs.with_est_q (r : ERegs) (x : Word) : ({ r with est := x } : ERegs).q = r.q := rfl
theorem ERegs.with_est_g (r : ERegs) (x : Word) : ({ r with est := x } : ERegs).g = r.g := rfl
theorem ERegs.with_est_p (r : ERegs) (x : Word) : ({ r with est := x } : ERegs).p = r.p := rfl
theorem ERegs.with_est_m (r : ERegs) (x : Word) : ({ r with est := x } : ERegs).m = r.m := rfl
theorem ERegs.with_est_b (r : ERegs) (x : Word) : ({ r with est := x } : ERegs).b = r.b := rfl
theorem ERegs.with_est_bStg (r : ERegs) (x : Word) : ({ r with est := x } : ERegs).bStg = r.bStg := rfl
theorem ERegs.with_est_lcnt (r : ERegs) (x : Word) : ({ r with est := x } : ERegs).lcnt = r.lcnt := rfl
theorem ERegs.with_est_lbeg (r : ERegs) (x : Word) : ({ r with est := x } : ERegs).lbeg = r.lbeg := rfl
theorem ERegs.with_est_lend (r : ERegs) (x : Word) : ({ r with est := x } : ERegs).lend = r.lend := rfl
theorem ERegs.with_est_ldepth (r : ERegs) (x : Word) : ({ r with est := x } : ERegs).ldepth = r.ldepth := rfl
theorem ERegs.with_est_ectl (r : ERegs) (x : Word) : ({ r with est := x } : ERegs).ectl = r.ectl := rfl
theorem ERegs.with_est_est (r : ERegs) (x : Word) : ({ r with est := x } : ERegs).est = x := rfl
theorem ERegs.with_est_ipc (r : ERegs) (x : Word) : ({ r with est := x } : ERegs).ipc = r.ipc := rfl
theorem ERegs.with_est_iest (r : ERegs) (x : Word) : ({ r with est := x } : ERegs).iest = r.iest := rfl
theorem ERegs.with_est_ivb (r : ERegs) (x : Word) : ({ r with est := x } : ERegs).ivb = r.ivb := rfl
theorem ERegs.with_est_hr (r : ERegs) (x : Word) : ({ r with est := x } : ERegs).hr = r.hr := rfl
theorem ERegs.with_est_pc (r : ERegs) (x : Word) : ({ r with est := x } : ERegs).pc = r.pc := rfl
theorem ERegs.with_ipc_v (r : ERegs) (x : Nat) : ({ r with ipc := x } : ERegs).v = r.v := rfl
theorem ERegs.with_ipc_a (r : ERegs) (x : Nat) : ({ r with ipc := x } : ERegs).a = r.a := rfl
theorem ERegs.with_ipc_am (r : ERegs) (x : Nat) : ({ r with ipc := x } : ERegs).am = r.am := rfl
theorem ERegs.with_ipc_q (r : ERegs) (x : Nat) : ({ r with ipc := x } : ERegs).q = r.q := rfl
theorem ERegs.with_ipc_g (r : ERegs) (x : Nat) : ({ r with ipc := x } : ERegs).g = r.g := rfl
theorem ERegs.with_ipc_p (r : ERegs) (x : Nat) : ({ r with ipc := x } : ERegs).p = r.p := rfl
theorem ERegs.with_ipc_m (r : ERegs) (x : Nat) : ({ r with ipc := x } : ERegs).m = r.m := rfl
theorem ERegs.with_ipc_b (r : ERegs) (x : Nat) : ({ r with ipc := x } : ERegs).b = r.b := rfl
theorem ERegs.with_ipc_bStg (r : ERegs) (x : Nat) : ({ r with ipc := x } : ERegs).bStg = r.bStg := rfl
theorem ERegs.with_ipc_lcnt (r : ERegs) (x : Nat) : ({ r with ipc := x } : ERegs).lcnt = r.lcnt := rfl
theorem ERegs.with_ipc_lbeg (r : ERegs) (x : Nat) : ({ r with ipc := x } : ERegs).lbeg = r.lbeg := rfl
theorem ERegs.with_ipc_lend (r : ERegs) (x : Nat) : ({ r with ipc := x } : ERegs).lend = r.lend := rfl
theorem ERegs.with_ipc_ldepth (r : ERegs) (x : Nat) : ({ r with ipc := x } : ERegs).ldepth = r.ldepth := rfl
theorem ERegs.with_ipc_ectl (r : ERegs) (x : Nat) : ({ r with ipc := x } : ERegs).ectl = r.ectl := rfl
theorem ERegs.with_ipc_est (r : ERegs) (x : Nat) : ({ r with ipc := x } : ERegs).est = r.est := rfl
theorem ERegs.with_ipc_ipc (r : ERegs) (x : Nat) : ({ r with ipc := x } : ERegs).ipc = x := rfl
theorem ERegs.with_ipc_iest (r : ERegs) (x : Nat) : ({ r with ipc := x } : ERegs).iest = r.iest := rfl
theorem ERegs.with_ipc_ivb (r : ERegs) (x : Nat) : ({ r with ipc := x } : ERegs).ivb = r.ivb := rfl
theorem ERegs.with_ipc_hr (r : ERegs) (x : Nat) : ({ r with ipc := x } : ERegs).hr = r.hr := rfl
theorem ERegs.with_ipc_pc (r : ERegs) (x : Nat) : ({ r with ipc := x } : ERegs).pc = r.pc := rfl
theorem ERegs.with_iest_v (r : ERegs) (x : Word) : ({ r with iest := x } : ERegs).v = r.v := rfl
theorem ERegs.with_iest_a (r : ERegs) (x : Word) : ({ r with iest := x } : ERegs).a = r.a := rfl
theorem ERegs.with_iest_am (r : ERegs) (x : Word) : ({ r with iest := x } : ERegs).am = r.am := rfl
theorem ERegs.with_iest_q (r : ERegs) (x : Word) : ({ r with iest := x } : ERegs).q = r.q := rfl
theorem ERegs.with_iest_g (r : ERegs) (x : Word) : ({ r with iest := x } : ERegs).g = r.g := rfl
theorem ERegs.with_iest_p (r : ERegs) (x : Word) : ({ r with iest := x } : ERegs).p = r.p := rfl
theorem ERegs.with_iest_m (r : ERegs) (x : Word) : ({ r with iest := x } : ERegs).m = r.m := rfl
theorem ERegs.with_iest_b (r : ERegs) (x : Word) : ({ r with iest := x } : ERegs).b = r.b := rfl
theorem ERegs.with_iest_bStg (r : ERegs) (x : Word) : ({ r with iest := x } : ERegs).bStg = r.bStg := rfl
theorem ERegs.with_iest_lcnt (r : ERegs) (x : Word) : ({ r with iest := x } : ERegs).lcnt = r.lcnt := rfl
theorem ERegs.with_iest_lbeg (r : ERegs) (x : Word) : ({ r with iest := x } : ERegs).lbeg = r.lbeg := rfl
theorem ERegs.with_iest_lend (r : ERegs) (x : Word) : ({ r with iest := x } : ERegs).lend = r.lend := rfl
theorem ERegs.with_iest_ldepth (r : ERegs) (x : Word) : ({ r with iest := x } : ERegs).ldepth = r.ldepth := rfl
theorem ERegs.with_iest_ectl (r : ERegs) (x : Word) : ({ r with iest := x } : ERegs).ectl = r.ectl := rfl
theorem ERegs.with_iest_est (r : ERegs) (x : Word) : ({ r with iest := x } : ERegs).est = r.est := rfl
theorem ERegs.with_iest_ipc (r : ERegs) (x : Word) : ({ r with iest := x } : ERegs).ipc = r.ipc := rfl
theorem ERegs.with_iest_iest (r : ERegs) (x : Word) : ({ r with iest := x } : ERegs).iest = x := rfl
theorem ERegs.with_iest_ivb (r : ERegs) (x : Word) : ({ r with iest := x } : ERegs).ivb = r.ivb := rfl
theorem ERegs.with_iest_hr (r : ERegs) (x : Word) : ({ r with iest := x } : ERegs).hr = r.hr := rfl
theorem ERegs.with_iest_pc (r : ERegs) (x : Word) : ({ r with iest := x } : ERegs).pc = r.pc := rfl
theorem ERegs.with_ivb_v (r : ERegs) (x : Nat) : ({ r with ivb := x } : ERegs).v = r.v := rfl
theorem ERegs.with_ivb_a (r : ERegs) (x : Nat) : ({ r with ivb := x } : ERegs).a = r.a := rfl
theorem ERegs.with_ivb_am (r : ERegs) (x : Nat) : ({ r with ivb := x } : ERegs).am = r.am := rfl
theorem ERegs.with_ivb_q (r : ERegs) (x : Nat) : ({ r with ivb := x } : ERegs).q = r.q := rfl
theorem ERegs.with_ivb_g (r : ERegs) (x : Nat) : ({ r with ivb := x } : ERegs).g = r.g := rfl
theorem ERegs.with_ivb_p (r : ERegs) (x : Nat) : ({ r with ivb := x } : ERegs).p = r.p := rfl
theorem ERegs.with_ivb_m (r : ERegs) (x : Nat) : ({ r with ivb := x } : ERegs).m = r.m := rfl
theorem ERegs.with_ivb_b (r : ERegs) (x : Nat) : ({ r with ivb := x } : ERegs).b = r.b := rfl
theorem ERegs.with_ivb_bStg (r : ERegs) (x : Nat) : ({ r with ivb := x } : ERegs).bStg = r.bStg := rfl
theorem ERegs.with_ivb_lcnt (r : ERegs) (x : Nat) : ({ r with ivb := x } : ERegs).lcnt = r.lcnt := rfl
theorem ERegs.with_ivb_lbeg (r : ERegs) (x : Nat) : ({ r with ivb := x } : ERegs).lbeg = r.lbeg := rfl
theorem ERegs.with_ivb_lend (r : ERegs) (x : Nat) : ({ r with ivb := x } : ERegs).lend = r.lend := rfl
theorem ERegs.with_ivb_ldepth (r : ERegs) (x : Nat) : ({ r with ivb := x } : ERegs).ldepth = r.ldepth := rfl
theorem ERegs.with_ivb_ectl (r : ERegs) (x : Nat) : ({ r with ivb := x } : ERegs).ectl = r.ectl := rfl
theorem ERegs.with_ivb_est (r : ERegs) (x : Nat) : ({ r with ivb := x } : ERegs).est = r.est := rfl
theorem ERegs.with_ivb_ipc (r : ERegs) (x : Nat) : ({ r with ivb := x } : ERegs).ipc = r.ipc := rfl
theorem ERegs.with_ivb_iest (r : ERegs) (x : Nat) : ({ r with ivb := x } : ERegs).iest = r.iest := rfl
theorem ERegs.with_ivb_ivb (r : ERegs) (x : Nat) : ({ r with ivb := x } : ERegs).ivb = x := rfl
theorem ERegs.with_ivb_hr (r : ERegs) (x : Nat) : ({ r with ivb := x } : ERegs).hr = r.hr := rfl
theorem ERegs.with_ivb_pc (r : ERegs) (x : Nat) : ({ r with ivb := x } : ERegs).pc = r.pc := rfl

theorem ERegs.land_v (r : ERegs) (ce : Bool) (n k : Nat) (v : Nat) : r.land ce (.v n k) v =
    if ce = true ∧ k ≠ 0 then r else { r with v := Tbl.put (fun _ => 0) r.v (16 * n + k) (BitVec.ofNat 64 v) } := rfl
@[simp] theorem ERegs.land_v_a (r : ERegs) (ce : Bool) (n k : Nat) (v : Nat) : (r.land ce (.v n k) v).a = r.a := by
  rw [ERegs.land_v]; split
  · rfl
  · rw [ERegs.with_v_a]
@[simp] theorem ERegs.land_v_am (r : ERegs) (ce : Bool) (n k : Nat) (v : Nat) : (r.land ce (.v n k) v).am = r.am := by
  rw [ERegs.land_v]; split
  · rfl
  · rw [ERegs.with_v_am]
@[simp] theorem ERegs.land_v_q (r : ERegs) (ce : Bool) (n k : Nat) (v : Nat) : (r.land ce (.v n k) v).q = r.q := by
  rw [ERegs.land_v]; split
  · rfl
  · rw [ERegs.with_v_q]
@[simp] theorem ERegs.land_v_g (r : ERegs) (ce : Bool) (n k : Nat) (v : Nat) : (r.land ce (.v n k) v).g = r.g := by
  rw [ERegs.land_v]; split
  · rfl
  · rw [ERegs.with_v_g]
@[simp] theorem ERegs.land_v_p (r : ERegs) (ce : Bool) (n k : Nat) (v : Nat) : (r.land ce (.v n k) v).p = r.p := by
  rw [ERegs.land_v]; split
  · rfl
  · rw [ERegs.with_v_p]
@[simp] theorem ERegs.land_v_m (r : ERegs) (ce : Bool) (n k : Nat) (v : Nat) : (r.land ce (.v n k) v).m = r.m := by
  rw [ERegs.land_v]; split
  · rfl
  · rw [ERegs.with_v_m]
@[simp] theorem ERegs.land_v_b (r : ERegs) (ce : Bool) (n k : Nat) (v : Nat) : (r.land ce (.v n k) v).b = r.b := by
  rw [ERegs.land_v]; split
  · rfl
  · rw [ERegs.with_v_b]
@[simp] theorem ERegs.land_v_bStg (r : ERegs) (ce : Bool) (n k : Nat) (v : Nat) : (r.land ce (.v n k) v).bStg = r.bStg := by
  rw [ERegs.land_v]; split
  · rfl
  · rw [ERegs.with_v_bStg]
@[simp] theorem ERegs.land_v_lcnt (r : ERegs) (ce : Bool) (n k : Nat) (v : Nat) : (r.land ce (.v n k) v).lcnt = r.lcnt := by
  rw [ERegs.land_v]; split
  · rfl
  · rw [ERegs.with_v_lcnt]
@[simp] theorem ERegs.land_v_lbeg (r : ERegs) (ce : Bool) (n k : Nat) (v : Nat) : (r.land ce (.v n k) v).lbeg = r.lbeg := by
  rw [ERegs.land_v]; split
  · rfl
  · rw [ERegs.with_v_lbeg]
@[simp] theorem ERegs.land_v_lend (r : ERegs) (ce : Bool) (n k : Nat) (v : Nat) : (r.land ce (.v n k) v).lend = r.lend := by
  rw [ERegs.land_v]; split
  · rfl
  · rw [ERegs.with_v_lend]
@[simp] theorem ERegs.land_v_ldepth (r : ERegs) (ce : Bool) (n k : Nat) (v : Nat) : (r.land ce (.v n k) v).ldepth = r.ldepth := by
  rw [ERegs.land_v]; split
  · rfl
  · rw [ERegs.with_v_ldepth]
@[simp] theorem ERegs.land_v_ectl (r : ERegs) (ce : Bool) (n k : Nat) (v : Nat) : (r.land ce (.v n k) v).ectl = r.ectl := by
  rw [ERegs.land_v]; split
  · rfl
  · rw [ERegs.with_v_ectl]
@[simp] theorem ERegs.land_v_est (r : ERegs) (ce : Bool) (n k : Nat) (v : Nat) : (r.land ce (.v n k) v).est = r.est := by
  rw [ERegs.land_v]; split
  · rfl
  · rw [ERegs.with_v_est]
@[simp] theorem ERegs.land_v_ipc (r : ERegs) (ce : Bool) (n k : Nat) (v : Nat) : (r.land ce (.v n k) v).ipc = r.ipc := by
  rw [ERegs.land_v]; split
  · rfl
  · rw [ERegs.with_v_ipc]
@[simp] theorem ERegs.land_v_iest (r : ERegs) (ce : Bool) (n k : Nat) (v : Nat) : (r.land ce (.v n k) v).iest = r.iest := by
  rw [ERegs.land_v]; split
  · rfl
  · rw [ERegs.with_v_iest]
@[simp] theorem ERegs.land_v_ivb (r : ERegs) (ce : Bool) (n k : Nat) (v : Nat) : (r.land ce (.v n k) v).ivb = r.ivb := by
  rw [ERegs.land_v]; split
  · rfl
  · rw [ERegs.with_v_ivb]
@[simp] theorem ERegs.land_v_hr (r : ERegs) (ce : Bool) (n k : Nat) (v : Nat) : (r.land ce (.v n k) v).hr = r.hr := by
  rw [ERegs.land_v]; split
  · rfl
  · rw [ERegs.with_v_hr]
@[simp] theorem ERegs.land_v_pc (r : ERegs) (ce : Bool) (n k : Nat) (v : Nat) : (r.land ce (.v n k) v).pc = r.pc := by
  rw [ERegs.land_v]; split
  · rfl
  · rw [ERegs.with_v_pc]

theorem ERegs.land_a (r : ERegs) (ce : Bool) (n h k : Nat) (v : Nat) : r.land ce (.a n h k) v =
    if ce = true ∧ k ≠ 0 then r else { r with a := Tbl.put (fun _ => 0) r.a (32 * n + 16 * h + k) (BitVec.ofNat 80 v) } := rfl
@[simp] theorem ERegs.land_a_v (r : ERegs) (ce : Bool) (n h k : Nat) (v : Nat) : (r.land ce (.a n h k) v).v = r.v := by
  rw [ERegs.land_a]; split
  · rfl
  · rw [ERegs.with_a_v]
@[simp] theorem ERegs.land_a_am (r : ERegs) (ce : Bool) (n h k : Nat) (v : Nat) : (r.land ce (.a n h k) v).am = r.am := by
  rw [ERegs.land_a]; split
  · rfl
  · rw [ERegs.with_a_am]
@[simp] theorem ERegs.land_a_q (r : ERegs) (ce : Bool) (n h k : Nat) (v : Nat) : (r.land ce (.a n h k) v).q = r.q := by
  rw [ERegs.land_a]; split
  · rfl
  · rw [ERegs.with_a_q]
@[simp] theorem ERegs.land_a_g (r : ERegs) (ce : Bool) (n h k : Nat) (v : Nat) : (r.land ce (.a n h k) v).g = r.g := by
  rw [ERegs.land_a]; split
  · rfl
  · rw [ERegs.with_a_g]
@[simp] theorem ERegs.land_a_p (r : ERegs) (ce : Bool) (n h k : Nat) (v : Nat) : (r.land ce (.a n h k) v).p = r.p := by
  rw [ERegs.land_a]; split
  · rfl
  · rw [ERegs.with_a_p]
@[simp] theorem ERegs.land_a_m (r : ERegs) (ce : Bool) (n h k : Nat) (v : Nat) : (r.land ce (.a n h k) v).m = r.m := by
  rw [ERegs.land_a]; split
  · rfl
  · rw [ERegs.with_a_m]
@[simp] theorem ERegs.land_a_b (r : ERegs) (ce : Bool) (n h k : Nat) (v : Nat) : (r.land ce (.a n h k) v).b = r.b := by
  rw [ERegs.land_a]; split
  · rfl
  · rw [ERegs.with_a_b]
@[simp] theorem ERegs.land_a_bStg (r : ERegs) (ce : Bool) (n h k : Nat) (v : Nat) : (r.land ce (.a n h k) v).bStg = r.bStg := by
  rw [ERegs.land_a]; split
  · rfl
  · rw [ERegs.with_a_bStg]
@[simp] theorem ERegs.land_a_lcnt (r : ERegs) (ce : Bool) (n h k : Nat) (v : Nat) : (r.land ce (.a n h k) v).lcnt = r.lcnt := by
  rw [ERegs.land_a]; split
  · rfl
  · rw [ERegs.with_a_lcnt]
@[simp] theorem ERegs.land_a_lbeg (r : ERegs) (ce : Bool) (n h k : Nat) (v : Nat) : (r.land ce (.a n h k) v).lbeg = r.lbeg := by
  rw [ERegs.land_a]; split
  · rfl
  · rw [ERegs.with_a_lbeg]
@[simp] theorem ERegs.land_a_lend (r : ERegs) (ce : Bool) (n h k : Nat) (v : Nat) : (r.land ce (.a n h k) v).lend = r.lend := by
  rw [ERegs.land_a]; split
  · rfl
  · rw [ERegs.with_a_lend]
@[simp] theorem ERegs.land_a_ldepth (r : ERegs) (ce : Bool) (n h k : Nat) (v : Nat) : (r.land ce (.a n h k) v).ldepth = r.ldepth := by
  rw [ERegs.land_a]; split
  · rfl
  · rw [ERegs.with_a_ldepth]
@[simp] theorem ERegs.land_a_ectl (r : ERegs) (ce : Bool) (n h k : Nat) (v : Nat) : (r.land ce (.a n h k) v).ectl = r.ectl := by
  rw [ERegs.land_a]; split
  · rfl
  · rw [ERegs.with_a_ectl]
@[simp] theorem ERegs.land_a_est (r : ERegs) (ce : Bool) (n h k : Nat) (v : Nat) : (r.land ce (.a n h k) v).est = r.est := by
  rw [ERegs.land_a]; split
  · rfl
  · rw [ERegs.with_a_est]
@[simp] theorem ERegs.land_a_ipc (r : ERegs) (ce : Bool) (n h k : Nat) (v : Nat) : (r.land ce (.a n h k) v).ipc = r.ipc := by
  rw [ERegs.land_a]; split
  · rfl
  · rw [ERegs.with_a_ipc]
@[simp] theorem ERegs.land_a_iest (r : ERegs) (ce : Bool) (n h k : Nat) (v : Nat) : (r.land ce (.a n h k) v).iest = r.iest := by
  rw [ERegs.land_a]; split
  · rfl
  · rw [ERegs.with_a_iest]
@[simp] theorem ERegs.land_a_ivb (r : ERegs) (ce : Bool) (n h k : Nat) (v : Nat) : (r.land ce (.a n h k) v).ivb = r.ivb := by
  rw [ERegs.land_a]; split
  · rfl
  · rw [ERegs.with_a_ivb]
@[simp] theorem ERegs.land_a_hr (r : ERegs) (ce : Bool) (n h k : Nat) (v : Nat) : (r.land ce (.a n h k) v).hr = r.hr := by
  rw [ERegs.land_a]; split
  · rfl
  · rw [ERegs.with_a_hr]
@[simp] theorem ERegs.land_a_pc (r : ERegs) (ce : Bool) (n h k : Nat) (v : Nat) : (r.land ce (.a n h k) v).pc = r.pc := by
  rw [ERegs.land_a]; split
  · rfl
  · rw [ERegs.with_a_pc]

theorem ERegs.land_am (r : ERegs) (ce : Bool) (n h k : Nat) (v : Nat) : r.land ce (.am n h k) v =
    if ce = true ∧ k ≠ 0 then r else { r with am := Tbl.put (fun _ => 0) r.am (32 * n + 16 * h + k) (BitVec.ofNat 80 v) } := rfl
@[simp] theorem ERegs.land_am_v (r : ERegs) (ce : Bool) (n h k : Nat) (v : Nat) : (r.land ce (.am n h k) v).v = r.v := by
  rw [ERegs.land_am]; split
  · rfl
  · rw [ERegs.with_am_v]
@[simp] theorem ERegs.land_am_a (r : ERegs) (ce : Bool) (n h k : Nat) (v : Nat) : (r.land ce (.am n h k) v).a = r.a := by
  rw [ERegs.land_am]; split
  · rfl
  · rw [ERegs.with_am_a]
@[simp] theorem ERegs.land_am_q (r : ERegs) (ce : Bool) (n h k : Nat) (v : Nat) : (r.land ce (.am n h k) v).q = r.q := by
  rw [ERegs.land_am]; split
  · rfl
  · rw [ERegs.with_am_q]
@[simp] theorem ERegs.land_am_g (r : ERegs) (ce : Bool) (n h k : Nat) (v : Nat) : (r.land ce (.am n h k) v).g = r.g := by
  rw [ERegs.land_am]; split
  · rfl
  · rw [ERegs.with_am_g]
@[simp] theorem ERegs.land_am_p (r : ERegs) (ce : Bool) (n h k : Nat) (v : Nat) : (r.land ce (.am n h k) v).p = r.p := by
  rw [ERegs.land_am]; split
  · rfl
  · rw [ERegs.with_am_p]
@[simp] theorem ERegs.land_am_m (r : ERegs) (ce : Bool) (n h k : Nat) (v : Nat) : (r.land ce (.am n h k) v).m = r.m := by
  rw [ERegs.land_am]; split
  · rfl
  · rw [ERegs.with_am_m]
@[simp] theorem ERegs.land_am_b (r : ERegs) (ce : Bool) (n h k : Nat) (v : Nat) : (r.land ce (.am n h k) v).b = r.b := by
  rw [ERegs.land_am]; split
  · rfl
  · rw [ERegs.with_am_b]
@[simp] theorem ERegs.land_am_bStg (r : ERegs) (ce : Bool) (n h k : Nat) (v : Nat) : (r.land ce (.am n h k) v).bStg = r.bStg := by
  rw [ERegs.land_am]; split
  · rfl
  · rw [ERegs.with_am_bStg]
@[simp] theorem ERegs.land_am_lcnt (r : ERegs) (ce : Bool) (n h k : Nat) (v : Nat) : (r.land ce (.am n h k) v).lcnt = r.lcnt := by
  rw [ERegs.land_am]; split
  · rfl
  · rw [ERegs.with_am_lcnt]
@[simp] theorem ERegs.land_am_lbeg (r : ERegs) (ce : Bool) (n h k : Nat) (v : Nat) : (r.land ce (.am n h k) v).lbeg = r.lbeg := by
  rw [ERegs.land_am]; split
  · rfl
  · rw [ERegs.with_am_lbeg]
@[simp] theorem ERegs.land_am_lend (r : ERegs) (ce : Bool) (n h k : Nat) (v : Nat) : (r.land ce (.am n h k) v).lend = r.lend := by
  rw [ERegs.land_am]; split
  · rfl
  · rw [ERegs.with_am_lend]
@[simp] theorem ERegs.land_am_ldepth (r : ERegs) (ce : Bool) (n h k : Nat) (v : Nat) : (r.land ce (.am n h k) v).ldepth = r.ldepth := by
  rw [ERegs.land_am]; split
  · rfl
  · rw [ERegs.with_am_ldepth]
@[simp] theorem ERegs.land_am_ectl (r : ERegs) (ce : Bool) (n h k : Nat) (v : Nat) : (r.land ce (.am n h k) v).ectl = r.ectl := by
  rw [ERegs.land_am]; split
  · rfl
  · rw [ERegs.with_am_ectl]
@[simp] theorem ERegs.land_am_est (r : ERegs) (ce : Bool) (n h k : Nat) (v : Nat) : (r.land ce (.am n h k) v).est = r.est := by
  rw [ERegs.land_am]; split
  · rfl
  · rw [ERegs.with_am_est]
@[simp] theorem ERegs.land_am_ipc (r : ERegs) (ce : Bool) (n h k : Nat) (v : Nat) : (r.land ce (.am n h k) v).ipc = r.ipc := by
  rw [ERegs.land_am]; split
  · rfl
  · rw [ERegs.with_am_ipc]
@[simp] theorem ERegs.land_am_iest (r : ERegs) (ce : Bool) (n h k : Nat) (v : Nat) : (r.land ce (.am n h k) v).iest = r.iest := by
  rw [ERegs.land_am]; split
  · rfl
  · rw [ERegs.with_am_iest]
@[simp] theorem ERegs.land_am_ivb (r : ERegs) (ce : Bool) (n h k : Nat) (v : Nat) : (r.land ce (.am n h k) v).ivb = r.ivb := by
  rw [ERegs.land_am]; split
  · rfl
  · rw [ERegs.with_am_ivb]
@[simp] theorem ERegs.land_am_hr (r : ERegs) (ce : Bool) (n h k : Nat) (v : Nat) : (r.land ce (.am n h k) v).hr = r.hr := by
  rw [ERegs.land_am]; split
  · rfl
  · rw [ERegs.with_am_hr]
@[simp] theorem ERegs.land_am_pc (r : ERegs) (ce : Bool) (n h k : Nat) (v : Nat) : (r.land ce (.am n h k) v).pc = r.pc := by
  rw [ERegs.land_am]; split
  · rfl
  · rw [ERegs.with_am_pc]

theorem ERegs.land_q (r : ERegs) (ce : Bool) (n : Nat) (v : Nat) : r.land ce (.q n) v =
    if n = 0 then r else { r with q := Tbl.put (fun _ => 0) r.q n (BitVec.ofNat 16 v) } := rfl
@[simp] theorem ERegs.land_q_v (r : ERegs) (ce : Bool) (n : Nat) (v : Nat) : (r.land ce (.q n) v).v = r.v := by
  rw [ERegs.land_q]; split
  · rfl
  · rw [ERegs.with_q_v]
@[simp] theorem ERegs.land_q_a (r : ERegs) (ce : Bool) (n : Nat) (v : Nat) : (r.land ce (.q n) v).a = r.a := by
  rw [ERegs.land_q]; split
  · rfl
  · rw [ERegs.with_q_a]
@[simp] theorem ERegs.land_q_am (r : ERegs) (ce : Bool) (n : Nat) (v : Nat) : (r.land ce (.q n) v).am = r.am := by
  rw [ERegs.land_q]; split
  · rfl
  · rw [ERegs.with_q_am]
@[simp] theorem ERegs.land_q_g (r : ERegs) (ce : Bool) (n : Nat) (v : Nat) : (r.land ce (.q n) v).g = r.g := by
  rw [ERegs.land_q]; split
  · rfl
  · rw [ERegs.with_q_g]
@[simp] theorem ERegs.land_q_p (r : ERegs) (ce : Bool) (n : Nat) (v : Nat) : (r.land ce (.q n) v).p = r.p := by
  rw [ERegs.land_q]; split
  · rfl
  · rw [ERegs.with_q_p]
@[simp] theorem ERegs.land_q_m (r : ERegs) (ce : Bool) (n : Nat) (v : Nat) : (r.land ce (.q n) v).m = r.m := by
  rw [ERegs.land_q]; split
  · rfl
  · rw [ERegs.with_q_m]
@[simp] theorem ERegs.land_q_b (r : ERegs) (ce : Bool) (n : Nat) (v : Nat) : (r.land ce (.q n) v).b = r.b := by
  rw [ERegs.land_q]; split
  · rfl
  · rw [ERegs.with_q_b]
@[simp] theorem ERegs.land_q_bStg (r : ERegs) (ce : Bool) (n : Nat) (v : Nat) : (r.land ce (.q n) v).bStg = r.bStg := by
  rw [ERegs.land_q]; split
  · rfl
  · rw [ERegs.with_q_bStg]
@[simp] theorem ERegs.land_q_lcnt (r : ERegs) (ce : Bool) (n : Nat) (v : Nat) : (r.land ce (.q n) v).lcnt = r.lcnt := by
  rw [ERegs.land_q]; split
  · rfl
  · rw [ERegs.with_q_lcnt]
@[simp] theorem ERegs.land_q_lbeg (r : ERegs) (ce : Bool) (n : Nat) (v : Nat) : (r.land ce (.q n) v).lbeg = r.lbeg := by
  rw [ERegs.land_q]; split
  · rfl
  · rw [ERegs.with_q_lbeg]
@[simp] theorem ERegs.land_q_lend (r : ERegs) (ce : Bool) (n : Nat) (v : Nat) : (r.land ce (.q n) v).lend = r.lend := by
  rw [ERegs.land_q]; split
  · rfl
  · rw [ERegs.with_q_lend]
@[simp] theorem ERegs.land_q_ldepth (r : ERegs) (ce : Bool) (n : Nat) (v : Nat) : (r.land ce (.q n) v).ldepth = r.ldepth := by
  rw [ERegs.land_q]; split
  · rfl
  · rw [ERegs.with_q_ldepth]
@[simp] theorem ERegs.land_q_ectl (r : ERegs) (ce : Bool) (n : Nat) (v : Nat) : (r.land ce (.q n) v).ectl = r.ectl := by
  rw [ERegs.land_q]; split
  · rfl
  · rw [ERegs.with_q_ectl]
@[simp] theorem ERegs.land_q_est (r : ERegs) (ce : Bool) (n : Nat) (v : Nat) : (r.land ce (.q n) v).est = r.est := by
  rw [ERegs.land_q]; split
  · rfl
  · rw [ERegs.with_q_est]
@[simp] theorem ERegs.land_q_ipc (r : ERegs) (ce : Bool) (n : Nat) (v : Nat) : (r.land ce (.q n) v).ipc = r.ipc := by
  rw [ERegs.land_q]; split
  · rfl
  · rw [ERegs.with_q_ipc]
@[simp] theorem ERegs.land_q_iest (r : ERegs) (ce : Bool) (n : Nat) (v : Nat) : (r.land ce (.q n) v).iest = r.iest := by
  rw [ERegs.land_q]; split
  · rfl
  · rw [ERegs.with_q_iest]
@[simp] theorem ERegs.land_q_ivb (r : ERegs) (ce : Bool) (n : Nat) (v : Nat) : (r.land ce (.q n) v).ivb = r.ivb := by
  rw [ERegs.land_q]; split
  · rfl
  · rw [ERegs.with_q_ivb]
@[simp] theorem ERegs.land_q_hr (r : ERegs) (ce : Bool) (n : Nat) (v : Nat) : (r.land ce (.q n) v).hr = r.hr := by
  rw [ERegs.land_q]; split
  · rfl
  · rw [ERegs.with_q_hr]
@[simp] theorem ERegs.land_q_pc (r : ERegs) (ce : Bool) (n : Nat) (v : Nat) : (r.land ce (.q n) v).pc = r.pc := by
  rw [ERegs.land_q]; split
  · rfl
  · rw [ERegs.with_q_pc]

theorem ERegs.land_g (r : ERegs) (ce : Bool) (n : Nat) (v : Nat) : r.land ce (.g n) v =
    { r with g := Tbl.put (fun _ => 0) r.g n (BitVec.ofNat 32 v) } := rfl
@[simp] theorem ERegs.land_g_v (r : ERegs) (ce : Bool) (n : Nat) (v : Nat) : (r.land ce (.g n) v).v = r.v := by
  rw [ERegs.land_g, ERegs.with_g_v]
@[simp] theorem ERegs.land_g_a (r : ERegs) (ce : Bool) (n : Nat) (v : Nat) : (r.land ce (.g n) v).a = r.a := by
  rw [ERegs.land_g, ERegs.with_g_a]
@[simp] theorem ERegs.land_g_am (r : ERegs) (ce : Bool) (n : Nat) (v : Nat) : (r.land ce (.g n) v).am = r.am := by
  rw [ERegs.land_g, ERegs.with_g_am]
@[simp] theorem ERegs.land_g_q (r : ERegs) (ce : Bool) (n : Nat) (v : Nat) : (r.land ce (.g n) v).q = r.q := by
  rw [ERegs.land_g, ERegs.with_g_q]
@[simp] theorem ERegs.land_g_p (r : ERegs) (ce : Bool) (n : Nat) (v : Nat) : (r.land ce (.g n) v).p = r.p := by
  rw [ERegs.land_g, ERegs.with_g_p]
@[simp] theorem ERegs.land_g_m (r : ERegs) (ce : Bool) (n : Nat) (v : Nat) : (r.land ce (.g n) v).m = r.m := by
  rw [ERegs.land_g, ERegs.with_g_m]
@[simp] theorem ERegs.land_g_b (r : ERegs) (ce : Bool) (n : Nat) (v : Nat) : (r.land ce (.g n) v).b = r.b := by
  rw [ERegs.land_g, ERegs.with_g_b]
@[simp] theorem ERegs.land_g_bStg (r : ERegs) (ce : Bool) (n : Nat) (v : Nat) : (r.land ce (.g n) v).bStg = r.bStg := by
  rw [ERegs.land_g, ERegs.with_g_bStg]
@[simp] theorem ERegs.land_g_lcnt (r : ERegs) (ce : Bool) (n : Nat) (v : Nat) : (r.land ce (.g n) v).lcnt = r.lcnt := by
  rw [ERegs.land_g, ERegs.with_g_lcnt]
@[simp] theorem ERegs.land_g_lbeg (r : ERegs) (ce : Bool) (n : Nat) (v : Nat) : (r.land ce (.g n) v).lbeg = r.lbeg := by
  rw [ERegs.land_g, ERegs.with_g_lbeg]
@[simp] theorem ERegs.land_g_lend (r : ERegs) (ce : Bool) (n : Nat) (v : Nat) : (r.land ce (.g n) v).lend = r.lend := by
  rw [ERegs.land_g, ERegs.with_g_lend]
@[simp] theorem ERegs.land_g_ldepth (r : ERegs) (ce : Bool) (n : Nat) (v : Nat) : (r.land ce (.g n) v).ldepth = r.ldepth := by
  rw [ERegs.land_g, ERegs.with_g_ldepth]
@[simp] theorem ERegs.land_g_ectl (r : ERegs) (ce : Bool) (n : Nat) (v : Nat) : (r.land ce (.g n) v).ectl = r.ectl := by
  rw [ERegs.land_g, ERegs.with_g_ectl]
@[simp] theorem ERegs.land_g_est (r : ERegs) (ce : Bool) (n : Nat) (v : Nat) : (r.land ce (.g n) v).est = r.est := by
  rw [ERegs.land_g, ERegs.with_g_est]
@[simp] theorem ERegs.land_g_ipc (r : ERegs) (ce : Bool) (n : Nat) (v : Nat) : (r.land ce (.g n) v).ipc = r.ipc := by
  rw [ERegs.land_g, ERegs.with_g_ipc]
@[simp] theorem ERegs.land_g_iest (r : ERegs) (ce : Bool) (n : Nat) (v : Nat) : (r.land ce (.g n) v).iest = r.iest := by
  rw [ERegs.land_g, ERegs.with_g_iest]
@[simp] theorem ERegs.land_g_ivb (r : ERegs) (ce : Bool) (n : Nat) (v : Nat) : (r.land ce (.g n) v).ivb = r.ivb := by
  rw [ERegs.land_g, ERegs.with_g_ivb]
@[simp] theorem ERegs.land_g_hr (r : ERegs) (ce : Bool) (n : Nat) (v : Nat) : (r.land ce (.g n) v).hr = r.hr := by
  rw [ERegs.land_g, ERegs.with_g_hr]
@[simp] theorem ERegs.land_g_pc (r : ERegs) (ce : Bool) (n : Nat) (v : Nat) : (r.land ce (.g n) v).pc = r.pc := by
  rw [ERegs.land_g, ERegs.with_g_pc]

theorem ERegs.land_p (r : ERegs) (ce : Bool) (n : Nat) (v : Nat) : r.land ce (.p n) v =
    { r with p := Tbl.put (fun _ => 0) r.p n (setBits (BitVec.ofNat 32 v) 26 24 0) } := rfl
@[simp] theorem ERegs.land_p_v (r : ERegs) (ce : Bool) (n : Nat) (v : Nat) : (r.land ce (.p n) v).v = r.v := by
  rw [ERegs.land_p, ERegs.with_p_v]
@[simp] theorem ERegs.land_p_a (r : ERegs) (ce : Bool) (n : Nat) (v : Nat) : (r.land ce (.p n) v).a = r.a := by
  rw [ERegs.land_p, ERegs.with_p_a]
@[simp] theorem ERegs.land_p_am (r : ERegs) (ce : Bool) (n : Nat) (v : Nat) : (r.land ce (.p n) v).am = r.am := by
  rw [ERegs.land_p, ERegs.with_p_am]
@[simp] theorem ERegs.land_p_q (r : ERegs) (ce : Bool) (n : Nat) (v : Nat) : (r.land ce (.p n) v).q = r.q := by
  rw [ERegs.land_p, ERegs.with_p_q]
@[simp] theorem ERegs.land_p_g (r : ERegs) (ce : Bool) (n : Nat) (v : Nat) : (r.land ce (.p n) v).g = r.g := by
  rw [ERegs.land_p, ERegs.with_p_g]
@[simp] theorem ERegs.land_p_m (r : ERegs) (ce : Bool) (n : Nat) (v : Nat) : (r.land ce (.p n) v).m = r.m := by
  rw [ERegs.land_p, ERegs.with_p_m]
@[simp] theorem ERegs.land_p_b (r : ERegs) (ce : Bool) (n : Nat) (v : Nat) : (r.land ce (.p n) v).b = r.b := by
  rw [ERegs.land_p, ERegs.with_p_b]
@[simp] theorem ERegs.land_p_bStg (r : ERegs) (ce : Bool) (n : Nat) (v : Nat) : (r.land ce (.p n) v).bStg = r.bStg := by
  rw [ERegs.land_p, ERegs.with_p_bStg]
@[simp] theorem ERegs.land_p_lcnt (r : ERegs) (ce : Bool) (n : Nat) (v : Nat) : (r.land ce (.p n) v).lcnt = r.lcnt := by
  rw [ERegs.land_p, ERegs.with_p_lcnt]
@[simp] theorem ERegs.land_p_lbeg (r : ERegs) (ce : Bool) (n : Nat) (v : Nat) : (r.land ce (.p n) v).lbeg = r.lbeg := by
  rw [ERegs.land_p, ERegs.with_p_lbeg]
@[simp] theorem ERegs.land_p_lend (r : ERegs) (ce : Bool) (n : Nat) (v : Nat) : (r.land ce (.p n) v).lend = r.lend := by
  rw [ERegs.land_p, ERegs.with_p_lend]
@[simp] theorem ERegs.land_p_ldepth (r : ERegs) (ce : Bool) (n : Nat) (v : Nat) : (r.land ce (.p n) v).ldepth = r.ldepth := by
  rw [ERegs.land_p, ERegs.with_p_ldepth]
@[simp] theorem ERegs.land_p_ectl (r : ERegs) (ce : Bool) (n : Nat) (v : Nat) : (r.land ce (.p n) v).ectl = r.ectl := by
  rw [ERegs.land_p, ERegs.with_p_ectl]
@[simp] theorem ERegs.land_p_est (r : ERegs) (ce : Bool) (n : Nat) (v : Nat) : (r.land ce (.p n) v).est = r.est := by
  rw [ERegs.land_p, ERegs.with_p_est]
@[simp] theorem ERegs.land_p_ipc (r : ERegs) (ce : Bool) (n : Nat) (v : Nat) : (r.land ce (.p n) v).ipc = r.ipc := by
  rw [ERegs.land_p, ERegs.with_p_ipc]
@[simp] theorem ERegs.land_p_iest (r : ERegs) (ce : Bool) (n : Nat) (v : Nat) : (r.land ce (.p n) v).iest = r.iest := by
  rw [ERegs.land_p, ERegs.with_p_iest]
@[simp] theorem ERegs.land_p_ivb (r : ERegs) (ce : Bool) (n : Nat) (v : Nat) : (r.land ce (.p n) v).ivb = r.ivb := by
  rw [ERegs.land_p, ERegs.with_p_ivb]
@[simp] theorem ERegs.land_p_hr (r : ERegs) (ce : Bool) (n : Nat) (v : Nat) : (r.land ce (.p n) v).hr = r.hr := by
  rw [ERegs.land_p, ERegs.with_p_hr]
@[simp] theorem ERegs.land_p_pc (r : ERegs) (ce : Bool) (n : Nat) (v : Nat) : (r.land ce (.p n) v).pc = r.pc := by
  rw [ERegs.land_p, ERegs.with_p_pc]

theorem ERegs.land_m (r : ERegs) (ce : Bool) (n : Nat) (v : Nat) : r.land ce (.m n) v =
    { r with m := Tbl.put (fun _ => 0) r.m n (BitVec.ofNat 32 v) } := rfl
@[simp] theorem ERegs.land_m_v (r : ERegs) (ce : Bool) (n : Nat) (v : Nat) : (r.land ce (.m n) v).v = r.v := by
  rw [ERegs.land_m, ERegs.with_m_v]
@[simp] theorem ERegs.land_m_a (r : ERegs) (ce : Bool) (n : Nat) (v : Nat) : (r.land ce (.m n) v).a = r.a := by
  rw [ERegs.land_m, ERegs.with_m_a]
@[simp] theorem ERegs.land_m_am (r : ERegs) (ce : Bool) (n : Nat) (v : Nat) : (r.land ce (.m n) v).am = r.am := by
  rw [ERegs.land_m, ERegs.with_m_am]
@[simp] theorem ERegs.land_m_q (r : ERegs) (ce : Bool) (n : Nat) (v : Nat) : (r.land ce (.m n) v).q = r.q := by
  rw [ERegs.land_m, ERegs.with_m_q]
@[simp] theorem ERegs.land_m_g (r : ERegs) (ce : Bool) (n : Nat) (v : Nat) : (r.land ce (.m n) v).g = r.g := by
  rw [ERegs.land_m, ERegs.with_m_g]
@[simp] theorem ERegs.land_m_p (r : ERegs) (ce : Bool) (n : Nat) (v : Nat) : (r.land ce (.m n) v).p = r.p := by
  rw [ERegs.land_m, ERegs.with_m_p]
@[simp] theorem ERegs.land_m_b (r : ERegs) (ce : Bool) (n : Nat) (v : Nat) : (r.land ce (.m n) v).b = r.b := by
  rw [ERegs.land_m, ERegs.with_m_b]
@[simp] theorem ERegs.land_m_bStg (r : ERegs) (ce : Bool) (n : Nat) (v : Nat) : (r.land ce (.m n) v).bStg = r.bStg := by
  rw [ERegs.land_m, ERegs.with_m_bStg]
@[simp] theorem ERegs.land_m_lcnt (r : ERegs) (ce : Bool) (n : Nat) (v : Nat) : (r.land ce (.m n) v).lcnt = r.lcnt := by
  rw [ERegs.land_m, ERegs.with_m_lcnt]
@[simp] theorem ERegs.land_m_lbeg (r : ERegs) (ce : Bool) (n : Nat) (v : Nat) : (r.land ce (.m n) v).lbeg = r.lbeg := by
  rw [ERegs.land_m, ERegs.with_m_lbeg]
@[simp] theorem ERegs.land_m_lend (r : ERegs) (ce : Bool) (n : Nat) (v : Nat) : (r.land ce (.m n) v).lend = r.lend := by
  rw [ERegs.land_m, ERegs.with_m_lend]
@[simp] theorem ERegs.land_m_ldepth (r : ERegs) (ce : Bool) (n : Nat) (v : Nat) : (r.land ce (.m n) v).ldepth = r.ldepth := by
  rw [ERegs.land_m, ERegs.with_m_ldepth]
@[simp] theorem ERegs.land_m_ectl (r : ERegs) (ce : Bool) (n : Nat) (v : Nat) : (r.land ce (.m n) v).ectl = r.ectl := by
  rw [ERegs.land_m, ERegs.with_m_ectl]
@[simp] theorem ERegs.land_m_est (r : ERegs) (ce : Bool) (n : Nat) (v : Nat) : (r.land ce (.m n) v).est = r.est := by
  rw [ERegs.land_m, ERegs.with_m_est]
@[simp] theorem ERegs.land_m_ipc (r : ERegs) (ce : Bool) (n : Nat) (v : Nat) : (r.land ce (.m n) v).ipc = r.ipc := by
  rw [ERegs.land_m, ERegs.with_m_ipc]
@[simp] theorem ERegs.land_m_iest (r : ERegs) (ce : Bool) (n : Nat) (v : Nat) : (r.land ce (.m n) v).iest = r.iest := by
  rw [ERegs.land_m, ERegs.with_m_iest]
@[simp] theorem ERegs.land_m_ivb (r : ERegs) (ce : Bool) (n : Nat) (v : Nat) : (r.land ce (.m n) v).ivb = r.ivb := by
  rw [ERegs.land_m, ERegs.with_m_ivb]
@[simp] theorem ERegs.land_m_hr (r : ERegs) (ce : Bool) (n : Nat) (v : Nat) : (r.land ce (.m n) v).hr = r.hr := by
  rw [ERegs.land_m, ERegs.with_m_hr]
@[simp] theorem ERegs.land_m_pc (r : ERegs) (ce : Bool) (n : Nat) (v : Nat) : (r.land ce (.m n) v).pc = r.pc := by
  rw [ERegs.land_m, ERegs.with_m_pc]

theorem ERegs.land_flags (r : ERegs) (ce : Bool) (v : Nat) : r.land ce .flags v =
    { r with est := setBits r.est 3 0 v } := rfl
@[simp] theorem ERegs.land_flags_v (r : ERegs) (ce : Bool) (v : Nat) : (r.land ce .flags v).v = r.v := by
  rw [ERegs.land_flags, ERegs.with_est_v]
@[simp] theorem ERegs.land_flags_a (r : ERegs) (ce : Bool) (v : Nat) : (r.land ce .flags v).a = r.a := by
  rw [ERegs.land_flags, ERegs.with_est_a]
@[simp] theorem ERegs.land_flags_am (r : ERegs) (ce : Bool) (v : Nat) : (r.land ce .flags v).am = r.am := by
  rw [ERegs.land_flags, ERegs.with_est_am]
@[simp] theorem ERegs.land_flags_q (r : ERegs) (ce : Bool) (v : Nat) : (r.land ce .flags v).q = r.q := by
  rw [ERegs.land_flags, ERegs.with_est_q]
@[simp] theorem ERegs.land_flags_g (r : ERegs) (ce : Bool) (v : Nat) : (r.land ce .flags v).g = r.g := by
  rw [ERegs.land_flags, ERegs.with_est_g]
@[simp] theorem ERegs.land_flags_p (r : ERegs) (ce : Bool) (v : Nat) : (r.land ce .flags v).p = r.p := by
  rw [ERegs.land_flags, ERegs.with_est_p]
@[simp] theorem ERegs.land_flags_m (r : ERegs) (ce : Bool) (v : Nat) : (r.land ce .flags v).m = r.m := by
  rw [ERegs.land_flags, ERegs.with_est_m]
@[simp] theorem ERegs.land_flags_b (r : ERegs) (ce : Bool) (v : Nat) : (r.land ce .flags v).b = r.b := by
  rw [ERegs.land_flags, ERegs.with_est_b]
@[simp] theorem ERegs.land_flags_bStg (r : ERegs) (ce : Bool) (v : Nat) : (r.land ce .flags v).bStg = r.bStg := by
  rw [ERegs.land_flags, ERegs.with_est_bStg]
@[simp] theorem ERegs.land_flags_lcnt (r : ERegs) (ce : Bool) (v : Nat) : (r.land ce .flags v).lcnt = r.lcnt := by
  rw [ERegs.land_flags, ERegs.with_est_lcnt]
@[simp] theorem ERegs.land_flags_lbeg (r : ERegs) (ce : Bool) (v : Nat) : (r.land ce .flags v).lbeg = r.lbeg := by
  rw [ERegs.land_flags, ERegs.with_est_lbeg]
@[simp] theorem ERegs.land_flags_lend (r : ERegs) (ce : Bool) (v : Nat) : (r.land ce .flags v).lend = r.lend := by
  rw [ERegs.land_flags, ERegs.with_est_lend]
@[simp] theorem ERegs.land_flags_ldepth (r : ERegs) (ce : Bool) (v : Nat) : (r.land ce .flags v).ldepth = r.ldepth := by
  rw [ERegs.land_flags, ERegs.with_est_ldepth]
@[simp] theorem ERegs.land_flags_ectl (r : ERegs) (ce : Bool) (v : Nat) : (r.land ce .flags v).ectl = r.ectl := by
  rw [ERegs.land_flags, ERegs.with_est_ectl]
@[simp] theorem ERegs.land_flags_ipc (r : ERegs) (ce : Bool) (v : Nat) : (r.land ce .flags v).ipc = r.ipc := by
  rw [ERegs.land_flags, ERegs.with_est_ipc]
@[simp] theorem ERegs.land_flags_iest (r : ERegs) (ce : Bool) (v : Nat) : (r.land ce .flags v).iest = r.iest := by
  rw [ERegs.land_flags, ERegs.with_est_iest]
@[simp] theorem ERegs.land_flags_ivb (r : ERegs) (ce : Bool) (v : Nat) : (r.land ce .flags v).ivb = r.ivb := by
  rw [ERegs.land_flags, ERegs.with_est_ivb]
@[simp] theorem ERegs.land_flags_hr (r : ERegs) (ce : Bool) (v : Nat) : (r.land ce .flags v).hr = r.hr := by
  rw [ERegs.land_flags, ERegs.with_est_hr]
@[simp] theorem ERegs.land_flags_pc (r : ERegs) (ce : Bool) (v : Nat) : (r.land ce .flags v).pc = r.pc := by
  rw [ERegs.land_flags, ERegs.with_est_pc]

theorem ERegs.land_sticky (r : ERegs) (ce : Bool) (b : Nat) (v : Nat) : r.land ce (.sticky b) v =
    { r with est := setBits r.est b b 1 } := rfl
@[simp] theorem ERegs.land_sticky_v (r : ERegs) (ce : Bool) (b : Nat) (v : Nat) : (r.land ce (.sticky b) v).v = r.v := by
  rw [ERegs.land_sticky, ERegs.with_est_v]
@[simp] theorem ERegs.land_sticky_a (r : ERegs) (ce : Bool) (b : Nat) (v : Nat) : (r.land ce (.sticky b) v).a = r.a := by
  rw [ERegs.land_sticky, ERegs.with_est_a]
@[simp] theorem ERegs.land_sticky_am (r : ERegs) (ce : Bool) (b : Nat) (v : Nat) : (r.land ce (.sticky b) v).am = r.am := by
  rw [ERegs.land_sticky, ERegs.with_est_am]
@[simp] theorem ERegs.land_sticky_q (r : ERegs) (ce : Bool) (b : Nat) (v : Nat) : (r.land ce (.sticky b) v).q = r.q := by
  rw [ERegs.land_sticky, ERegs.with_est_q]
@[simp] theorem ERegs.land_sticky_g (r : ERegs) (ce : Bool) (b : Nat) (v : Nat) : (r.land ce (.sticky b) v).g = r.g := by
  rw [ERegs.land_sticky, ERegs.with_est_g]
@[simp] theorem ERegs.land_sticky_p (r : ERegs) (ce : Bool) (b : Nat) (v : Nat) : (r.land ce (.sticky b) v).p = r.p := by
  rw [ERegs.land_sticky, ERegs.with_est_p]
@[simp] theorem ERegs.land_sticky_m (r : ERegs) (ce : Bool) (b : Nat) (v : Nat) : (r.land ce (.sticky b) v).m = r.m := by
  rw [ERegs.land_sticky, ERegs.with_est_m]
@[simp] theorem ERegs.land_sticky_b (r : ERegs) (ce : Bool) (b : Nat) (v : Nat) : (r.land ce (.sticky b) v).b = r.b := by
  rw [ERegs.land_sticky, ERegs.with_est_b]
@[simp] theorem ERegs.land_sticky_bStg (r : ERegs) (ce : Bool) (b : Nat) (v : Nat) : (r.land ce (.sticky b) v).bStg = r.bStg := by
  rw [ERegs.land_sticky, ERegs.with_est_bStg]
@[simp] theorem ERegs.land_sticky_lcnt (r : ERegs) (ce : Bool) (b : Nat) (v : Nat) : (r.land ce (.sticky b) v).lcnt = r.lcnt := by
  rw [ERegs.land_sticky, ERegs.with_est_lcnt]
@[simp] theorem ERegs.land_sticky_lbeg (r : ERegs) (ce : Bool) (b : Nat) (v : Nat) : (r.land ce (.sticky b) v).lbeg = r.lbeg := by
  rw [ERegs.land_sticky, ERegs.with_est_lbeg]
@[simp] theorem ERegs.land_sticky_lend (r : ERegs) (ce : Bool) (b : Nat) (v : Nat) : (r.land ce (.sticky b) v).lend = r.lend := by
  rw [ERegs.land_sticky, ERegs.with_est_lend]
@[simp] theorem ERegs.land_sticky_ldepth (r : ERegs) (ce : Bool) (b : Nat) (v : Nat) : (r.land ce (.sticky b) v).ldepth = r.ldepth := by
  rw [ERegs.land_sticky, ERegs.with_est_ldepth]
@[simp] theorem ERegs.land_sticky_ectl (r : ERegs) (ce : Bool) (b : Nat) (v : Nat) : (r.land ce (.sticky b) v).ectl = r.ectl := by
  rw [ERegs.land_sticky, ERegs.with_est_ectl]
@[simp] theorem ERegs.land_sticky_ipc (r : ERegs) (ce : Bool) (b : Nat) (v : Nat) : (r.land ce (.sticky b) v).ipc = r.ipc := by
  rw [ERegs.land_sticky, ERegs.with_est_ipc]
@[simp] theorem ERegs.land_sticky_iest (r : ERegs) (ce : Bool) (b : Nat) (v : Nat) : (r.land ce (.sticky b) v).iest = r.iest := by
  rw [ERegs.land_sticky, ERegs.with_est_iest]
@[simp] theorem ERegs.land_sticky_ivb (r : ERegs) (ce : Bool) (b : Nat) (v : Nat) : (r.land ce (.sticky b) v).ivb = r.ivb := by
  rw [ERegs.land_sticky, ERegs.with_est_ivb]
@[simp] theorem ERegs.land_sticky_hr (r : ERegs) (ce : Bool) (b : Nat) (v : Nat) : (r.land ce (.sticky b) v).hr = r.hr := by
  rw [ERegs.land_sticky, ERegs.with_est_hr]
@[simp] theorem ERegs.land_sticky_pc (r : ERegs) (ce : Bool) (b : Nat) (v : Nat) : (r.land ce (.sticky b) v).pc = r.pc := by
  rw [ERegs.land_sticky, ERegs.with_est_pc]

theorem ERegs.land_ectl (r : ERegs) (ce : Bool) (v : Nat) : r.land ce .ectl v =
    { r with ectl := BitVec.ofNat 32 v } := rfl
@[simp] theorem ERegs.land_ectl_v (r : ERegs) (ce : Bool) (v : Nat) : (r.land ce .ectl v).v = r.v := by
  rw [ERegs.land_ectl, ERegs.with_ectl_v]
@[simp] theorem ERegs.land_ectl_a (r : ERegs) (ce : Bool) (v : Nat) : (r.land ce .ectl v).a = r.a := by
  rw [ERegs.land_ectl, ERegs.with_ectl_a]
@[simp] theorem ERegs.land_ectl_am (r : ERegs) (ce : Bool) (v : Nat) : (r.land ce .ectl v).am = r.am := by
  rw [ERegs.land_ectl, ERegs.with_ectl_am]
@[simp] theorem ERegs.land_ectl_q (r : ERegs) (ce : Bool) (v : Nat) : (r.land ce .ectl v).q = r.q := by
  rw [ERegs.land_ectl, ERegs.with_ectl_q]
@[simp] theorem ERegs.land_ectl_g (r : ERegs) (ce : Bool) (v : Nat) : (r.land ce .ectl v).g = r.g := by
  rw [ERegs.land_ectl, ERegs.with_ectl_g]
@[simp] theorem ERegs.land_ectl_p (r : ERegs) (ce : Bool) (v : Nat) : (r.land ce .ectl v).p = r.p := by
  rw [ERegs.land_ectl, ERegs.with_ectl_p]
@[simp] theorem ERegs.land_ectl_m (r : ERegs) (ce : Bool) (v : Nat) : (r.land ce .ectl v).m = r.m := by
  rw [ERegs.land_ectl, ERegs.with_ectl_m]
@[simp] theorem ERegs.land_ectl_b (r : ERegs) (ce : Bool) (v : Nat) : (r.land ce .ectl v).b = r.b := by
  rw [ERegs.land_ectl, ERegs.with_ectl_b]
@[simp] theorem ERegs.land_ectl_bStg (r : ERegs) (ce : Bool) (v : Nat) : (r.land ce .ectl v).bStg = r.bStg := by
  rw [ERegs.land_ectl, ERegs.with_ectl_bStg]
@[simp] theorem ERegs.land_ectl_lcnt (r : ERegs) (ce : Bool) (v : Nat) : (r.land ce .ectl v).lcnt = r.lcnt := by
  rw [ERegs.land_ectl, ERegs.with_ectl_lcnt]
@[simp] theorem ERegs.land_ectl_lbeg (r : ERegs) (ce : Bool) (v : Nat) : (r.land ce .ectl v).lbeg = r.lbeg := by
  rw [ERegs.land_ectl, ERegs.with_ectl_lbeg]
@[simp] theorem ERegs.land_ectl_lend (r : ERegs) (ce : Bool) (v : Nat) : (r.land ce .ectl v).lend = r.lend := by
  rw [ERegs.land_ectl, ERegs.with_ectl_lend]
@[simp] theorem ERegs.land_ectl_ldepth (r : ERegs) (ce : Bool) (v : Nat) : (r.land ce .ectl v).ldepth = r.ldepth := by
  rw [ERegs.land_ectl, ERegs.with_ectl_ldepth]
@[simp] theorem ERegs.land_ectl_est (r : ERegs) (ce : Bool) (v : Nat) : (r.land ce .ectl v).est = r.est := by
  rw [ERegs.land_ectl, ERegs.with_ectl_est]
@[simp] theorem ERegs.land_ectl_ipc (r : ERegs) (ce : Bool) (v : Nat) : (r.land ce .ectl v).ipc = r.ipc := by
  rw [ERegs.land_ectl, ERegs.with_ectl_ipc]
@[simp] theorem ERegs.land_ectl_iest (r : ERegs) (ce : Bool) (v : Nat) : (r.land ce .ectl v).iest = r.iest := by
  rw [ERegs.land_ectl, ERegs.with_ectl_iest]
@[simp] theorem ERegs.land_ectl_ivb (r : ERegs) (ce : Bool) (v : Nat) : (r.land ce .ectl v).ivb = r.ivb := by
  rw [ERegs.land_ectl, ERegs.with_ectl_ivb]
@[simp] theorem ERegs.land_ectl_hr (r : ERegs) (ce : Bool) (v : Nat) : (r.land ce .ectl v).hr = r.hr := by
  rw [ERegs.land_ectl, ERegs.with_ectl_hr]
@[simp] theorem ERegs.land_ectl_pc (r : ERegs) (ce : Bool) (v : Nat) : (r.land ce .ectl v).pc = r.pc := by
  rw [ERegs.land_ectl, ERegs.with_ectl_pc]

theorem ERegs.land_sys (r : ERegs) (ce : Bool) (n v : Nat) : r.land ce (.sys n) v =
    if n = 1 then { r with est := BitVec.ofNat 32 v } else if n = 2 then { r with ipc := v % 2 ^ 15 }
    else if n = 3 then { r with iest := BitVec.ofNat 32 v } else { r with ivb := v % 2 ^ 15 } := rfl
@[simp] theorem ERegs.land_sys_v (r : ERegs) (ce : Bool) (n v : Nat) : (r.land ce (.sys n) v).v = r.v := by
  rw [ERegs.land_sys]; repeat' split
  · rw [ERegs.with_est_v]
  · rw [ERegs.with_ipc_v]
  · rw [ERegs.with_iest_v]
  · rw [ERegs.with_ivb_v]
@[simp] theorem ERegs.land_sys_a (r : ERegs) (ce : Bool) (n v : Nat) : (r.land ce (.sys n) v).a = r.a := by
  rw [ERegs.land_sys]; repeat' split
  · rw [ERegs.with_est_a]
  · rw [ERegs.with_ipc_a]
  · rw [ERegs.with_iest_a]
  · rw [ERegs.with_ivb_a]
@[simp] theorem ERegs.land_sys_am (r : ERegs) (ce : Bool) (n v : Nat) : (r.land ce (.sys n) v).am = r.am := by
  rw [ERegs.land_sys]; repeat' split
  · rw [ERegs.with_est_am]
  · rw [ERegs.with_ipc_am]
  · rw [ERegs.with_iest_am]
  · rw [ERegs.with_ivb_am]
@[simp] theorem ERegs.land_sys_q (r : ERegs) (ce : Bool) (n v : Nat) : (r.land ce (.sys n) v).q = r.q := by
  rw [ERegs.land_sys]; repeat' split
  · rw [ERegs.with_est_q]
  · rw [ERegs.with_ipc_q]
  · rw [ERegs.with_iest_q]
  · rw [ERegs.with_ivb_q]
@[simp] theorem ERegs.land_sys_g (r : ERegs) (ce : Bool) (n v : Nat) : (r.land ce (.sys n) v).g = r.g := by
  rw [ERegs.land_sys]; repeat' split
  · rw [ERegs.with_est_g]
  · rw [ERegs.with_ipc_g]
  · rw [ERegs.with_iest_g]
  · rw [ERegs.with_ivb_g]
@[simp] theorem ERegs.land_sys_p (r : ERegs) (ce : Bool) (n v : Nat) : (r.land ce (.sys n) v).p = r.p := by
  rw [ERegs.land_sys]; repeat' split
  · rw [ERegs.with_est_p]
  · rw [ERegs.with_ipc_p]
  · rw [ERegs.with_iest_p]
  · rw [ERegs.with_ivb_p]
@[simp] theorem ERegs.land_sys_m (r : ERegs) (ce : Bool) (n v : Nat) : (r.land ce (.sys n) v).m = r.m := by
  rw [ERegs.land_sys]; repeat' split
  · rw [ERegs.with_est_m]
  · rw [ERegs.with_ipc_m]
  · rw [ERegs.with_iest_m]
  · rw [ERegs.with_ivb_m]
@[simp] theorem ERegs.land_sys_b (r : ERegs) (ce : Bool) (n v : Nat) : (r.land ce (.sys n) v).b = r.b := by
  rw [ERegs.land_sys]; repeat' split
  · rw [ERegs.with_est_b]
  · rw [ERegs.with_ipc_b]
  · rw [ERegs.with_iest_b]
  · rw [ERegs.with_ivb_b]
@[simp] theorem ERegs.land_sys_bStg (r : ERegs) (ce : Bool) (n v : Nat) : (r.land ce (.sys n) v).bStg = r.bStg := by
  rw [ERegs.land_sys]; repeat' split
  · rw [ERegs.with_est_bStg]
  · rw [ERegs.with_ipc_bStg]
  · rw [ERegs.with_iest_bStg]
  · rw [ERegs.with_ivb_bStg]
@[simp] theorem ERegs.land_sys_lcnt (r : ERegs) (ce : Bool) (n v : Nat) : (r.land ce (.sys n) v).lcnt = r.lcnt := by
  rw [ERegs.land_sys]; repeat' split
  · rw [ERegs.with_est_lcnt]
  · rw [ERegs.with_ipc_lcnt]
  · rw [ERegs.with_iest_lcnt]
  · rw [ERegs.with_ivb_lcnt]
@[simp] theorem ERegs.land_sys_lbeg (r : ERegs) (ce : Bool) (n v : Nat) : (r.land ce (.sys n) v).lbeg = r.lbeg := by
  rw [ERegs.land_sys]; repeat' split
  · rw [ERegs.with_est_lbeg]
  · rw [ERegs.with_ipc_lbeg]
  · rw [ERegs.with_iest_lbeg]
  · rw [ERegs.with_ivb_lbeg]
@[simp] theorem ERegs.land_sys_lend (r : ERegs) (ce : Bool) (n v : Nat) : (r.land ce (.sys n) v).lend = r.lend := by
  rw [ERegs.land_sys]; repeat' split
  · rw [ERegs.with_est_lend]
  · rw [ERegs.with_ipc_lend]
  · rw [ERegs.with_iest_lend]
  · rw [ERegs.with_ivb_lend]
@[simp] theorem ERegs.land_sys_ldepth (r : ERegs) (ce : Bool) (n v : Nat) : (r.land ce (.sys n) v).ldepth = r.ldepth := by
  rw [ERegs.land_sys]; repeat' split
  · rw [ERegs.with_est_ldepth]
  · rw [ERegs.with_ipc_ldepth]
  · rw [ERegs.with_iest_ldepth]
  · rw [ERegs.with_ivb_ldepth]
@[simp] theorem ERegs.land_sys_ectl (r : ERegs) (ce : Bool) (n v : Nat) : (r.land ce (.sys n) v).ectl = r.ectl := by
  rw [ERegs.land_sys]; repeat' split
  · rw [ERegs.with_est_ectl]
  · rw [ERegs.with_ipc_ectl]
  · rw [ERegs.with_iest_ectl]
  · rw [ERegs.with_ivb_ectl]
@[simp] theorem ERegs.land_sys_hr (r : ERegs) (ce : Bool) (n v : Nat) : (r.land ce (.sys n) v).hr = r.hr := by
  rw [ERegs.land_sys]; repeat' split
  · rw [ERegs.with_est_hr]
  · rw [ERegs.with_ipc_hr]
  · rw [ERegs.with_iest_hr]
  · rw [ERegs.with_ivb_hr]
@[simp] theorem ERegs.land_sys_pc (r : ERegs) (ce : Bool) (n v : Nat) : (r.land ce (.sys n) v).pc = r.pc := by
  rw [ERegs.land_sys]; repeat' split
  · rw [ERegs.with_est_pc]
  · rw [ERegs.with_ipc_pc]
  · rw [ERegs.with_iest_pc]
  · rw [ERegs.with_ivb_pc]
theorem ERegs.land_lcnt (r : ERegs) (ce : Bool) (n : Nat) (v : Nat) : r.land ce (.lcnt n) v =
    { r with lcnt := Tbl.put (fun _ => 0) r.lcnt n (v % 2 ^ 24) } := rfl
@[simp] theorem ERegs.land_lcnt_v (r : ERegs) (ce : Bool) (n : Nat) (v : Nat) : (r.land ce (.lcnt n) v).v = r.v := by
  rw [ERegs.land_lcnt, ERegs.with_lcnt_v]
@[simp] theorem ERegs.land_lcnt_a (r : ERegs) (ce : Bool) (n : Nat) (v : Nat) : (r.land ce (.lcnt n) v).a = r.a := by
  rw [ERegs.land_lcnt, ERegs.with_lcnt_a]
@[simp] theorem ERegs.land_lcnt_am (r : ERegs) (ce : Bool) (n : Nat) (v : Nat) : (r.land ce (.lcnt n) v).am = r.am := by
  rw [ERegs.land_lcnt, ERegs.with_lcnt_am]
@[simp] theorem ERegs.land_lcnt_q (r : ERegs) (ce : Bool) (n : Nat) (v : Nat) : (r.land ce (.lcnt n) v).q = r.q := by
  rw [ERegs.land_lcnt, ERegs.with_lcnt_q]
@[simp] theorem ERegs.land_lcnt_g (r : ERegs) (ce : Bool) (n : Nat) (v : Nat) : (r.land ce (.lcnt n) v).g = r.g := by
  rw [ERegs.land_lcnt, ERegs.with_lcnt_g]
@[simp] theorem ERegs.land_lcnt_p (r : ERegs) (ce : Bool) (n : Nat) (v : Nat) : (r.land ce (.lcnt n) v).p = r.p := by
  rw [ERegs.land_lcnt, ERegs.with_lcnt_p]
@[simp] theorem ERegs.land_lcnt_m (r : ERegs) (ce : Bool) (n : Nat) (v : Nat) : (r.land ce (.lcnt n) v).m = r.m := by
  rw [ERegs.land_lcnt, ERegs.with_lcnt_m]
@[simp] theorem ERegs.land_lcnt_b (r : ERegs) (ce : Bool) (n : Nat) (v : Nat) : (r.land ce (.lcnt n) v).b = r.b := by
  rw [ERegs.land_lcnt, ERegs.with_lcnt_b]
@[simp] theorem ERegs.land_lcnt_bStg (r : ERegs) (ce : Bool) (n : Nat) (v : Nat) : (r.land ce (.lcnt n) v).bStg = r.bStg := by
  rw [ERegs.land_lcnt, ERegs.with_lcnt_bStg]
@[simp] theorem ERegs.land_lcnt_lbeg (r : ERegs) (ce : Bool) (n : Nat) (v : Nat) : (r.land ce (.lcnt n) v).lbeg = r.lbeg := by
  rw [ERegs.land_lcnt, ERegs.with_lcnt_lbeg]
@[simp] theorem ERegs.land_lcnt_lend (r : ERegs) (ce : Bool) (n : Nat) (v : Nat) : (r.land ce (.lcnt n) v).lend = r.lend := by
  rw [ERegs.land_lcnt, ERegs.with_lcnt_lend]
@[simp] theorem ERegs.land_lcnt_ldepth (r : ERegs) (ce : Bool) (n : Nat) (v : Nat) : (r.land ce (.lcnt n) v).ldepth = r.ldepth := by
  rw [ERegs.land_lcnt, ERegs.with_lcnt_ldepth]
@[simp] theorem ERegs.land_lcnt_ectl (r : ERegs) (ce : Bool) (n : Nat) (v : Nat) : (r.land ce (.lcnt n) v).ectl = r.ectl := by
  rw [ERegs.land_lcnt, ERegs.with_lcnt_ectl]
@[simp] theorem ERegs.land_lcnt_est (r : ERegs) (ce : Bool) (n : Nat) (v : Nat) : (r.land ce (.lcnt n) v).est = r.est := by
  rw [ERegs.land_lcnt, ERegs.with_lcnt_est]
@[simp] theorem ERegs.land_lcnt_ipc (r : ERegs) (ce : Bool) (n : Nat) (v : Nat) : (r.land ce (.lcnt n) v).ipc = r.ipc := by
  rw [ERegs.land_lcnt, ERegs.with_lcnt_ipc]
@[simp] theorem ERegs.land_lcnt_iest (r : ERegs) (ce : Bool) (n : Nat) (v : Nat) : (r.land ce (.lcnt n) v).iest = r.iest := by
  rw [ERegs.land_lcnt, ERegs.with_lcnt_iest]
@[simp] theorem ERegs.land_lcnt_ivb (r : ERegs) (ce : Bool) (n : Nat) (v : Nat) : (r.land ce (.lcnt n) v).ivb = r.ivb := by
  rw [ERegs.land_lcnt, ERegs.with_lcnt_ivb]
@[simp] theorem ERegs.land_lcnt_hr (r : ERegs) (ce : Bool) (n : Nat) (v : Nat) : (r.land ce (.lcnt n) v).hr = r.hr := by
  rw [ERegs.land_lcnt, ERegs.with_lcnt_hr]
@[simp] theorem ERegs.land_lcnt_pc (r : ERegs) (ce : Bool) (n : Nat) (v : Nat) : (r.land ce (.lcnt n) v).pc = r.pc := by
  rw [ERegs.land_lcnt, ERegs.with_lcnt_pc]

theorem ERegs.land_lbeg (r : ERegs) (ce : Bool) (n : Nat) (v : Nat) : r.land ce (.lbeg n) v =
    { r with lbeg := Tbl.put (fun _ => 0) r.lbeg n (v % 2 ^ 15) } := rfl
@[simp] theorem ERegs.land_lbeg_v (r : ERegs) (ce : Bool) (n : Nat) (v : Nat) : (r.land ce (.lbeg n) v).v = r.v := by
  rw [ERegs.land_lbeg, ERegs.with_lbeg_v]
@[simp] theorem ERegs.land_lbeg_a (r : ERegs) (ce : Bool) (n : Nat) (v : Nat) : (r.land ce (.lbeg n) v).a = r.a := by
  rw [ERegs.land_lbeg, ERegs.with_lbeg_a]
@[simp] theorem ERegs.land_lbeg_am (r : ERegs) (ce : Bool) (n : Nat) (v : Nat) : (r.land ce (.lbeg n) v).am = r.am := by
  rw [ERegs.land_lbeg, ERegs.with_lbeg_am]
@[simp] theorem ERegs.land_lbeg_q (r : ERegs) (ce : Bool) (n : Nat) (v : Nat) : (r.land ce (.lbeg n) v).q = r.q := by
  rw [ERegs.land_lbeg, ERegs.with_lbeg_q]
@[simp] theorem ERegs.land_lbeg_g (r : ERegs) (ce : Bool) (n : Nat) (v : Nat) : (r.land ce (.lbeg n) v).g = r.g := by
  rw [ERegs.land_lbeg, ERegs.with_lbeg_g]
@[simp] theorem ERegs.land_lbeg_p (r : ERegs) (ce : Bool) (n : Nat) (v : Nat) : (r.land ce (.lbeg n) v).p = r.p := by
  rw [ERegs.land_lbeg, ERegs.with_lbeg_p]
@[simp] theorem ERegs.land_lbeg_m (r : ERegs) (ce : Bool) (n : Nat) (v : Nat) : (r.land ce (.lbeg n) v).m = r.m := by
  rw [ERegs.land_lbeg, ERegs.with_lbeg_m]
@[simp] theorem ERegs.land_lbeg_b (r : ERegs) (ce : Bool) (n : Nat) (v : Nat) : (r.land ce (.lbeg n) v).b = r.b := by
  rw [ERegs.land_lbeg, ERegs.with_lbeg_b]
@[simp] theorem ERegs.land_lbeg_bStg (r : ERegs) (ce : Bool) (n : Nat) (v : Nat) : (r.land ce (.lbeg n) v).bStg = r.bStg := by
  rw [ERegs.land_lbeg, ERegs.with_lbeg_bStg]
@[simp] theorem ERegs.land_lbeg_lcnt (r : ERegs) (ce : Bool) (n : Nat) (v : Nat) : (r.land ce (.lbeg n) v).lcnt = r.lcnt := by
  rw [ERegs.land_lbeg, ERegs.with_lbeg_lcnt]
@[simp] theorem ERegs.land_lbeg_lend (r : ERegs) (ce : Bool) (n : Nat) (v : Nat) : (r.land ce (.lbeg n) v).lend = r.lend := by
  rw [ERegs.land_lbeg, ERegs.with_lbeg_lend]
@[simp] theorem ERegs.land_lbeg_ldepth (r : ERegs) (ce : Bool) (n : Nat) (v : Nat) : (r.land ce (.lbeg n) v).ldepth = r.ldepth := by
  rw [ERegs.land_lbeg, ERegs.with_lbeg_ldepth]
@[simp] theorem ERegs.land_lbeg_ectl (r : ERegs) (ce : Bool) (n : Nat) (v : Nat) : (r.land ce (.lbeg n) v).ectl = r.ectl := by
  rw [ERegs.land_lbeg, ERegs.with_lbeg_ectl]
@[simp] theorem ERegs.land_lbeg_est (r : ERegs) (ce : Bool) (n : Nat) (v : Nat) : (r.land ce (.lbeg n) v).est = r.est := by
  rw [ERegs.land_lbeg, ERegs.with_lbeg_est]
@[simp] theorem ERegs.land_lbeg_ipc (r : ERegs) (ce : Bool) (n : Nat) (v : Nat) : (r.land ce (.lbeg n) v).ipc = r.ipc := by
  rw [ERegs.land_lbeg, ERegs.with_lbeg_ipc]
@[simp] theorem ERegs.land_lbeg_iest (r : ERegs) (ce : Bool) (n : Nat) (v : Nat) : (r.land ce (.lbeg n) v).iest = r.iest := by
  rw [ERegs.land_lbeg, ERegs.with_lbeg_iest]
@[simp] theorem ERegs.land_lbeg_ivb (r : ERegs) (ce : Bool) (n : Nat) (v : Nat) : (r.land ce (.lbeg n) v).ivb = r.ivb := by
  rw [ERegs.land_lbeg, ERegs.with_lbeg_ivb]
@[simp] theorem ERegs.land_lbeg_hr (r : ERegs) (ce : Bool) (n : Nat) (v : Nat) : (r.land ce (.lbeg n) v).hr = r.hr := by
  rw [ERegs.land_lbeg, ERegs.with_lbeg_hr]
@[simp] theorem ERegs.land_lbeg_pc (r : ERegs) (ce : Bool) (n : Nat) (v : Nat) : (r.land ce (.lbeg n) v).pc = r.pc := by
  rw [ERegs.land_lbeg, ERegs.with_lbeg_pc]

theorem ERegs.land_lend (r : ERegs) (ce : Bool) (n : Nat) (v : Nat) : r.land ce (.lend n) v =
    { r with lend := Tbl.put (fun _ => 0) r.lend n (v % 2 ^ 15) } := rfl
@[simp] theorem ERegs.land_lend_v (r : ERegs) (ce : Bool) (n : Nat) (v : Nat) : (r.land ce (.lend n) v).v = r.v := by
  rw [ERegs.land_lend, ERegs.with_lend_v]
@[simp] theorem ERegs.land_lend_a (r : ERegs) (ce : Bool) (n : Nat) (v : Nat) : (r.land ce (.lend n) v).a = r.a := by
  rw [ERegs.land_lend, ERegs.with_lend_a]
@[simp] theorem ERegs.land_lend_am (r : ERegs) (ce : Bool) (n : Nat) (v : Nat) : (r.land ce (.lend n) v).am = r.am := by
  rw [ERegs.land_lend, ERegs.with_lend_am]
@[simp] theorem ERegs.land_lend_q (r : ERegs) (ce : Bool) (n : Nat) (v : Nat) : (r.land ce (.lend n) v).q = r.q := by
  rw [ERegs.land_lend, ERegs.with_lend_q]
@[simp] theorem ERegs.land_lend_g (r : ERegs) (ce : Bool) (n : Nat) (v : Nat) : (r.land ce (.lend n) v).g = r.g := by
  rw [ERegs.land_lend, ERegs.with_lend_g]
@[simp] theorem ERegs.land_lend_p (r : ERegs) (ce : Bool) (n : Nat) (v : Nat) : (r.land ce (.lend n) v).p = r.p := by
  rw [ERegs.land_lend, ERegs.with_lend_p]
@[simp] theorem ERegs.land_lend_m (r : ERegs) (ce : Bool) (n : Nat) (v : Nat) : (r.land ce (.lend n) v).m = r.m := by
  rw [ERegs.land_lend, ERegs.with_lend_m]
@[simp] theorem ERegs.land_lend_b (r : ERegs) (ce : Bool) (n : Nat) (v : Nat) : (r.land ce (.lend n) v).b = r.b := by
  rw [ERegs.land_lend, ERegs.with_lend_b]
@[simp] theorem ERegs.land_lend_bStg (r : ERegs) (ce : Bool) (n : Nat) (v : Nat) : (r.land ce (.lend n) v).bStg = r.bStg := by
  rw [ERegs.land_lend, ERegs.with_lend_bStg]
@[simp] theorem ERegs.land_lend_lcnt (r : ERegs) (ce : Bool) (n : Nat) (v : Nat) : (r.land ce (.lend n) v).lcnt = r.lcnt := by
  rw [ERegs.land_lend, ERegs.with_lend_lcnt]
@[simp] theorem ERegs.land_lend_lbeg (r : ERegs) (ce : Bool) (n : Nat) (v : Nat) : (r.land ce (.lend n) v).lbeg = r.lbeg := by
  rw [ERegs.land_lend, ERegs.with_lend_lbeg]
@[simp] theorem ERegs.land_lend_ldepth (r : ERegs) (ce : Bool) (n : Nat) (v : Nat) : (r.land ce (.lend n) v).ldepth = r.ldepth := by
  rw [ERegs.land_lend, ERegs.with_lend_ldepth]
@[simp] theorem ERegs.land_lend_ectl (r : ERegs) (ce : Bool) (n : Nat) (v : Nat) : (r.land ce (.lend n) v).ectl = r.ectl := by
  rw [ERegs.land_lend, ERegs.with_lend_ectl]
@[simp] theorem ERegs.land_lend_est (r : ERegs) (ce : Bool) (n : Nat) (v : Nat) : (r.land ce (.lend n) v).est = r.est := by
  rw [ERegs.land_lend, ERegs.with_lend_est]
@[simp] theorem ERegs.land_lend_ipc (r : ERegs) (ce : Bool) (n : Nat) (v : Nat) : (r.land ce (.lend n) v).ipc = r.ipc := by
  rw [ERegs.land_lend, ERegs.with_lend_ipc]
@[simp] theorem ERegs.land_lend_iest (r : ERegs) (ce : Bool) (n : Nat) (v : Nat) : (r.land ce (.lend n) v).iest = r.iest := by
  rw [ERegs.land_lend, ERegs.with_lend_iest]
@[simp] theorem ERegs.land_lend_ivb (r : ERegs) (ce : Bool) (n : Nat) (v : Nat) : (r.land ce (.lend n) v).ivb = r.ivb := by
  rw [ERegs.land_lend, ERegs.with_lend_ivb]
@[simp] theorem ERegs.land_lend_hr (r : ERegs) (ce : Bool) (n : Nat) (v : Nat) : (r.land ce (.lend n) v).hr = r.hr := by
  rw [ERegs.land_lend, ERegs.with_lend_hr]
@[simp] theorem ERegs.land_lend_pc (r : ERegs) (ce : Bool) (n : Nat) (v : Nat) : (r.land ce (.lend n) v).pc = r.pc := by
  rw [ERegs.land_lend, ERegs.with_lend_pc]

theorem ERegs.land_ldepth (r : ERegs) (ce : Bool) (v : Nat) : r.land ce .ldepth v =
    { r with ldepth := v } := rfl
@[simp] theorem ERegs.land_ldepth_v (r : ERegs) (ce : Bool) (v : Nat) : (r.land ce .ldepth v).v = r.v := by
  rw [ERegs.land_ldepth, ERegs.with_ldepth_v]
@[simp] theorem ERegs.land_ldepth_a (r : ERegs) (ce : Bool) (v : Nat) : (r.land ce .ldepth v).a = r.a := by
  rw [ERegs.land_ldepth, ERegs.with_ldepth_a]
@[simp] theorem ERegs.land_ldepth_am (r : ERegs) (ce : Bool) (v : Nat) : (r.land ce .ldepth v).am = r.am := by
  rw [ERegs.land_ldepth, ERegs.with_ldepth_am]
@[simp] theorem ERegs.land_ldepth_q (r : ERegs) (ce : Bool) (v : Nat) : (r.land ce .ldepth v).q = r.q := by
  rw [ERegs.land_ldepth, ERegs.with_ldepth_q]
@[simp] theorem ERegs.land_ldepth_g (r : ERegs) (ce : Bool) (v : Nat) : (r.land ce .ldepth v).g = r.g := by
  rw [ERegs.land_ldepth, ERegs.with_ldepth_g]
@[simp] theorem ERegs.land_ldepth_p (r : ERegs) (ce : Bool) (v : Nat) : (r.land ce .ldepth v).p = r.p := by
  rw [ERegs.land_ldepth, ERegs.with_ldepth_p]
@[simp] theorem ERegs.land_ldepth_m (r : ERegs) (ce : Bool) (v : Nat) : (r.land ce .ldepth v).m = r.m := by
  rw [ERegs.land_ldepth, ERegs.with_ldepth_m]
@[simp] theorem ERegs.land_ldepth_b (r : ERegs) (ce : Bool) (v : Nat) : (r.land ce .ldepth v).b = r.b := by
  rw [ERegs.land_ldepth, ERegs.with_ldepth_b]
@[simp] theorem ERegs.land_ldepth_bStg (r : ERegs) (ce : Bool) (v : Nat) : (r.land ce .ldepth v).bStg = r.bStg := by
  rw [ERegs.land_ldepth, ERegs.with_ldepth_bStg]
@[simp] theorem ERegs.land_ldepth_lcnt (r : ERegs) (ce : Bool) (v : Nat) : (r.land ce .ldepth v).lcnt = r.lcnt := by
  rw [ERegs.land_ldepth, ERegs.with_ldepth_lcnt]
@[simp] theorem ERegs.land_ldepth_lbeg (r : ERegs) (ce : Bool) (v : Nat) : (r.land ce .ldepth v).lbeg = r.lbeg := by
  rw [ERegs.land_ldepth, ERegs.with_ldepth_lbeg]
@[simp] theorem ERegs.land_ldepth_lend (r : ERegs) (ce : Bool) (v : Nat) : (r.land ce .ldepth v).lend = r.lend := by
  rw [ERegs.land_ldepth, ERegs.with_ldepth_lend]
@[simp] theorem ERegs.land_ldepth_ectl (r : ERegs) (ce : Bool) (v : Nat) : (r.land ce .ldepth v).ectl = r.ectl := by
  rw [ERegs.land_ldepth, ERegs.with_ldepth_ectl]
@[simp] theorem ERegs.land_ldepth_est (r : ERegs) (ce : Bool) (v : Nat) : (r.land ce .ldepth v).est = r.est := by
  rw [ERegs.land_ldepth, ERegs.with_ldepth_est]
@[simp] theorem ERegs.land_ldepth_ipc (r : ERegs) (ce : Bool) (v : Nat) : (r.land ce .ldepth v).ipc = r.ipc := by
  rw [ERegs.land_ldepth, ERegs.with_ldepth_ipc]
@[simp] theorem ERegs.land_ldepth_iest (r : ERegs) (ce : Bool) (v : Nat) : (r.land ce .ldepth v).iest = r.iest := by
  rw [ERegs.land_ldepth, ERegs.with_ldepth_iest]
@[simp] theorem ERegs.land_ldepth_ivb (r : ERegs) (ce : Bool) (v : Nat) : (r.land ce .ldepth v).ivb = r.ivb := by
  rw [ERegs.land_ldepth, ERegs.with_ldepth_ivb]
@[simp] theorem ERegs.land_ldepth_hr (r : ERegs) (ce : Bool) (v : Nat) : (r.land ce .ldepth v).hr = r.hr := by
  rw [ERegs.land_ldepth, ERegs.with_ldepth_hr]
@[simp] theorem ERegs.land_ldepth_pc (r : ERegs) (ce : Bool) (v : Nat) : (r.land ce .ldepth v).pc = r.pc := by
  rw [ERegs.land_ldepth, ERegs.with_ldepth_pc]

end Sys2Proof.Machine
end

