-- ==== Sys2Proof/Laws/Engine.lean ====
section
/-! SUPPORT. How results of an engine's bundle reach its registers: the last of several results that land together is the
one that stays (R71, R72), and what the completion of a bundle does to the registers. -/

namespace Sys2Proof.Machine

/-! Landing -/

/-- The results `l` land one after the other. -/
def ERegs.landList (r : ERegs) (ce : Bool) (l : List Res) : ERegs := l.foldl (fun r a => r.land ce a.dst a.val) r

theorem ERegs.landList_append (r : ERegs) (ce : Bool) (l m : List Res) :
    r.landList ce (l ++ m) = (r.landList ce l).landList ce m := List.foldl_append

/-- A property of the registers that no result of `l` touches is kept. -/
theorem ERegs.landList_keeps {α : Sort _} (f : ERegs → α) (ce : Bool) (l : List Res) (r : ERegs)
    (h : ∀ a ∈ l, ∀ r : ERegs, f (r.land ce a.dst a.val) = f r) : f (r.landList ce l) = f r := by
  induction l generalizing r with
  | nil => rfl
  | cons a l ih =>
    exact (ih _ (fun b hb => h b (List.mem_cons_of_mem _ hb))).trans (h a List.mem_cons_self r)

theorem ERegs.landList_one (r : ERegs) (ce : Bool) (a : Res) : r.landList ce [a] = r.land ce a.dst a.val := rfl

theorem ERegs.land_g_self (r : ERegs) (ce : Bool) (n v : Nat) :
    Tbl.get (fun _ => 0) (r.land ce (.g n) v).g n = BitVec.ofNat 32 v := by
  rw [ERegs.land_g, ERegs.with_g_g]; exact Tbl.get_put_self _ _ _ _

theorem ERegs.land_g_other (r : ERegs) (ce : Bool) (d : Dest) (v n : Nat) (h : d ≠ .g n) :
    Tbl.get (fun _ => 0) (r.land ce d v).g n = Tbl.get (fun _ => 0) r.g n := by
  cases d
  case g m =>
    rw [ERegs.land_g, ERegs.with_g_g]
    exact Tbl.get_put_of_ne _ _ _ (fun hm => h (by rw [hm]))
  all_goals simp only [ERegs.land_v_g, ERegs.land_a_g, ERegs.land_am_g, ERegs.land_q_g, ERegs.land_p_g, ERegs.land_m_g,
    ERegs.land_flags_g, ERegs.land_sticky_g, ERegs.land_ectl_g, ERegs.land_sys_g, ERegs.land_lcnt_g, ERegs.land_lbeg_g,
    ERegs.land_lend_g, ERegs.land_ldepth_g]

theorem ERegs.land_v_self (r : ERegs) (ce : Bool) (n k v : Nat) (h : ce = true → k = 0) :
    Tbl.get (fun _ => 0) (r.land ce (.v n k) v).v (16 * n + k) = BitVec.ofNat 64 v := by
  rw [ERegs.land_v, if_neg (by rintro ⟨a, b⟩; exact b (h a)), ERegs.with_v_v]
  exact Tbl.get_put_self _ _ _ _

theorem ERegs.land_v_other (r : ERegs) (ce : Bool) (d : Dest) (v j : Nat) (h : ∀ n k, d = .v n k → 16 * n + k ≠ j) :
    Tbl.get (fun _ => 0) (r.land ce d v).v j = Tbl.get (fun _ => 0) r.v j := by
  cases d
  case v n k =>
    rw [ERegs.land_v]; split
    · rfl
    · rw [ERegs.with_v_v]; exact Tbl.get_put_of_ne _ _ _ (fun hm => h n k rfl hm.symm)
  all_goals simp only [ERegs.land_g_v, ERegs.land_a_v, ERegs.land_am_v, ERegs.land_q_v, ERegs.land_p_v, ERegs.land_m_v,
    ERegs.land_flags_v, ERegs.land_sticky_v, ERegs.land_ectl_v, ERegs.land_sys_v, ERegs.land_lcnt_v, ERegs.land_lbeg_v,
    ERegs.land_lend_v, ERegs.land_ldepth_v]

theorem ERegs.land_am_self (r : ERegs) (ce : Bool) (n h k v : Nat) (hc : ce = true → k = 0) :
    Tbl.get (fun _ => 0) (r.land ce (.am n h k) v).am (32 * n + 16 * h + k) = BitVec.ofNat 80 v := by
  rw [ERegs.land_am, if_neg (by rintro ⟨a, b⟩; exact b (hc a)), ERegs.with_am_am]
  exact Tbl.get_put_self _ _ _ _

theorem ERegs.land_am_other (r : ERegs) (ce : Bool) (d : Dest) (v j : Nat)
    (h : ∀ n g k, d = .am n g k → 32 * n + 16 * g + k ≠ j) :
    Tbl.get (fun _ => 0) (r.land ce d v).am j = Tbl.get (fun _ => 0) r.am j := by
  cases d
  case am n g k =>
    rw [ERegs.land_am]; split
    · rfl
    · rw [ERegs.with_am_am]; exact Tbl.get_put_of_ne _ _ _ (fun hm => h n g k rfl hm.symm)
  all_goals simp only [ERegs.land_g_am, ERegs.land_a_am, ERegs.land_v_am, ERegs.land_q_am, ERegs.land_p_am, ERegs.land_m_am,
    ERegs.land_flags_am, ERegs.land_sticky_am, ERegs.land_ectl_am, ERegs.land_sys_am, ERegs.land_lcnt_am, ERegs.land_lbeg_am,
    ERegs.land_lend_am, ERegs.land_ldepth_am]

theorem ERegs.land_q_self (r : ERegs) (ce : Bool) (n v : Nat) (h : n ≠ 0) :
    Tbl.get (fun _ => 0) (r.land ce (.q n) v).q n = BitVec.ofNat 16 v := by
  rw [ERegs.land_q, if_neg h, ERegs.with_q_q]; exact Tbl.get_put_self _ _ _ _

theorem ERegs.land_q_other (r : ERegs) (ce : Bool) (d : Dest) (v n : Nat) (h : d ≠ .q n) :
    Tbl.get (fun _ => 0) (r.land ce d v).q n = Tbl.get (fun _ => 0) r.q n := by
  cases d
  case q m =>
    rw [ERegs.land_q]; split
    · rfl
    · rw [ERegs.with_q_q]; exact Tbl.get_put_of_ne _ _ _ (fun hm => h (by rw [hm]))
  all_goals simp only [ERegs.land_v_q, ERegs.land_a_q, ERegs.land_am_q, ERegs.land_g_q, ERegs.land_p_q, ERegs.land_m_q,
    ERegs.land_flags_q, ERegs.land_sticky_q, ERegs.land_ectl_q, ERegs.land_sys_q, ERegs.land_lcnt_q, ERegs.land_lbeg_q,
    ERegs.land_lend_q, ERegs.land_ldepth_q]

theorem ERegs.land_p_self (r : ERegs) (ce : Bool) (n v : Nat) :
    Tbl.get (fun _ => 0) (r.land ce (.p n) v).p n = setBits (BitVec.ofNat 32 v) 26 24 0 := by
  rw [ERegs.land_p, ERegs.with_p_p]; exact Tbl.get_put_self _ _ _ _

theorem ERegs.land_p_other (r : ERegs) (ce : Bool) (d : Dest) (v n : Nat) (h : d ≠ .p n) :
    Tbl.get (fun _ => 0) (r.land ce d v).p n = Tbl.get (fun _ => 0) r.p n := by
  cases d
  case p m =>
    rw [ERegs.land_p, ERegs.with_p_p]
    exact Tbl.get_put_of_ne _ _ _ (fun hm => h (by rw [hm]))
  all_goals simp only [ERegs.land_v_p, ERegs.land_a_p, ERegs.land_am_p, ERegs.land_q_p, ERegs.land_g_p, ERegs.land_m_p,
    ERegs.land_flags_p, ERegs.land_sticky_p, ERegs.land_ectl_p, ERegs.land_sys_p, ERegs.land_lcnt_p, ERegs.land_lbeg_p,
    ERegs.land_lend_p, ERegs.land_ldepth_p]

theorem ERegs.land_m_self (r : ERegs) (ce : Bool) (n v : Nat) :
    Tbl.get (fun _ => 0) (r.land ce (.m n) v).m n = BitVec.ofNat 32 v := by
  rw [ERegs.land_m, ERegs.with_m_m]; exact Tbl.get_put_self _ _ _ _

theorem ERegs.land_flags_self (r : ERegs) (ce : Bool) (v : Nat) : bitsOf (r.land ce .flags v).est 3 0 = v % 16 := by
  rw [ERegs.land_flags, ERegs.with_est_est]; exact bitsOf_setBits_self _ 3 0 v (by omega) (by omega)

/-! The completion of a bundle -/

theorem Engine.advanceKps_r (x : Engine) (i : Nat) : (x.advanceKps i).r = x.r := by
  unfold Engine.advanceKps; dsimp only; split <;> rfl

theorem Engine.foldl_advanceKps_r (l : List Nat) (x : Engine) : (l.foldl Engine.advanceKps x).r = x.r := by
  induction l generalizing x with
  | nil => rfl
  | cons a l ih => exact (ih _).trans (x.advanceKps_r a)

theorem Engine.advanceKps_infl (x : Engine) (i : Nat) : (x.advanceKps i).infl = x.infl := by
  unfold Engine.advanceKps; dsimp only; split <;> rfl

theorem Engine.foldl_advanceKps_infl (l : List Nat) (x : Engine) : (l.foldl Engine.advanceKps x).infl = x.infl := by
  induction l generalizing x with
  | nil => rfl
  | cons a l ih => exact (ih _).trans (x.advanceKps_infl a)

/-- One bundle passes for a result. -/
def Res.nearer (a : Res) : Res := { a with left := a.left - 1, age := a.age + 1 }

/-- The results among `l` that land when a bundle completes. -/
def dueOf (l : List Res) : List Res := (l.map Res.nearer).filter (fun a => a.left == 0)

theorem dueOf_append (l m : List Res) : dueOf (l ++ m) = dueOf l ++ dueOf m := by simp [dueOf]

theorem dueOf_cons_due (a : Res) (l : List Res) (h : a.left = 1) : dueOf (a :: l) = a.nearer :: dueOf l := by
  simp [dueOf, Res.nearer, h]

theorem mem_dueOf {b : Res} {l : List Res} (h : b ∈ dueOf l) : ∃ a ∈ l, a.nearer = b := by
  simp only [dueOf, List.mem_filter, List.mem_map] at h; exact h.1

theorem Engine.stepRes_infl (x : Engine) (ce : Bool) (fresh : List Res) :
    (x.stepRes ce fresh).infl = ((x.infl ++ fresh).map Res.nearer).filter (fun a => a.left != 0) := rfl

theorem Engine.landAll_r (x : Engine) (ce : Bool) (l : List Res) :
    (x.landAll ce l).r = x.r.landList ce l ∨ (x.landAll ce l).r = (x.r.landList ce l).land ce (.sticky 21) 1 := by
  unfold Engine.landAll; dsimp only; split
  · exact .inr rfl
  · exact .inl rfl

/-- The registers when a bundle has passed: the results that are due have landed in order, with WCOLL if two of them
met in one register (R72). -/
theorem Engine.stepRes_r (x : Engine) (ce : Bool) (fresh : List Res) :
    (x.stepRes ce fresh).r = x.r.landList ce (dueOf (x.infl ++ fresh)) ∨
    (x.stepRes ce fresh).r = (x.r.landList ce (dueOf (x.infl ++ fresh))).land ce (.sticky 21) 1 :=
  x.landAll_r ce (dueOf (x.infl ++ fresh))

theorem Engine.advance_infl (x : Engine) : x.advance.infl = x.infl := rfl

theorem Engine.endBundle_r (x : Engine) (ce : Bool) :
    (x.endBundle ce).r = ((x.adv.foldl Engine.advanceKps x).advance.stepRes ce (x.curY ++ x.curX)).r := rfl

theorem Engine.advance_r_congr (x y : Engine) (h1 : y.r = x.r) (h2 : y.dly = x.dly) (h3 : y.dtgt = x.dtgt)
    (h4 : y.setup = x.setup) (h5 : y.skip = x.skip) : y.advance.r = x.advance.r := by
  unfold Engine.advance; rw [h1, h2, h3, h4, h5]

theorem Engine.advanceKps_advance (x : Engine) (i : Nat) : (x.advanceKps i).advance.r = x.advance.r := by
  apply Engine.advance_r_congr <;> (unfold Engine.advanceKps; dsimp only; split <;> rfl)

theorem Engine.foldl_advance_r (l : List Nat) (x : Engine) : (l.foldl Engine.advanceKps x).advance.r = x.advance.r := by
  induction l generalizing x with
  | nil => rfl
  | cons a l ih => exact (ih _).trans (x.advanceKps_advance a)

/-- Two engines that differ in what a bundle's results do not depend on have the same registers after it. -/
theorem Engine.endBundle_r_congr (x y : Engine) (ce : Bool) (h1 : y.advance.r = x.advance.r) (h2 : y.infl = x.infl)
    (h3 : y.curY = x.curY) (h4 : y.curX = x.curX) : (y.endBundle ce).r = (x.endBundle ce).r := by
  have key : ∀ (u w : Engine) (fr : List Res), u.r = w.r → u.infl = w.infl → (u.stepRes ce fr).r = (w.stepRes ce fr).r := by
    intro u w fr hr hi
    simp only [Engine.stepRes, Engine.landAll, hr, hi]
    split <;> rfl
  rw [Engine.endBundle_r, Engine.endBundle_r, h3, h4]
  apply key
  · rw [Engine.foldl_advance_r, Engine.foldl_advance_r, h1]
  · rw [Engine.advance_infl, Engine.advance_infl, Engine.foldl_advanceKps_infl, Engine.foldl_advanceKps_infl, h2]

/-- What a register shows after a bundle: the value of the last of its results that lands, if nothing behind that result
in the order of landing touches the register (R71, R72). -/
theorem Engine.endBundle_last {α : Sort _} (x : Engine) (ce : Bool) (a : Res) (l1 l2 : List Res)
    (hx : x.curY ++ x.curX = l1 ++ a :: l2) (hl : a.left = 1) (f : ERegs → α) (v : α)
    (hself : ∀ r : ERegs, f (r.land ce a.dst a.val) = v) (hother : ∀ b ∈ l2, ∀ r : ERegs, f (r.land ce b.dst b.val) = f r)
    (hst : ∀ r : ERegs, f (r.land ce (.sticky 21) 1) = f r) : f (x.endBundle ce).r = v := by
  rw [Engine.endBundle_r]
  have key : ∀ r : ERegs, f (r.landList ce (dueOf ((x.adv.foldl Engine.advanceKps x).advance.infl ++ (x.curY ++ x.curX)))) = v := by
    intro r
    rw [hx, ← List.append_assoc, dueOf_append, ERegs.landList_append, dueOf_cons_due a l2 hl]
    have hcons : ∀ r : ERegs, r.landList ce (a.nearer :: dueOf l2) = (r.land ce a.dst a.val).landList ce (dueOf l2) :=
      fun _ => rfl
    rw [hcons, ERegs.landList_keeps f ce (dueOf l2) _ (fun b hb r => by
      obtain ⟨c, hc, rfl⟩ := mem_dueOf hb; exact hother c hc r)]
    exact hself _
  rcases Engine.stepRes_r (x.adv.foldl Engine.advanceKps x).advance ce (x.curY ++ x.curX) with h | h
  · rw [h]; exact key _
  · rw [h, hst]; exact key _

/-- A register that no landing result touches, and that the next PC does not, keeps its value over a bundle. -/
theorem Engine.endBundle_keeps {α : Sort _} (x : Engine) (ce : Bool) (f : ERegs → α)
    (h : ∀ a ∈ x.infl ++ (x.curY ++ x.curX), a.left ≤ 1 → ∀ r : ERegs, f (r.land ce a.dst a.val) = f r)
    (hst : ∀ r : ERegs, f (r.land ce (.sticky 21) 1) = f r)
    (hadv : f x.advance.r = f x.r) : f (x.endBundle ce).r = f x.r := by
  rw [Engine.endBundle_r]
  have key : f ((x.adv.foldl Engine.advanceKps x).advance.r.landList ce
      (dueOf ((x.adv.foldl Engine.advanceKps x).advance.infl ++ (x.curY ++ x.curX)))) = f x.r := by
    rw [ERegs.landList_keeps f ce _ _ (fun b hb r => ?_), Engine.foldl_advance_r, hadv]
    rw [Engine.advance_infl, Engine.foldl_advanceKps_infl] at hb
    simp only [dueOf, List.mem_filter, List.mem_map] at hb
    obtain ⟨⟨c, hc, rfl⟩, h0⟩ := hb
    exact h c hc (by simpa [Res.nearer, Nat.sub_eq_zero_iff_le] using h0) r
  rcases Engine.stepRes_r (x.adv.foldl Engine.advanceKps x).advance ce (x.curY ++ x.curX) with hh | hh
  · rw [hh]; exact key
  · rw [hh, hst]; exact key

/-! The X half -/

theorem State.bankStall_engOf (s : State) (e n : Nat) :
    (s.bankStall e n).engOf e = { s.engOf e with cyc := (s.engOf e).cyc + n } := by
  unfold State.bankStall; split
  · next h => subst h; rfl
  · dsimp only; rw [State.bumpBy_engOf, State.engOf_setEng_self]

theorem State.endBundle_engOf (s : State) (e : Nat) :
    (s.endBundle e).engOf e = ((s.bankStall e (s.engOf e).xst).engOf e).endBundle (isCE e) := by
  unfold State.endBundle State.showPc; dsimp only
  rw [State.engOf_setFld, State.engOf_setEng_self]

theorem State.endBundle_r (s : State) (e : Nat) : ((s.endBundle e).engOf e).r = ((s.engOf e).endBundle (isCE e)).r := by
  rw [State.endBundle_engOf, State.bankStall_engOf]
  exact Engine.endBundle_r_congr _ _ _ rfl rfl rfl rfl

theorem State.laneParity_engOf (s : State) (e m : Nat) : ∃ i, (s.laneParity e m).engOf e = { s.engOf e with ip := i } := by
  unfold State.laneParity; dsimp only; split
  · split
    · exact ⟨_, rfl⟩
    · refine ⟨(s.engOf e).ip ||| 1, ?_⟩
      rw [State.raiseN2_engOf]
      exact State.engOf_setEng_self _ _ _
  · split
    · exact ⟨_, rfl⟩
    · refine ⟨(s.engOf e).ip ||| 1, ?_⟩
      rw [State.raiseN2_engOf]
      exact State.engOf_setEng_self _ _ _

/-- The registers once the bundle of an X-slot instruction has completed: those of the engine that holds its results. -/
theorem State.xslotWith_bundleOf (s : State) (e : Nat) (pair : Bool) (par : Nat) (f : Engine → Engine × List Res)
    (h : s.canX e = true) : ((s.xslotWith e pair par f).bundleOf e pair).r =
      (({ (f (s.engOf e)).1 with curX := (f (s.engOf e)).2, mid := true } : Engine).endBundle (isCE e)).r := by
  have key : (((((s.setEng e { (f (s.engOf e)).1 with curX := (f (s.engOf e)).2, mid := true }).laneParity e par)).endBundle e).engOf e).r =
      (({ (f (s.engOf e)).1 with curX := (f (s.engOf e)).2, mid := true } : Engine).endBundle (isCE e)).r := by
    rw [State.endBundle_r]
    obtain ⟨i, hi⟩ := State.laneParity_engOf (s.setEng e { (f (s.engOf e)).1 with curX := (f (s.engOf e)).2, mid := true }) e par
    rw [hi, State.engOf_setEng_self]
    exact Engine.endBundle_r_congr _ _ _ rfl rfl rfl rfl
  unfold State.bundleOf State.xslotWith; rw [h]; dsimp only
  cases pair <;> simpa using key

theorem State.xslot_bundleOf (s : State) (e : Nat) (pair : Bool) (par : Nat) (res : Engine → List Res)
    (h : s.canX e = true) : ((s.xslot e pair par res).bundleOf e pair).r =
      (({ s.engOf e with curX := res (s.engOf e), mid := true } : Engine).endBundle (isCE e)).r :=
  s.xslotWith_bundleOf e pair par _ h

end Sys2Proof.Machine
end

