-- ==== Sys2Proof/Tests/Slice0.lean ====
section
/-! SUPPORT. The model's own tests: for every statement a state and operands that meet the hypotheses of each clause
(witness), one step with its result from the spec (test), the ill-formed terms that WellFormed refuses (refuses), and words
of the bundle encoding. -/

namespace Sys2Proof.Tests

open Sys2Proof.Machine

set_option Elab.async false

/-- The state right after reset with these register values. -/
def regsOf (l : List (Nat × Word)) : State := l.foldl (fun s p => s.setReg p.1 p.2) State.reset

/-- The command answers a next state of which `p` holds. -/
def ok (c : Instr) (s : State) (p : State → Bool) : Bool :=
  match exec c s with
  | .next t => p t
  | _ => false

/-- Engine `e` executes. -/
def running (e : Nat) (f : Engine → Engine) : State :=
  let s := State.reset.setFld (ENG_STAT.STATE e) engRunning
  s.setEng e (f (s.engOf e))

/-- Every event of the device goes to the direct event FIFO (R379). -/
def heard (s : State) (code : Nat) : State := s.setReg (HOST_XEVR.adr code) 0x40000000

/-- The event of this code is in the direct event FIFO, with its contents. -/
def tells (t : State) (code source : Nat) (a0 a1 : Word) : Bool :=
  t.host.devq.any (fun q => q.1.code == code && q.1.source == source && q.1.arg0 == a0 && q.1.arg1 == a1)

/-- Register tables with one entry. -/
def one {α : Type} (k : Nat) (v : α) : Tbl α := [(k, v)]

/-- An empty queue idles. -/
theorem test_idle : step State.reset = .next State.reset := rfl

theorem witness_ScalarAluResults : (running 16 id).canX 16 = true := by decide +kernel

/-- 0x7FFFFFFF + 1 wraps to the most negative number with N and V set and no carry (R102, R103). -/
theorem test_add_wraps : ok (.addOp 3 false 1 2 (.imm 1)) (running 3 fun x => { x with r := { x.r with g := one 2 0x7FFFFFFF } })
    (fun t => (t.engOf 3).gget 1 == 0x80000000 && (t.engOf 3).flags == mkFlags true false false true) = true := by decide +kernel

theorem witness_VectorAluResults :
    let s := running 15 id
    s.canX 15 = true ∧ 15 ∈ lanesOf (isCE 15) ∧ (0x7FFF : BitVec 16).getLsbD 15 = false ∧
      ((s.engOf 15).qget 0).getLsbD 15 = true := by decide +kernel

theorem witness_VcmpResult : (running 0 id).canX 0 = true := by decide +kernel

theorem witness_MacResults :
    let s := running 15 id
    s.canX 15 = true ∧ 15 ∈ (s.engOf 15).enabled (isCE 15) 0 ∧ (0 : BitVec 16).getLsbD 15 = false := by decide +kernel

theorem witness_AccumulatorMoves :
    let s := running 16 id
    s.canX 16 = true ∧ 0 ∈ (s.engOf 16).enabled (isCE 16) 0 ∧ (0xFFFE : BitVec 16).getLsbD 0 = false := by decide +kernel

/-- Engine 0 with P0 at kerf parameter entry 4095 and the entry in that state. -/
def kpsAt (c : KpsEntry) : State :=
  running 0 fun x => { x with r := { x.r with p := one 0 0x20FFF0 }, kps := one 4095 c }

theorem witness_KgetAndTlu :
    let s := kpsAt { KpsEntry.reset with busy := true, lead := 3, spanm1 := 1 }
    let i := kpsAt KpsEntry.reset
    let l := kpsAt { KpsEntry.reset with busy := true, elapsed := 1, spanm1 := 1 }
    let m := kpsAt { KpsEntry.reset with busy := true, elapsed := 0, spanm1 := 1 }
    let k (s : State) : KpsEntry := (s.engOf 0).kpsOf 4095
    let ptr := bitsOf ((s.engOf 0).pget 0) 23 0
    s.canX 0 = true ∧ 0 ∈ (s.engOf 0).enabled false 0 ∧ ptr % 16 = 0 ∧ inKps (ptr + 16 * 0) = true ∧ (k s).fmt ≠ 3 ∧
      (s.engOf 0).adv = [] ∧ (k i).busy = false ∧ (k s).ahead = [] ∧ ((k s).busy = true ∧ 0 < (k s).lead) ∧
      ((k l).busy = true ∧ (k l).lead = 0 ∧ (k l).elapsed = (k l).spanm1) ∧
      ((k m).busy = true ∧ (k m).lead = 0 ∧ (k m).elapsed ≠ (k m).spanm1) ∧
      inDmem (0x100000 / 8 * 8 + 0x8000 * 15 + 8 * 4095) = true := by decide +kernel

theorem witness_ElementMoves :
    let s := running 16 id
    s.canX 16 = true ∧ 0 ∈ lanesOf (isCE 16) ∧ (0 : BitVec 16).getLsbD 0 = false ∧
      satS 32 (sig40 ((running 0 fun x => { x with r := { x.r with v := one 0 0x7FFFFFFFFF } }).engOf 0 |>.vget false 0 0)) ≠
        0x7FFFFFFFFF := by decide +kernel

/-- Engine 0 with ring 1 at 0x10000 of 0x100 bytes and P3 at its last word, circular. -/
def ringAt : State := running 0 fun x => { x with r := { x.r with b := [(1, 0x10000), (9, 0x100)], p := one 3 0x480100FC } }

theorem witness_PointerUpdates :
    let s := ringAt
    let x := s.engOf 0
    s.engRuns 0 = true ∧ x.clearOf (.p 3) ∧ (x.pmode (x.pget 3)).1 ≠ .rev ∧ (x.paddr (x.pget 3)).2 = false ∧
      ∀ a ∈ x.infl ++ x.curY, a.dst ≠ .p 3 := by
  unfold Engine.clearOf
  decide +kernel

/-- A post-modification by +1 word (LD, N = 1) from the ring's last word goes to its base (R75). -/
theorem test_ring_wraps : ok (.ld 0 (.g 1) 3 (.postN 1)) ringAt (fun t => bitsOf ((t.engOf 0).pget 3) 23 0 == 0x10000) = true := by
  decide +kernel

theorem witness_LoadResults :
    let s := running 0 fun x => { x with r := { x.r with p := one 3 0x17FFFF } }
    let x := s.engOf 0
    s.engRuns 0 = true ∧ 15 ∈ x.enabled (isCE 0) 0 ∧ (∀ r ∈ x.curX, r.dst ≠ .sys 1) ∧
      x.eaOf 3 (x.addrOf 3 (.offset 0) 2) 0 % 4 ≠ 0 ∧
      x.readable (isCE 0) (x.eaOf 3 (x.addrOf 3 (.offset 0) 2) (8 * 1) / 8 * 8) = false := by decide +kernel

theorem witness_StoreResults :
    let s := running 0 fun x => { x with r := { x.r with p := one 3 0x17FF80 } }
    let x := s.engOf 0
    s.engRuns 0 = true ∧ x.writable (isCE 0) (x.eaOf 3 (x.addrOf 3 (.offset 0) 2) 0 / 4 * 4) = true ∧
      15 ∈ x.enabled (isCE 0) 0 ∧ x.writable (isCE 0) (x.eaOf 3 (x.addrOf 3 (.offset 0) 7) (8 * 15) / 8 * 8) = true ∧
      ∀ j ∈ x.enabled (isCE 0) 0, 15 < j →
        x.eaOf 3 (x.addrOf 3 (.offset 0) 7) (8 * j) / 8 * 8 ≠ x.eaOf 3 (x.addrOf 3 (.offset 0) 7) (8 * 15) / 8 * 8 := by
  decide +kernel

/-- Engine 0 with P3 at an image of the loop registers whose LDEPTH is `d`. -/
def imageAt (d : Nat) : State := running 0 fun x =>
  { x with r := { x.r with p := one 3 0x100000 }, mem := Memory.write x.mem 0x100030 (BitVec.ofNat 8 d) }

theorem witness_LoopSaveRestore :
    let x := (imageAt 4).engOf 0
    let half (d : Nat) : Nat := ((imageAt d).engOf 0).rawRead 0x100030 8 % 2 ^ 32
    (imageAt 4).engRuns 0 = true ∧ x.inSetup = false ∧ (∀ j < 8, inDmem (0x100000 + 8 * j) = true) ∧
      (x.ocur = 0x310000 ∨ x.ocur = 0x318000) ∧ half 4 % 8 ≤ 4 ∧ 4 < half 5 % 8 ∧
      x.eaOf 3 (x.addrOf 3 (.offset 0) 6) (8 * 6) / 8 * 8 = 0x100030 := by decide +kernel

/-- A haul that copies 8 bytes. -/
def haul8 : Haul := { toFar := true, irq := true, ringed := false, laddr := 0x17FFF8, foff := 0, fbase := 0x1FFFFF8, flen := 0,
                      xbytes := 8, yrows := 1, lstride := 0, fstride := 0 }

/-- Engine 0 with these haul slots busy and P3 at a descriptor of one row of 8 bytes of local memory 0x100100. -/
def hauls (l : List Nat) : State := running 0 fun x =>
  { x with r := { x.r with p := one 3 0x100000 }, haul := l.map (fun k => (k, some haul8)) }

theorem witness_HaulQueue :
    let s := hauls [0, 1, 2, 3, 4, 5, 6]
    let x := s.engOf 0
    let full := hauls [0, 1, 2, 3, 4, 5, 6, 7]
    s.engRuns 0 = true ∧ (x.haulOf 7).isSome = false ∧ (∀ j < 7, (x.haulOf j).isSome = true) ∧ x.clearOf (.g 15) ∧
      (∀ k < 8, ((full.engOf 0).haulOf k).isSome = true) ∧ s.reg (ENG_HSTALL_CNT.adr 0) ≠ 0xFFFFFFFF ∧
      (∀ k < 8, (0x80 : BitVec 8).getLsbD k = true → (x.haulOf k).isSome = false) ∧ x.dly = 0 ∧ x.setup = 0 ∧ x.r.ldepth = 0 ∧
      ((0x80 : BitVec 8).getLsbD 7 = true ∧ ((full.engOf 0).haulOf 7).isSome = true) := by
  unfold Engine.clearOf
  decide +kernel

theorem witness_RegisterMoves :
    let s := running 16 id
    let x := s.engOf 16
    s.engRuns 16 = true ∧ x.clearOf (classDest .q 3) ∧ x.clearOf (.g 15) ∧ ¬ (4 : Nat) < 4 := by
  unfold Engine.clearOf
  decide +kernel

theorem witness_SystemRegisterWrites :
    let s := running 0 fun x => { x with r := { x.r with ldepth := 4, g := [(1, 4), (2, 5)] } }
    let x := s.engOf 0
    s.engRuns 0 = true ∧ x.inSetup = false ∧ x.clearOf .ectl ∧ x.clearOf (.sys 2) ∧ x.clearOf (.sys 4) ∧
      (x.gget 1).toNat ≤ x.r.ldepth ∧ x.r.ldepth < (x.gget 2).toNat := by
  unfold Engine.clearOf
  decide +kernel

theorem witness_Branches :
    let s := running 3 fun x => { x with r := { x.r with est := 4 } }
    let x := s.engOf 3
    let d := (running 3 fun x => { x with dly := 1 }).engOf 3
    let u := (running 3 fun x => { x with setup := 2 }).engOf 3
    s.engRuns 3 = true ∧ x.inSetup = false ∧ x.inDelay = false ∧ x.clearOf (.g 0) ∧ x.clearOf .ectl ∧ x.clearOf .flags ∧
      condHolds .eq x.flags = true ∧ u.inSetup = true ∧ d.inSetup = false ∧ d.inDelay = true := by
  unfold Engine.clearOf
  decide +kernel

/-- Engine 0 inside a body that is bundle 10 alone, at its last bundle. -/
def inBody (cnt : Nat) : State := running 0 fun x =>
  { x with r := { x.r with pc := 10, ldepth := 1, lcnt := one 0 cnt, lbeg := one 0 10, lend := one 0 10 } }

theorem witness_Repeats :
    let s := running 0 fun x => { x with r := { x.r with pc := 16381, ldepth := 1, lbeg := one 0 5, lend := one 0 16383 } }
    let x := s.engOf 0
    let y := (inBody 1).engOf 0
    let w (t : Tbl Nat) (n : Nat) : Nat := Tbl.get (fun _ => 0) t n
    s.engRuns 0 = true ∧ x.inSetup = false ∧ x.r.ldepth = 1 ∧ x.r.pc + 2 ≤ 16383 ∧ w x.r.lbeg 0 ≤ 16383 ∧ 16383 ≤ w x.r.lend 0 ∧
      x.dly = 0 ∧ (∀ r ∈ x.infl ++ x.curY ++ x.curX, r.dst ≠ .ldepth) ∧ x.mid = false ∧ x.r.ldepth ≠ 0 ∧
      (y.r.ldepth = 0 + 1 ∧ y.r.pc = w y.r.lend 0 ∧ y.setup = 0) := by decide +kernel

/-- With LCNT 1 the body is left, with LCNT 2 it runs once more (R77). -/
theorem test_loop_end : ok (.nop 0 false) (inBody 1) (fun t => (t.engOf 0).r.pc == 11 && (t.engOf 0).r.ldepth == 0) = true ∧
    ok (.nop 0 false) (inBody 2) (fun t => (t.engOf 0).r.pc == 10 && (t.engOf 0).r.ldepth == 1) = true := by decide +kernel

theorem witness_BlockMarkers :
    let s := running 0 fun x => { x with late := true, bidx := 64, work := 32 }
    let x := s.engOf 0
    let w := (running 0 fun x => { x with waitFor := some 16 }).engOf 0
    s.engRuns 0 = true ∧ x.inSetup = false ∧ x.inDelay = false ∧ x.hidden = none ∧ x.twin = false ∧ x.ended = false ∧
      x.late = true ∧ (s.reg (ENG_SKIP_CNT.adr 0)).toNat + ((x.bidx - x.work) / s.nb - 1) < 0xFFFFFFFF ∧ x.waitFor = none ∧
      w.waitFor = some 16 ∧ 16 ≤ w.bidx + s.nb := by decide +kernel

theorem witness_SignalsAndControl :
    let s := (heard (heard (running 16 fun x => { x with r := { x.r with g := one 2 0x380004 } }) 0x28) 0x29)
    let x := s.engOf 16
    s.engRuns 16 = true ∧ s.hears 0x28 1 ∧ s.hears (0x29 : BitVec 8).toNat 1 ∧ (x.gget 1).toNat / 4 * 4 < 0x1000000 ∧
      x.clearOf (.g 1) ∧ (∀ r ∈ x.curX, r.dst ≠ .sys 1) ∧ 0x380000 ≤ (x.gget 2).toNat / 4 * 4 ∧
      (x.gget 2).toNat / 4 * 4 < 0x3FFFFF ∧ SCN_DEF.adr / 4 * 4 = SCN_DEF.adr := by
  unfold State.hears Engine.clearOf
  decide +kernel

/-- Engine 0 with sources 2 and 7 pending and enabled. -/
def pends (gie : Bool) : State := running 0 fun x =>
  { x with ip := 0x84, r := { x.r with pc := 100, ivb := 0x200, ectl := if gie then 0x8480 else 0x8400 } }

theorem witness_InterruptEntry :
    let s := pends true
    let x := s.engOf 0
    s.engState 0 = engRunning ∧ x.stopping = none ∧ (x.ip.getLsbD 2 && bitOf x.r.ectl (8 + 2)) = true ∧
      (∀ j < 2, (x.ip.getLsbD j && bitOf x.r.ectl (8 + j)) = false) ∧ x.mid = false ∧ x.dly = 0 ∧ x.setup = 0 ∧ x.lwin = 0 ∧
      bitOf x.r.ectl 7 = true ∧ x.infl = [] ∧ bitOf ((pends false).engOf 0).r.ectl 7 = false := by decide +kernel

/-- The vector of source 2 is IVB + 8 (R79, R80). -/
theorem test_vector : ok (.interruptEntry 0) (pends true) (fun t => (t.engOf 0).r.pc == 0x208 && (t.engOf 0).r.ipc == 100) = true := by
  decide +kernel

/-- Engine 0 with these results on their way. -/
def flight (l : List Res) : State := running 0 fun x => { x with infl := l }

theorem witness_ResultsInFlight :
    let a : Res := ⟨.g 1, 5, 1, 1, true⟩
    let b : Res := ⟨.g 1, 6, 1, 3, false⟩
    let s := flight [a]
    let x := s.engOf 0
    s.engRuns 0 = true ∧ x.infl = [] ++ a :: [] ∧ x.curY = [] ∧ x.curX = [] ∧ a.left = 1 ∧ 1 < ({ a with left := 2 } : Res).left ∧
      ((flight [a, b]).engOf 0).infl = a :: b :: [] ∧ a.age ≠ b.age ∧ x.mid = false ∧ x.stall = false ∧
      bundleLegal (isCE 0) x.inDelay 0 = true ∧ bundleLegal (isCE 0) x.inDelay (BitVec.ofNat 64 (2 ^ 64 - 1)) = false := by
  decide +kernel

/-- The device in this mode. -/
def inMode (m : Nat) : State := State.reset.setFld GLB_MODE.CUR m

/-- The device in this mode at the second block boundary. -/
def atBlock (m : Nat) : State := { inMode m with sidx := 16 }

/-- Engine `e` changed, in SETUP at the second block boundary. -/
def engAt (e st : Nat) (f : Engine → Engine) : State :=
  let s := (atBlock 1).setFld (ENG_STAT.STATE e) st
  s.setEng e (f (s.engOf e))

theorem witness_EngineStartStop :
    let s := atBlock 2
    let r := engAt 3 engRunning id
    let q := engAt 3 engStopped (fun x => { x with startReq := some 15 })
    let p := engAt 3 engRunning (fun x => { x with stopReq := some 15 })
    s.admits directPort 0x0201 [0x8, 0] = true ∧ s.admits directPort 0x0201 [0x8, 0x17FFC4] = true ∧
      0x180000 < (0x17FFC4 : Word).toNat + 64 ∧ r.admits directPort 0x0201 [0x8, 0x17FFC0] = true ∧ r.engState 3 ≠ engStopped ∧
      r.engState 3 ≠ engHalted ∧ (∀ k < 16, bitOf 0x8 k = true → s.engState k = engStopped ∧ (s.engOf k).startReq = none) ∧
      s.admits directPort 0x0202 [0x8] = true ∧ r.admits directPort 0x0202 [0x8] = true ∧ (r.engOf 3).stopReq = none ∧
      s.mode ≠ 0 ∧ s.mode ≠ 5 ∧ (inMode 4).mode = 4 ∧ ((q.engOf 3).startReq = some 15 ∧ 15 < q.sidx ∧ q.sidx % q.nb = 0 ∧
      q.engState 3 = engStopped ∧ (q.engOf 3).startRing = none) ∧ (p.engOf 3).stopping = none ∧ (p.engOf 3).stopReq = some 15 ∧
      (p.engOf 3).prog = none ∧ (∀ k < 8, (p.engOf 3).haulOf k = none) := by decide +kernel

/-- A requested engine starts at the next block tick with its pc at bundle 0 (R57). -/
theorem test_started : ok (.engStarted 3) (engAt 3 engStopped (fun x => { x with startReq := some 15 }))
    (fun t => t.engState 3 == engRunning && (t.engOf 3).r.pc == 0) = true := by decide +kernel

/-- An idle and a busy kerf parameter entry, and an engine that executes bank 0. -/
theorem witness_EngineHostAccess :
    let s := heard (running 3 fun x => { x with kps := one 4095 { KpsEntry.reset with busy := true } }) 0x27
    (inMode 1).mode ≠ 4 ∧ 0x40000 ≤ 0xBFFFF ∧ (0x1FFFF : Nat) < 0x40000 ∧ s.engState 3 = engRunning ∧
      (s.engOf 3).bank = 0x1FFFF / 0x20000 ∧ s.hears 0x27 1 ∧ ((s.engOf 3).kpsOf 4095).busy = true ∧
      ((s.engOf 3).kpsOf 0).busy = false := by
  unfold State.hears
  decide +kernel

/-- A host write to the executing bank changes nothing and is refused with its offset (R67, R90). -/
theorem test_bank_refused : ok (.engHostWindowWrite 3 0x1FFFC 0xFFFFFFFF 15) (heard (running 3 id) 0x27)
    (fun t => tells t 0x27 3 0x12EFFFC 0xFFFFFFFF && (t.engOf 3).mem == []) = true := by decide +kernel

/-- A change of program asked for sample `s`. -/
def swapAt (s span : Nat) (alone : Bool) : ProgKerf :=
  { s, rounding := 0, span, curve := 0, handle := none, started := false, alone }

theorem witness_ProgramSwaps :
    let s := engAt 3 engRunning id
    let p := engAt 3 engRunning (fun x => { x with prog := some (swapAt 16 0 false) })
    let w := heard (engAt 3 engRunning (fun x => { x with prog := some (swapAt 0 0 true) })) 0x25
    let args : List Word := [3, 0x0000000F]
    s.admits directPort 0x0204 args = true ∧ p.admits directPort 0x0204 args = true ∧ schedBlock 0x0204 args = none ∧
      (p.engOf 3).prog.isSome = true ∧ (s.engOf 3).prog = none ∧ s.engState 3 = engRunning ∧ (inMode 1).engState 3 = engStopped ∧
      (inMode 1).admits directPort 0x0204 args = true ∧ (swapAt 16 0 false).s ≤ p.sidx ∧ p.sidx % p.nb = 0 ∧
      (p.engOf 3).infl = [] ∧ 0 + w.nb + 0 ≤ w.sidx ∧ w.hears 0x25 1 ∧ ((w.engOf 3).prog.map (fun k => k.alone)) = some true := by
  unfold State.hears
  decide +kernel

/-- A plain swap goes to bundle 0 of the other bank (R91). -/
theorem test_plain_swap : ok (.progSwapApply 3) (engAt 3 engRunning (fun x => { x with prog := some (swapAt 16 0 false) }))
    (fun t => (t.engOf 3).r.pc == 16384 && (t.engOf 3).bank == 1) = true := by decide +kernel

/-- Engine 3 with the record of entry 4095. -/
def recOne (k : KSt) : State := engAt 3 engRunning (fun x => { x with krec := one 4095 [k] })

theorem witness_ParameterChanges :
    let s := recOne KSt.reset
    let old := (s.engOf 3).recOf 4095
    let args (kerf : Word) : List Word := [0x30000FFF, 0x7FFFFFFF, kerf]
    s.admits directPort 0x0203 (args 0x00010000) = true ∧ schedBlock 0x0203 (args 0x00010000) = none ∧
      s.admits directPort 0x0203 (args 0x09800000) = true ∧ bitsOf (0x09800000 : Word) 24 23 = 3 ∧
      s.admits directPort 0x0203 [0x30000FFF, 0x80000000, 0x08000001] = true ∧ old = [KSt.reset] ∧ KSt.reset.busy = false ∧
      KSt.reset.s0 < s.sidx / s.nb * s.nb ∧ KSt.reset.handle = none ∧ bitsOf (0x00010000 : Word) 16 0 ≤ 65536 ∧
      KSt.reset.fmt = bitsOf (0x00010000 : Word) 24 23 ∧ s.scn.runs = [] ∧
      (let k : KSt := { (KSt.reset) with busy := true, span := 16, handle := some 7 }
       k.busy = true ∧ k.s0 + k.span ≤ (recOne k).sidx) := by decide +kernel

theorem witness_EngineBlockTick :
    let s := engAt 3 engWaiting (fun x => { x with ended := true })
    let m := heard (engAt 3 engRunning (fun x => { x with missed := true, bidx := 16, r := { x.r with ectl := 0x400 } })) 0x21
    s.sidx % s.nb = 0 ∧ s.glb.lastBlock ≠ s.sidx ∧ s.glb.porst = false ∧ s.engState 3 = engWaiting ∧
      (s.engOf 3).stopping = none ∧ (s.engOf 3).prog = none ∧ (s.engOf 3).ended = true ∧ (m.engOf 3).ended = false ∧
      (m.engOf 3).missed = true ∧ m.hears 0x21 1 ∧ bitOf (m.engOf 3).r.ectl 10 = true ∧ m.reg (ENG_OVR_CNT.adr 3) ≠ 0xFFFFFFFF ∧
      ({ s with glb := { s.glb with porst := true } } : State).glb.porst = true := by
  unfold State.hears
  decide +kernel

/-- Engine 3 with slot 7 moving 8 bytes at the ends of its memory and of the yard. -/
def hauling (toFar : Bool) : State := heard (engAt 3 engRunning (fun x => { x with haul := one 7 (some { haul8 with toFar }) })) 0x24

theorem witness_HaulTransfers :
    let s := hauling true
    let h := { haul8 with toFar := true }
    (s.engOf 3).haulOf 7 = some h ∧ s.isolated 3 = false ∧ h.yrows = 1 ∧ h.ringed = false ∧ 8 ≤ h.xbytes ∧ 0x100000 ≤ h.laddr ∧
      h.laddr + h.xbytes ≤ 0x180000 ∧ h.fbase + h.xbytes ≤ 0x2000000 ∧
      (∀ j < h.xbytes, s.bankPwr ((h.fbase + j) / 0x80000) = 0) ∧ h.irq = true ∧ (4 : Fin 5) ≠ 0 ∧ (7 : Word).toNat < h.xbytes ∧
      s.hears 0x24 1 ∧ ((hauling false).engOf 3).haulOf 7 = some { haul8 with toFar := false } := by
  unfold State.hears
  decide +kernel

/-- A pending MODE_SET. -/
def modeAsk (changed : Option Nat) : State :=
  let s := heard (atBlock 1) 0x01
  { s with glb := { s.glb with modePend := some ⟨5, 2, 15, changed, 0⟩ } }

theorem witness_ModeChanges :
    let s := inMode 1
    let w := modeAsk none
    let c := modeAsk (some 0)
    let a (m : Word) : List Word := [m]
    s.admits directPort 0x0101 (a 7) = true ∧ s.admits directPort 0x0101 (a 1) = true ∧ s.mode = 1 ∧
      (inMode 2).admits directPort 0x0101 (a 4) = true ∧ (2, 4) ∉ [(1, 2), (1, 3), (1, 4), (1, 5), (2, 1), (2, 3), (2, 5), (3, 1),
        (3, 2), (3, 5), (4, 1), (4, 5), (5, 1), (5, 4)] ∧ w.admits directPort 0x0101 (a 2) = true ∧ w.glb.modePend.isSome = true ∧
      s.admits directPort 0x0101 (a 5) = true ∧ s.glb.modePend.isSome = false ∧ s.flag GLB_RATE.PENDING = false ∧
      s.glb.burning = false ∧ (inMode 5).admits directPort 0x0101 (a 4) = true ∧ (inMode 5).flag THM_STAT.WARN = false ∧
      15 < w.sidx ∧ w.sidx % w.nb = 0 ∧ w.pairOn = false ∧ w.out.paths = [] ∧ w.hears 0x01 1 ∧ 0 < c.sidx ∧
      (∀ fade ∈ [c.out.mode, c.out.safe], fade.span = 0 ∨ fade.at_ + fade.span ≤ c.sidx) ∧
      (∀ p < 32, c.tdmState p ≠ tdmRun) := by
  unfold State.hears
  decide +kernel

/-- The change takes effect at the block boundary, with MODE_CHANGED (R22). -/
theorem test_mode_changed : ok .modeChanged (modeAsk none) (fun t => t.mode == 2 && tells t 0x01 2 2 1) = true := by decide +kernel

theorem witness_SafeEntry :
    let s : State := { (atBlock 2) with glb := { GlbSt.reset with safePend := some (255, 15) } }
    s.glb.safePend = some (255, 15) ∧ 15 < s.sidx ∧ s.sidx % s.nb = 0 ∧ 255 < 256 ∧ s.fld SCN_STAT.STATE = 0 ∧
      s.scn.sched = [] ∧ s.pairOn = false ∧ (s.setFld SCN_STAT.STATE 3).fld SCN_STAT.STATE ≠ 0 ∧
      ({ s with sidx := 15 } : State).sidx ≤ 15 := by decide +kernel

theorem witness_RateChanges :
    let s := heard (inMode 2) 0x06
    let u := inMode 1
    let p := { (u.setFld GLB_RATE.PENDING 1) with sidx := 64, glb := { u.glb with ratePend := some (5, 3, 64) } }
    s.glb.testEn = false ∧ s.xmode ⟨0xFC, 0, false⟩ = false ∧ s.inReset ⟨0xFC, 0, false⟩ = false ∧ s.mode ≠ 1 ∧ s.mode ≠ 4 ∧
      s.hears 0x06 1 ∧ u.mode = 1 ∧ u.rateOfFamily 7 = false ∧ u.rateOfFamily 3 = true ∧ p.flag GLB_RATE.PENDING = true ∧
      u.rateCause 3 2 = 0 ∧ p.glb.ratePend = some (5, 3, 64) ∧ 64 ≤ p.sidx ∧ p.sidx % 64 = 0 := by
  unfold State.hears
  decide +kernel

/-- The KRF window with its XMODE or its BASIC_RESET set. -/
def krf (v : Word) : State := heard (heard (regsOf [(0x3000FC, v)]) 0x03) 0x04

theorem witness_RegisterPages :
    let o : Owner := ⟨0x3000FC, 0, false⟩
    (krf 0).glb.testEn = false ∧ (krf 0).inReset o = false ∧ bitsOf (0x00010000 : Word) 16 0 ≤ 65536 ∧ (krf 1).xmode o = true ∧
      (krf 1).inReset o = false ∧ (krf 1).hears 0x03 1 ∧ (krf 0x100).xmode o = false ∧ (krf 0x100).inReset o = true ∧
      (krf 0x100).hears 0x04 1 ∧ (krf 0).fld GLB_RATE.RATE = 3 := by
  unfold State.hears
  decide +kernel

/-- A write to a Basic page under XMODE raises BASIC_LOCKED with the window's level register and the offset (R30). -/
theorem test_basic_locked : ok (.registerWrite 0x300004 5 15) (krf 1) (fun t => tells t 0x03 1 0x3000FC 0x300004) = true := by
  decide +kernel

theorem witness_BasicResets :
    let s (l : List BasicRst) : State := { (atBlock 1) with glb := { GlbSt.reset with resets := l } }
    owner 0x3000FC = some ⟨0x3000FC, 0, false⟩ ∧ (s []).glb.testEn = false ∧ 1 < lvlFuncs 0x3000FC ∧
      bitOf (0x200 : Word) (8 + 1) = true ∧ bitOf ((s []).reg 0x3000FC) (8 + 1) = false ∧ (s []).sidx % (s []).nb = 0 ∧
      15 < (s []).sidx ∧ (s [⟨0x3000FC, 0, 15, none⟩]).glb.resets = [⟨0x3000FC, 0, 15, none⟩] ∧
      (s [⟨0xFC, 3, 0, some 15⟩]).glb.resets = [⟨0xFC, 3, 0, some 15⟩] ∧ 15 % (s []).nb ≠ 0 := by decide +kernel

theorem witness_RegWriteCommand :
    let s (v : Word) : State := (inMode 1).setReg 0x3800FC v
    let args (off : Word) : List Word := [off, 0xFFFFFFFF, 0x1]
    let o : Owner := ⟨0x3800FC, 0, false⟩
    (s 0).admits directPort 0x0103 (args 0x37FFFC) = true ∧ schedBlock 0x0103 (args 0x37FFFC) = none ∧
      (0x37FFFC : Word).toNat < 0x380000 ∧ (s 1).admits directPort 0x0103 (args (BitVec.ofNat 32 OUT_DEF.adr)) = true ∧
      (s 1).xmode o = true ∧ (s 0x100).xmode o = false ∧ (s 0x100).inReset o = true ∧
      (s 0x100).admits directPort 0x0103 (args (BitVec.ofNat 32 OUT_DEF.adr)) = true ∧ (s 0).xmode o = false ∧ (s 0).inReset o = false ∧
      (let new : Word := ((s 0).written OUT_DEF.adr &&& ~~~ 1) ||| (0xFFFFFFFF &&& 1)
       bitsOf new 22 16 ≤ 64 ∧ 1 ≤ bitsOf new 10 0 ∧ bitsOf new 10 0 ≤ 2000) := by decide +kernel

theorem witness_CounterSnapshots :
    let s (l : List SnapPend) : State := { (atBlock 1) with glb := { GlbSt.reset with snaps := l } }
    let r (n : Nat) (a : Option (Nat × Nat)) : State :=
      { (atBlock 1) with raft := { RaftSt.reset with snaps := [(n, none)] }, host := { HostSt.reset with snapArea := a } }
    let far (off a cap : Word) : List Word := [off, a, 0, cap]
    (s []).admits directPort 0x0102 (far 0x50000 0 48) = true ∧ (windowAt 0x50000).isNone = true ∧
      (s []).admits directPort 0x0102 (far 0x300000 0x1FFFFD0 47) = true ∧ (47 : Word).toNat < 48 ∧
      (s []).admits directPort 0x0102 (far 0x300000 0x1FFFFD0 48) = true ∧ bitOf (0x300000 : Word) 31 = false ∧
      (s []).sidx % (s []).nb = 0 ∧ (s [⟨none, false, 0x300000, 0x1FFFFD0, 48, 15⟩]).glb.snaps = [⟨none, false, 0x300000, 0x1FFFFD0, 48, 15⟩] ∧
      0x1FFFFD0 + 48 ≤ 0x2000000 ∧ (∀ j < 48, (s []).bankPwr ((0x1FFFFD0 + j) / 0x80000) = 0) ∧
      (r 16 none).raft.snaps = [(16, none)] ∧ 16 ≤ (r 16 none).sidx ∧ (r 16 none).host.snapArea = none ∧
      (r 16 (some (0, 0x2000000))).host.snapArea = some (0, 0x2000000) := by decide +kernel

/-- All counters fit the yard, which has power. -/
theorem witness_CounterSnapshots_area : 0 + 8 * ctrOffsets.length ≤ 0x2000000 ∧ ∀ b, b < 64 → State.reset.bankPwr b = 0 := by
  decide +kernel

/-- A part with these lifetime settings, in SERVICE. -/
def fused (f : FuseSt) : State := { heard (inMode 4) 0x0E with fuse := f }

theorem witness_FuseCommands :
    let s := fused FuseSt.reset
    let full := fused ⟨(List.range 5).map (fun k => (k, List.replicate 32 (false, 0))), none, none⟩
    let armed := fused ⟨[], some (4, 1, 0xFFFF), none⟩
    s.admits directPort 0x0105 [7, 0] = true ∧ armValue [7, 0] = none ∧ s.admits directPort 0x0105 [4] = true ∧
      (armValue [4]).isSome = true ∧ s.fuse.burn = none ∧ s.flag SUP_STAT.WARN = false ∧ 0 < s.slotsLeft 4 ∧
      full.slotsLeft 4 = 0 ∧ full.admits directPort 0x0105 [4] = true ∧ armed.admits directPort 0x0106 [4, 0xFFFF] = true ∧
      armed.admits directPort 0x0106 [3, 0xFFFF] = true ∧ armed.fuse.armed = some (4, 1, 0xFFFF) ∧
      bitsOf (0xFFFF : Word) 15 0 = 0xFFFF ∧ (fused ⟨[], none, some (5, 4, 1)⟩).fuse.burn = some (5, 4, 1) ∧
      s.hears 0x0E 1 ∧ s.direct := by
  unfold State.hears State.direct
  decide +kernel

/-- The host's boot phase with an image of no code at the head of the yard (R459). -/
def imaged : State :=
  let words : List (Nat × Nat) := [(0, 0x4D49424F), (4, 0x00010000), (8, 320), (16, 0x01000000)]
  { State.reset with
    boot := { BootSt.reset with phase := .host }
    far := { FarSt.reset with yard := words.foldl (fun m p => Memory.writeBytes m p.1 (leBytes 4 p.2)) [] } }

theorem witness_ResetAndBoot_image :
    imaged.imageCause (imaged.yardImage 0 0 true) = 0 ∧ imaged.imageCause (imaged.yardImage 0 0 false) = 5 ∧
      (hdrW (imaged.yardImage 0 0 true) 2).toNat = 320 ∧ imaged.admits directPort 0x0104 [0, 0, 320] = true ∧
      imaged.boot.phase = .host := by decide +kernel

theorem witness_ResetAndBoot :
    let s : State := { State.reset with glb := { GlbSt.reset with porst := true } }
    let b (p : BootPhase) : State := { State.reset with boot := { BootSt.reset with phase := p } }
    s.fuse.burn = none ∧ s.glb.porst = true ∧ (b (.ce 2)).boot.phase = .ce 2 ∧ (b (.ce 2)).boot.copyB = none ∧
      (b .up).admits directPort 0x0104 [0, 0, 256] = true ∧ (b .host).boot.phase = .host ∧ (b .host).admits directPort 0x0104 [0, 0, 256] = true := by
  decide +kernel

theorem witness_DebugAccess : (State.reset.setFld FUSE_STAT.DBGLOCK 1).flag FUSE_STAT.DBGLOCK = true ∧
    State.reset.flag FUSE_STAT.DBGLOCK = false := by decide +kernel

/-- A value that waits for its boundary since sample 0, at the second block boundary. -/
def waits (l : List (Nat × Word)) (s : State) : State :=
  { s with stg := l.foldl (fun t p => Tbl.insert t p.1 p.2) s.stg, stgAt := l.foldl (fun t p => Tbl.insert t p.1 0) s.stgAt, sidx := 16 }

theorem witness_RouteRequests :
    let o : Owner := ⟨0x2000FC, 0, false⟩
    let s := heard (inMode 1) 0x40
    let z := s.setFld LND_KDEF.SPAN 0
    let w := heard ((inMode 1).setFld GLB_RATE.RATE 5) 0x40
    let owned := (((inMode 1).setReg (LND_RT_CFG.adr 3) 0xF0077000).setReg (LND_SD.adr 0x7007) 0x80000003)
    let a (sink src : Nat) : Word := BitVec.ofNat 32 (sink * 65536 + src)
    s.glb.testEn = false ∧ s.inReset o = false ∧ (s.lnd.kerfs = [] ∧ s.lnd.queue = [] ∧ s.lnd.held = [] ∧ s.lnd.reqs = [] ∧
      s.dueEntries = []) ∧ s.stgAt = [] ∧ z.fld LND_KDEF.SPAN = 0 ∧ z.owns 16383 = false ∧
      z.addrCause true 0x7007 = 0 ∧ z.addrCause false 0x7FFF = 0 ∧ z.ownerOf 0x7007 = none ∧
      s.admits directPort 0x0301 [a 0x7008 0, 0] = true ∧ schedBlock 0x0301 [a 0x7008 0, 0] = none ∧
      s.addrCause true 0x7008 = 1 ∧ w.addrCause true 0x3FFF = 2 ∧ w.admits directPort 0x0301 [a 0x3FFF 0, 0] = true ∧
      (s.reg LND_REFUSE_CNT.adr).toNat + 1 < 0xFFFFFFFF ∧ s.hears 0x40 1 ∧ s.admits directPort 0x0301 [a 0x7007 0x7000, 0] = true ∧
      s.freeEntry = some 0 ∧ bitOf (s.reg (LND_RT_CFG.adr 0)) 31 = false ∧
      owned.admits directPort 0x0302 [a 0x7007 0, 0] = true ∧ schedBlock 0x0302 [a 0x7007 0, 0] = none ∧
      owned.reg (LND_SD.adr 0x7007) = BitVec.ofNat 32 (2 ^ 31 + 3) ∧ owned.sinkOf 3 = 0x7007 ∧
      bitOf (owned.reg (LND_RT_CFG.adr 3)) 31 = true := by
  unfold State.hears
  decide +kernel

/-- A route kerf of entry 9 from silence to generator 0 that is over at sample 16. -/
def overKerf : State :=
  let s := (atBlock 1).setReg (LND_RT_CFG.adr 9) 0xF0077000
  { s with lnd := { LndSt.reset with snap := one 0x7000 1234, kerfs := one 9 ⟨0, 16, 1, 0x7000, 0, [], silence, none, 0, false⟩ } }

theorem witness_RouteChanges :
    let i : Nat := 16383
    let s := waits [(LND_RT_CFG.adr i, 0xF0077FFF)] (inMode 1)
    let c := (s.setReg (LND_RT_CFG.adr 3) 0xF0077000).setReg (LND_SD.adr 0x7007) 0x80000003
    let r : RouteReq := ⟨15, 5, false, 0x7007, 0x7000, 0, 1⟩
    let q : State := { (atBlock 1) with lnd := { LndSt.reset with reqs := [r] } }
    s.lnd.queue = [] ∧ s.lnd.held = [] ∧ s.lnd.kerfs = [] ∧ s.dueEntries = i :: [] ∧ s.due (LND_RT_CFG.adr i) = some 0xF0077FFF ∧
      s.addrCause true 0x7007 = 0 ∧ s.addrCause false 0x7FFF = 0 ∧ s.owns i = false ∧ s.ownerOf 0x7007 = none ∧
      c.ownerOf 0x7007 = some 3 ∧ 3 ≠ i ∧ c.owns i = false ∧ q.dueEntries = [] ∧ q.lnd.reqs = [r] ∧ r.reach < q.sidx ∧
      r.sink < 2 ^ 15 ∧ q.addrCause false r.src = 0 ∧ q.ownerOf r.sink = none ∧ q.freeEntry = some 0 ∧
      bitOf (q.reg (LND_RT_CFG.adr 0)) 31 = false ∧ (overKerf.kerfOf 9).map (fun k => k.s + k.span) = some overKerf.sidx := by
  decide +kernel

/-- At the end of a kerf its target alone sounds (R161). -/
theorem test_route_kerf_over : ok (.routeKerfEnd 9) overKerf
    (fun t => wordOf t.lnd.snk 0x7007 == 1234 && t.srcInForce 9 == 0x7000) = true := by decide +kernel

theorem witness_Meters :
    let o : Owner := ⟨0x2000FC, 0, false⟩
    let s := inMode 1
    let b := waits [(LND_MC.adr 4095, 0xC0007007)] (inMode 1)
    let h : State := { (regsOf [(LND_MC.adr 4095, 0xCFF07007)]) with sidx := 96000 * 2000 }
    s.glb.testEn = false ∧ s.inReset o = false ∧ s.xmode o = false ∧ s.meterCause 0xC0007007 = 0 ∧ s.meterCause 0x40007008 ≠ 0 ∧
      s.admits directPort 0x0303 [4095, 0xC0007007] = true ∧ s.admits directPort 0x0303 [4095, 0x40007008] = true ∧
      b.sidx % b.nb = 0 ∧ b.due (LND_MC.adr 4095) = some 0xC0007007 ∧ h.flag (LND_MC.EN 4095) = true ∧
      h.fld (LND_MC.HOLDT 4095) ≠ 0 ∧ h.fld (LND_MC.HOLDT 4095) * h.fs ≤ 10 * (h.sidx - (h.meterOf 4095).holdAt) := by
  decide +kernel

theorem witness_Generators :
    let o : Owner := ⟨0x2000FC, 0, false⟩
    let s := inMode 1
    let b := waits [(genReg 15 0, 0x30000000)] (inMode 1)
    let e : State := { ((atBlock 1).setFld (LND_GEN_CTL.BUSY 15) 1) with
      sidx := 480, lnd := { LndSt.reset with gens := one 15 { GenSt.reset with rampAt := some 0, transAt := some 0 } } }
    s.glb.testEn = false ∧ s.inReset o = false ∧ s.xmode o = false ∧ 4 ≤ bitsOf (0x40000000 : Word) 31 28 ∧
      s.fs ≤ 2 * bitsOf (0x0000BB80 : Word) 15 0 ∧ 2 * bitsOf (0x3FFFBB7F : Word) 15 0 < s.fs ∧ bitsOf (0x3FFFBB7F : Word) 31 28 < 4 ∧
      b.sidx % b.nb = 0 ∧ b.flag (LND_GEN_CTL.BUSY 15) = false ∧ (b.genOf 15).idleAt = none ∧ b.due (LND_TONE.adr 15) = none ∧
      b.due (genReg 15 0) = some 0x30000000 ∧ b.due (genReg 15 1) = none ∧ b.due (genReg 15 2) = none ∧
      b.due (genReg 15 3) = none ∧ bitsOf (0x30000000 : Word) 31 28 ≠ b.fld (LND_GEN_CTL.TYPE 15) ∧
      e.flag (LND_GEN_CTL.BUSY 15) = true ∧ (e.genOf 15).rampAt = some 0 ∧ 0 + 480 ≤ e.sidx ∧ (e.genOf 15).transAt = some 0 := by
  decide +kernel

/-- A frequency of half the sample rate is refused with cause 5 of table 2 (R155, R158). -/
theorem test_tone_too_high : ok (.lndToneWrite 15 0x1000BB80) (inMode 1) (fun t => t.reg LND_REFUSE.adr == 0x8500000F) = true := by
  decide +kernel

/-- Scene buffer 0 with one action in its yard memory, in this state. -/
def scene (st : Nat) (n : Nat) (w : List Nat) : State :=
  let s := (inMode 2).setReg (SCN_BUF.adr 0 + 12) (BitVec.ofNat 32 (st * 2 ^ 29 + n))
  let a := s.bufAddr 0
  { s with far := { FarSt.reset with yard := Memory.writeBytes [] a (w.flatMap (leBytes 4)) } }

/-- The engine's own armed or arming scene of buffer 0. -/
def sceneOf (st : Nat) : State :=
  ((scene st 1 [0x10000000, 0x30000FFF, 5, 0]).setFld SCN_STAT.STATE st).setFld SCN_STAT.BUF 0

theorem witness_SceneArming :
    let o : Owner := ⟨0x3000FC, 1, false⟩
    let s := scene 1 1 [0x10000000, 0x30000FFF, 5, 0]
    let a := sceneOf 2
    let n := s.fld (SCN_BUF.CNT 0)
    s.glb.testEn = false ∧ s.inReset o = false ∧ s.fld (SCN_BUF.STATE 0) = bufStaged ∧ a.fld (SCN_BUF.STATE 0) = 2 ∧
      s.fld (SCN_BUF.CAP 0) < 65536 ∧ 1 ≤ s.fld (SCN_BUF.CAP 0) ∧ n = 1 ∧ s.admits directPort 0x0401 [0] = true ∧
      s.fld SCN_STAT.STATE = 0 ∧ s.fld (SCN_BUF.CAP 0) ≠ 0 ∧ a.admits directPort 0x0401 [63] = true ∧ a.fld SCN_STAT.STATE ≠ 0 ∧
      a.fld SCN_STAT.BUF ≠ 63 ∧ a.fld SCN_STAT.STATE = bufArming ∧ a.fld SCN_STAT.BUF = 0 ∧ a.scn.auto = none ∧
      a.bufAddr 0 + 16 * n ≤ 0x2000000 ∧ (∀ j < 16 * n, a.bankPwr ((a.bufAddr 0 + j) / 0x80000) = 0) ∧
      s.admits directPort 0x0402 [] = true ∧ a.admits directPort 0x0402 [] = true ∧ a.fld SCN_STAT.STATE < bufArmed ∧
      bufArmed ≤ (sceneOf 4).fld SCN_STAT.STATE ∧ (sceneOf 4).admits directPort 0x0402 [] = true := by decide +kernel

/-- A committed scene whose one action sets entry 4095 of engine 3 to 5 at sample `n`, seen at sample 16. -/
def committed (n : Nat) : State :=
  let s := heard (((sceneOf 4).setEng 3 { ((sceneOf 4).engOf 3) with krec := one 4095 [KSt.reset] })) 0x44
  { s with sidx := 16, scn := { SceneSt.reset with
      acts := [⟨2 ^ 28, 0x30000FFF, 5, 0⟩], commit := some ⟨9, n, n, 0, 0, none, false, 0, 0⟩ } }

/-- A scheduled PARAM_SET of the same entry for sample `n`. -/
def timed (n : Nat) : State :=
  let s := committed 99
  { s with scn := { SceneSt.reset with sched := [⟨9, 0x0203, [0x30000FFF, 5, 0], n, n, 0, 0, none, false, 0, 0⟩] } }

theorem witness_SceneCommits :
    let s := heard ((sceneOf 3).setFld (SCN_BUF.STATE 0) bufArmed) 0x46
    let c := committed 16
    let t := timed 16
    let args (policy n : Nat) : List Word := [0, BitVec.ofNat 32 (2 ^ 30 + policy * 2 ^ 27), BitVec.ofNat 32 n, 0, 0]
    (∀ p < 3, s.admits directPort 0x0403 (args p 1) = true) ∧ s.fld (SCN_BUF.STATE 0) = bufArmed ∧
      s.scn.acts.any (fun a => a.type == 3) = false ∧ s.sidx < 1 ∧ s.admits directPort 0x0403 (args 2 0) = true ∧ s.hears 0x46 1 ∧
      (scene 1 1 []).fld (SCN_BUF.STATE 0) < 2 ∧ (scene 1 1 []).admits directPort 0x0403 (args 0 1) = true ∧
      c.scn.commit.map (fun k => k.idx) = some 16 ∧ 16 ≤ c.sidx ∧ c.scn.acts = [⟨2 ^ 28, 0x30000FFF, 5, 0⟩] ∧ c.scn.runs = [] ∧
      c.lnd.kerfs = [] ∧ c.lnd.queue = [] ∧ c.lnd.held = [] ∧ (c.engOf 3).recOf 4095 = [KSt.reset] ∧ KSt.reset.s0 < 16 ∧
      c.routesApplied = true ∧ (∀ it ∈ c.scn.sched, c.sidx < it.idx) ∧ c.fld SCN_STAT.BUF = 0 ∧ c.hears 0x44 1 ∧
      c.sidx < 17 ∧ (committed 17).scn.commit.map (fun k => k.idx) = some 17 ∧
      t.scn.sched.map (fun it => (it.handle, it.opcode, it.args, it.idx)) = [(9, 0x0203, [0x30000FFF, 5, 0], 16)] ∧
      t.routesApplied = true ∧ t.admits directPort 0x0404 [9] = true ∧ s.admits directPort 0x0404 [9] = true ∧
      (∀ it ∈ s.scn.sched, it.handle ≠ 9) := by
  unfold State.hears
  decide +kernel

/-- The action and the event of a scene that applies (R199, R208). -/
theorem test_scene_applies : ok .scnApplied (committed 16)
    (fun t => (recAt ((t.engOf 3).recOf 4095) 16).start == 5 && tells t 0x44 0 16 0) = true := by decide +kernel

/-- Limiter 0 enabled on sink 0x7007 as leader. -/
def led : State := ((inMode 1).setFld OUT_DEF.LA 0).setReg (OUT_LIM.adr 0) 0xF0070000 |>.setReg (OUT_LIM.adr 0 + 4) 0x80000032

/-- Limiter 1023 in its crossfade. -/
def limXf : State := { (atBlock 1) with sidx := 64, out := { OutSt.reset with lims := one 1023 ⟨0, [⟨0, false, 0, 0⟩], 0⟩ } }

theorem witness_Limiters :
    let o : Owner := ⟨0x3800FC, 0, false⟩
    let s := inMode 1
    let sink : Word := 0x70060000
    let entry (linked : Bool) (lead : Nat) (sk : Nat) (x : State) : LimCfg :=
      ⟨true, sk, x.fld OUT_DEF.LA, 0, linked, lead, x.fld OUT_DEF.REL⟩
    let b := waits [(OUT_LIM.adr 1023, 0xF0070000)] (inMode 1)
    s.glb.testEn = false ∧ s.inReset o = false ∧ s.limCause 1023 (limCfg 0xF007400A 50) true = 0 ∧
      s.limCause 1023 (limCfg 0xF007400A 0) false = 4 ∧ b.sidx % b.nb = 0 ∧ b.due (OUT_LIM.adr 1023) = some 0xF0070000 ∧
      b.due (OUT_LIM.adr 1023 + 4) = none ∧ bitOf (b.reg (OUT_LIM.adr 1023)) 31 = false ∧ (b.limOf 1023).xf = [] ∧
      (limXf.limOf 1023).xf.getLast? = some ⟨0, false, 0, 0⟩ ∧ 0 + 64 ≤ limXf.sidx ∧
      s.admits directPort 0x0501 [sink, 0] = true ∧ s.admits directPort 0x0501 [sink, 0x00010000] = true ∧ s.limFree = some 0 ∧
      s.limCause 0 (entry false 0 0x7006 s) true = 0 ∧ s.limCause 0 (entry false 0 0x7008 s) true ≠ 0 ∧
      s.admits directPort 0x0501 [0x70080000, 0] = true ∧ s.admits directPort 0x0501 [sink, 0xF0050000] = true ∧ s.limOn 0x7005 = none ∧
      led.admits directPort 0x0501 [sink, 0xF0070000] = true ∧ led.limFree = some 1 ∧ led.limOn 0x7007 = some 0 ∧
      (led.limWritten 0).linked = true ∧ led.limCause 1 (entry true 0 0x7006 led) true = 0 ∧
      s.admits directPort 0x0502 [sink] = true ∧ s.limOn 0x7006 = none ∧ led.admits directPort 0x0502 [0x70070000] = true ∧
      led.limCause 0 { led.limWritten 0 with en := false, linked := false, lead := 0 } true = 0 := by decide +kernel

/-- Every limiter is written with EN = 1. -/
def limsFull : State := { (inMode 1) with stg := (List.range 1024).map (fun k => (OUT_LIM.adr k, 0x80000000)) }

/-- A table of one word at each place of a list. -/
theorem find_map (f : Nat → Nat) (l : List Nat) (v : Word) (j : Nat) (h : j ∈ l) :
    Tbl.find (l.map (fun k => (f k, v))) (f j) = some v := by
  induction l with
  | nil => cases h
  | cons a l ih =>
    simp only [List.map_cons, Tbl.find]
    split
    · rfl
    · rename_i hne
      rcases List.mem_cons.mp h with rfl | h
      · exact absurd rfl hne
      · exact ih h

theorem witness_Limiters_full : limsFull.limFree = none ∧ limsFull.admits directPort 0x0501 [0x70060000, 0] = true := by
  refine ⟨?_, by decide +kernel⟩
  rw [State.limFree, List.find?_eq_none]
  intro k hk
  have h : bitOf (2147483648#32) 31 = true := by decide
  simp [State.limWritten, State.written, limsFull, find_map OUT_LIM.adr _ _ k hk, limCfg, h]

/-- Side-tone path 15 in force with these words, one of them waiting. -/
def path (old new : Word) (p : PathSt) : State :=
  waits [(ST_XPATH.adr 15, new)] { ((inMode 1).setReg (ST_XPATH.adr 15) old) with out := { OutSt.reset with paths := one 15 p } }

theorem witness_SideTone :
    let o : Owner := ⟨0x3800FC, 1, false⟩
    let s := inMode 1
    let off := ST_XPATH.adr 15
    let p : PathSt := { PathSt.reset with heard := 0x80000000 }
    let k (sw : Bool) : PathSt := { p with switching := sw, kerf := { KSt.reset with busy := true, span := 16 } }
    s.glb.testEn = false ∧ s.inReset o = false ∧ s.xmode o = false ∧ pathBad 25 = true ∧ pathBad 24 = false ∧
      (path 0x80000000 0 p).sidx % (path 0x80000000 0 p).nb = 0 ∧ (path 0x80000000 0 p).due off = some 0 ∧
      (path 0x80000000 0x80000005 p).reg off = 0x80000000 ∧ ((path 0x80000000 0x80000005 p).pathOf 15).heard = 0x80000000 ∧
      bitsOf (0x80000005 : Word) 29 8 = bitsOf (0x80000000 : Word) 29 8 ∧ 0 < s.fld ST_XRAMP.SPAN ∧
      bitsOf (0x80000100 : Word) 29 8 ≠ bitsOf (0x80000000 : Word) 29 8 ∧ p.switching = false ∧ bitOf ((path 0 0x80000000 p).reg off) 31 = false ∧
      (k true).kerf.s0 + (k true).kerf.span ≤ (path 0x80000000 0 (k true)).sidx ∧ ((path 0 0 (k false)).pathOf 15).kerf.busy = true := by
  decide +kernel

/-- Serial port 31 in this state of R226 and of R233, at the second block boundary. -/
def port (st sync : Nat) (f : TdmSt → TdmSt) : State :=
  let s := ((atBlock 1).setFld (TDM_STAT.STATE 31) st).setFld (TDM_STAT.SYNC 31) sync
  s.setTdm 31 (f (s.tdmOf 31))

/-- Port 31 enabled, with this configuration. -/
def portCfg (st sync : Nat) (ctl cfg : Word) (f : TdmSt → TdmSt) : State :=
  ((port st sync f).setReg (TDM_XCTL.adr 31) ctl).setReg (TDM_XCFG.adr 31) cfg

theorem witness_SerialPortSettings :
    let o : Owner := ⟨0x4000FC + 0x1000 * 31, 0, false⟩
    let s := inMode 1
    let ctl := tdmCtlWord 0xDF400000
    let held := heard (portCfg tdmRun syncNone 0xC1000000 0x00040000 id) 0x67
    let w (v : Word) := waits [(TDM_XCTL.adr 31, v)] (portCfg tdmOff syncNone 0xC1000000 0 id)
    let off := portCfg tdmRun syncNone 0x41000000 0 (fun x => { x with fade := some (false, 0), last := 64 })
    let m := waits [(TDM_XRXMASK.adr 31, 5), (TDM_XTXMASK.adr 31, 6)] (port tdmRun syncNone (fun x => { x with last := 16 }))
    s.glb.testEn = false ∧ s.inReset o = false ∧ s.xmode o = false ∧ s.tdmCause 31 ctl (tdmBasicCfg ctl) = 0 ∧
      s.tdmCause 31 (tdmCtlWord 0xE0000000) 0 = 2 ∧ held.tdmCause 31 ctl (tdmBasicCfg ctl) = 1 ∧ held.hears 0x67 1 ∧
      (w 0).sidx % (w 0).nb = 0 ∧ (w 0).due (TDM_XCTL.adr 31) = some 0 ∧ (w 0).due (TDM_XCFG.adr 31) = none ∧
      (w 0).flag (TDM_XCTL.EN 31) = true ∧ (waits [(TDM_XCTL.adr 31, ctl)] s).flag (TDM_XCTL.EN 31) = false ∧
      (waits [(TDM_XCTL.adr 31, ctl)] s).tdmState 31 = tdmOff ∧ off.tdmState 31 ≠ tdmOff ∧ off.flag (TDM_XCTL.EN 31) = false ∧
      ({ off with sidx := 64 } : State).sidx = (off.tdmOf 31).last ∧ fadedOut (off.tdmOf 31).fade 64 = true ∧
      m.tdmState 31 = tdmRun ∧ (m.tdmOf 31).last = m.sidx ∧ m.waiting (maskAdr 31 true true) = some 6 ∧
      m.waiting (maskAdr 31 false true) = some 5 ∧ s.waiting (TDM_XRXMASK.adr 31) = none ∧ s.waiting (TDM_XTXMASK.adr 31) = none := by
  unfold State.hears
  decide +kernel

/-- A mask that came too late for this frame waits for the next one, the other applies (R237). -/
theorem test_mask_late : ok (.tdmMaskApply ⟨31, true, false⟩)
    (waits [(TDM_XRXMASK.adr 31, 5), (TDM_XTXMASK.adr 31, 6)] (port tdmRun syncNone (fun x => { x with last := 16 })))
    (fun t => t.reg (TDM_XRXMASK.adr 31) == 5 && t.waiting (TDM_XTXMASK.adr 31) == some 6) = true := by decide +kernel

/-- Port 31 in I2S with 16-bit words and frames of 32 bits. -/
def i2s (st : Nat) (f : TdmSt → TdmSt) : State :=
  (portCfg st syncNone 0x81000000 0x00020400 f).setFld (TDM_MEAS.FRATE 31) 48000

theorem witness_SerialPortFrames :
    let s := i2s tdmAcquire (fun x => { x with good := 8, last := 16 })
    let f := heard (i2s tdmFault (fun x => { x with good := 8, last := 16 })) 0x63
    let r := i2s tdmRun id
    let b := i2s tdmRun (fun x => { x with bad := 1, badRate := 1, badBclk := 1 })
    let sdi := List.replicate 33 true
    let h := heard (i2s tdmRun (fun x => { x with hist := [(3, [(0, 5)])] })) 0x66
    let e := heard (i2s tdmAcquire id) 0x60
    s.flag (TDM_XCTL.EN 31) = true ∧ 8 ≤ (s.tdmOf 31).good ∧ (s.tdmOf 31).last = s.sidx ∧ s.tdmState 31 = tdmAcquire ∧
      f.tdmState 31 = tdmFault ∧ f.hears 0x63 1 ∧ (r.tdmOf 31).good < 8 ∧
      frameEdge (r.reg (TDM_XCTL.adr 31)) (r.reg (TDM_XCFG.adr 31)) ⟨true, false⟩ = true ∧
      frameEdge (r.reg (TDM_XCTL.adr 31)) (r.reg (TDM_XCFG.adr 31)) ⟨true, true⟩ = false ∧
      sdi.length - 1 = r.fld (TDM_XCFG.FLEN 31) ∧ (r.tdmOf 31).byp = none ∧ [true].length - 1 ≠ r.fld (TDM_XCFG.FLEN 31) ∧
      1 ≤ (b.tdmOf 31).bad ∧ (e.reg (TDM_FAULT_CNT.adr 31)).toNat + 1 < 0xFFFFFFFF ∧ e.hears 0x60 1 ∧
      ((499999 : Word).toNat < 500000 ∧ 1000000 < (1000001 : Word).toNat) ∧ slotLimit 30999 = 0 ∧ 1 ≤ (b.tdmOf 31).badRate ∧
      (0 < slotLimit 31000 ∧ slotLimit 200000 < 32) ∧ cfgSlots (r.reg (TDM_XCTL.adr 31)) ≤ slotLimit 48000 ∧
      50000000 < (50000001 : Word).toNat ∧ 1 ≤ (b.tdmOf 31).badBclk ∧ f.fld (TDM_STAT.FAULT 31) = 0 ∧
      (f.setFld (TDM_STAT.FAULT 31) 1).fld (TDM_STAT.FAULT 31) = 1 ∧ h.tdmSync 31 ≠ syncConfirmed ∧
      (h.reg (TDM_SLIP_CNT.adr 31)).toNat + 1 < 0xFFFFFFFF ∧ h.hears 0x66 1 ∧ (h.tdmOf 31).hist = (3, [(0, 5)]) :: [] := by
  unfold State.hears
  decide +kernel

/-- Slot 0 of an I2S frame of alternate bits, its most significant bit at capture edge 1 (R222, R224). -/
theorem test_i2s_word : sdiWord 0x81000000 0x00020400 ((List.range 64).map (fun k => k % 2 == 1)) 0 = 0xAAAA := by decide +kernel

theorem witness_SerialPortSync :
    let o : Owner := ⟨0x4000FC + 0x1000 * 31, 0, false⟩
    let sdi := List.replicate 33 true
    let w (y : Nat) : State := { (i2s tdmRun (fun x => { x with since := some 0, winBad := y == 1 })) with sidx := 96000 }
    let d := heard (port tdmRun syncLost (fun x => { x with passes := 2 })) 0x64
    let c := port tdmRun syncDetected (fun x => { x with confirm := some 15, phase := 0xF800, last := 16 })
    let l := heard (port tdmRun syncConfirmed (fun x => { x with phase := 1025 })) 0x65
    let k := port tdmRun syncConfirmed (fun x => { x with phase := 64512 })
    let r := port tdmRun syncLost (fun x => { x with regain := some 64, last := 16 })
    let n := heard (inMode 1) 0x67
    ((w 0).tdmOf 31).since = some 0 ∧ 0 + (w 0).fs ≤ (w 0).sidx ∧ (w 1).tdmState 31 = tdmRun ∧ ((w 1).tdmOf 31).byp = none ∧
      sdi.length - 1 = (w 0).fld (TDM_XCFG.FLEN 31) ∧
      frameEdge ((w 0).reg (TDM_XCTL.adr 31)) ((w 0).reg (TDM_XCFG.adr 31)) ⟨true, false⟩ = true ∧
      d.tdmState 31 = tdmRun ∧ d.tdmSync 31 = syncLost ∧ 2 ≤ (d.tdmOf 31).passes ∧ d.hears 0x64 1 ∧
      ((port tdmRun syncNone (fun x => { x with passes := 1 })).tdmOf 31).passes < 2 ∧ n.glb.testEn = false ∧ n.inReset o = false ∧
      n.xmode o = false ∧ c.tdmSync 31 = syncDetected ∧ n.tdmSync 31 ≠ syncDetected ∧ n.hears 0x67 1 ∧ c.sidx % c.nb = 0 ∧
      (c.tdmOf 31).confirm = some 15 ∧ 15 < c.sidx ∧ 1024 < (phaseDiff (l.tdmOf 31).phase (l.tdmOf 31).lphase).natAbs ∧
      (l.reg (TDM_SYNCLOSS_CNT.adr 31)).toNat + 1 < 0xFFFFFFFF ∧ l.hears 0x65 1 ∧
      (phaseDiff (k.tdmOf 31).phase (k.tdmOf 31).lphase).natAbs ≤ 1024 ∧ r.tdmState 31 = tdmRun ∧ r.tdmSync 31 = syncLost ∧
      (r.tdmOf 31).regain = some 64 ∧ r.sidx % r.nb = 0 := by
  unfold State.hears
  decide +kernel

/-- A port whose phase is near the next tick is confirmed onto the next index (R234). -/
theorem test_confirm_next : ok (.tdmSyncConfirmApply 31)
    (port tdmRun syncDetected (fun x => { x with confirm := some 15, phase := 0xF800, last := 16 }))
    (fun t => t.tdmSync 31 == syncConfirmed && t.fld (TDM_STAT.NEXT 31) == 1) = true := by decide +kernel

theorem witness_Booms :
    let o : Owner := ⟨0x4400FC, 0, false⟩
    let s := heard (inMode 1) 0x6B
    let u := s.setReg (BOOM_XMEM.adr 0 0) 0x4000001F
    let b := waits [(BOOM_XMEM.adr 15 15, 0x4000001F), (BOOM_XCFG.adr 15, 0x800003FF)] (inMode 1)
    let full := (s.setReg BOOM_XPOOL_LEN.adr 0).setReg (BOOM_XMEM.adr 15 0) 0x4000001F
    s.glb.testEn = false ∧ s.inReset o = false ∧ s.xmode o = false ∧ s.memCause 15 15 1 31 = 0 ∧ s.memCause 15 15 1 32 = 2 ∧
      u.memCause 15 15 1 31 = 1 ∧ s.hears 0x6B 1 ∧ full.boomFits 15 0x800003FF = false ∧ s.boomFits 15 0x800003FF = true ∧
      16 < (maskPorts 0x1FFFF).length ∧ (maskPorts 0xFFFF0000).length ≤ 16 ∧ s.portsBad 15 0xFFFF0000 = none ∧
      u.portsBad 15 0xFFFF0000 = some 15 ∧ b.sidx % b.nb = 0 ∧ b.due (BOOM_XMEM.adr 15 15) = some 0x4000001F ∧
      b.due (BOOM_XCFG.adr 15) = some 0x800003FF := by
  unfold State.hears
  decide +kernel

/-- A member of a group. -/
def grpMem (id per : Nat) (err : Int) (stray : Nat) : GrpMem := ⟨1, id, true, 0, 0, 0, some per, err, stray⟩

/-- Group 63 in this state with pilot port 30 and member port 31, both heard, and these entries. -/
def group (st : Nat) (f : GrpSt → GrpSt) : State :=
  let s := ((atBlock 1).setFld (ASRC_GSTAT.STATE 63) st).setPilot 63 (1, 30)
  let s := (s.setFld (TDM_STAT.STATE 31) tdmRun).setFld (TDM_MEAS.FRATE 30) 48000
  let ch (id : Nat) : ChSt := ⟨some (true, 0), chWord 0 63 1 id 0⟩
  let s := { s with str := { s.str with ch := [(0, ch 30), (1023, ch 31)] } }
  [0x70, 0x71, 0x72, 0x73, 0x74, 0x75, 0x77].foldl heard (s.setGrp 63 (f (s.grpOf 63)))

theorem witness_RateGroups :
    let a := group gAcquire (fun x => { x with good := 32 })
    let r := (group gAcquire id).setFld (TDM_MEAS.FRATE 30) 0
    let h (per : Nat) (err : Int) := group gHold (fun x => { x with per := 1000000, mems := [grpMem 31 per err 0] })
    let l := group gLock (fun x => { x with per := 1000000, far := 4 })
    let m := group gLock (fun x => { x with per := 1000000, mems := [grpMem 31 1000000 500000 4] })
    let e : State := { (group gHold id) with sidx := 96000 * 1000 }
    let room (s : State) (n : Nat) : Prop := (s.reg n).toNat + 1 < 0xFFFFFFFF
    a.gState 63 = gAcquire ∧ 32 ≤ (a.grpOf 63).good ∧ (a.grpOf 63).start = none ∧ a.hears 0x70 1 ∧ (r.grpOf 63).good < 32 ∧
      r.ratioOk 1 30 = false ∧ a.ratioOk 1 30 = true ∧ (h 1000100 0).gState 63 = gHold ∧ (h 1000100 0).sidx % (h 1000100 0).nb = 0 ∧
      (h 1000100 0).resumed 63 (streamOf false 31) = true ∧ (h 1000100 500000).onLine 63 (streamOf false 31) = true ∧
      (h 1000100 0).nearHeld 63 (streamOf false 31) = true ∧ (h 1000101 0).nearHeld 63 (streamOf false 31) = false ∧
      (h 1000100 500001).onLine 63 (streamOf false 31) = false ∧ room (h 1000101 0) (ASRC_STEP_CNT.adr 63) ∧
      l.gState 63 = gLock ∧ l.stepped 63 = true ∧ m.stepped 63 = false ∧ l.streamLost 1 30 = true ∧ room l (ASRC_LOSS_CNT.adr 63) ∧
      (∀ q ∈ l.groupStreams 63, l.qualifies 63 q = false) ∧ m.qualifies 63 (streamOf false 31) = true ∧
      m.streamLost 1 30 = true ∧ (1, 31) ∈ m.groupStreams 63 ∧ (m.setFld (TDM_STAT.STATE 30) tdmRun).streamLost 1 30 = false ∧
      (e.grpOf 63).holdAt * 10 + e.fld (ASRC_XGRP.HOLDMAX 63) * e.fs ≤ e.sidx * 10 ∧
      (group gHold id).sidx * 10 < ((group gHold (fun x => { x with holdAt := 16 })).grpOf 63).holdAt * 10 + 1 ∧
      (m.grpOf 63).memOf 1 31 = some (grpMem 31 1000000 500000 4) ∧ (m.groupStreams 63).contains (1, 31) = true ∧
      room m (ASRC_STRAY_CNT.adr 63) ∧ m.onLine 63 (streamOf false 31) = true := by
  unfold State.hears
  decide +kernel

/-- A stray leaves the streams of its group, the pilot stays (R251). -/
theorem test_stray : ok (.asrcStray 63 false 31) (group gLock (fun x => { x with per := 1000000, mems := [grpMem 31 1000000 500000 4] }))
    (fun t => t.gPilot 63 == (1, 30) && (t.grpOf 63).lost.any (fun q => q.2.1 == 31) && tells t 0x74 63 63 0) = true := by decide +kernel

/-- Every channel of the pool is written with EN = 1. -/
def chansFull : State := { (inMode 1) with stg := (List.range 1024).map (fun k => (chOff k, 0x80000000)) }

theorem witness_RateConversionSettings_full (n : Nat) : chansFull.freeChans n = [] := by
  have h : bitOf (2147483648#32) 31 = true := by decide
  have hl : (List.range 1024).filter (fun c => !chansFull.chanHeld c) = [] := by
    rw [List.filter_eq_nil_iff]
    intro k hk
    simp [State.chanHeld, State.lastWritten, State.waiting, chansFull,
      find_map chOff _ _ k hk, h]
  simp [State.freeChans, hl]

theorem witness_RateConversionSettings :
    let o : Owner := ⟨0x5000FC, 0, false⟩
    let s := heard (inMode 1) 0x76
    let en := s.setReg (ASRC_XGRP.adr 63) 0x80000000
    let b := (waits [(ASRC_XGRP.adr 63, 0x90000000)] (port tdmRun syncNone id))
    let g := (port tdmRun syncNone id).setReg (ASRC_XGRP.adr 63) 0x9000001F
    let w := waits [(chOff 1023, 0x8040000F)] (inMode 1)
    s.glb.testEn = false ∧ s.inReset o = false ∧ s.xmode o = false ∧ en.flag (ASRC_XGRP.EN 63) = true ∧
      bitsOf (en.lastWritten (ASRC_XGRP.adr 63)) 29 28 ≠ bitsOf (setBits (0x90000000 : Word) 27 12 0) 29 28 ∧
      bitsOf (setBits (0x90000020 : Word) 27 12 0) 29 28 = 1 ∧ 32 ≤ bitsOf (setBits (0x90000020 : Word) 27 12 0) 11 0 ∧
      bitsOf (setBits (0x9000001F : Word) 27 12 0) 11 0 < 32 ∧ s.hears 0x76 1 ∧ s.chanCause 1023 0x8040000F = 0 ∧
      s.chanCause 1023 0x80000000 ≠ 0 ∧ bitOf (s.reg (ASRC_BPORT.adr 31)) 31 = false ∧
      (s.chanPlan [chWord 0 63 1 31 0, chWord 1 63 1 31 0]).2.1 = 0 ∧ w.sidx % w.nb = 0 ∧ w.due (chOff 1023) = some 0x8040000F ∧
      bitOf (w.reg (chOff 1023)) 31 = false ∧ w.fld ASRC_STAT.CHANNELS < 1024 ∧
      b.due (ASRC_XGRP.adr 63) = some 0x90000000 ∧ g.due (ASRC_XGRP.adr 63) = none ∧ g.flag (ASRC_XGRP.EN 63) = true ∧
      g.gState 63 = gIdle ∧ g.publishes (g.fld (ASRC_XGRP.KIND 63)) (g.fld (ASRC_XGRP.PILOT 63)) = true ∧
      s.flag (ASRC_XGRP.EN 63) = false := by
  unfold State.hears
  decide +kernel

/-- A raft of two chips with 10 samples each way, this one at position 0, in this state of R258; the other is at position 1. -/
def raft (st : Nat) (ctl : Word) (f : RaftSt → RaftSt) : State :=
  let s := ((inMode 2).setReg RAFT_CTL.adr ctl).setReg RAFT_STAT.adr (BitVec.ofNat 32 (st * 2 ^ 28 + 2 ^ 26 + 2 * 2 ^ 13 + 20))
  let s := (s.setReg (RAFT_HOP.adr 0) 0x800A0000).setReg (RAFT_HOP.adr 1) 0x820A0000
  { s with sidx := 96000, raft := f { RaftSt.reset with oriented := true, mpos := 1 } }

/-- The same with both links up. -/
def linked (st : Nat) (ctl : Word) (f : RaftSt → RaftSt) : State :=
  ((raft st ctl f).setFld RAFT_LINKE.STATE 2).setFld RAFT_LINKW.STATE 2

/-- A control word of the chip at position `pos`, its rate, with a master at position 1 (R262). -/
def goodCw (rate pos : Nat) : Nat :=
  let v := 0xC5 * 2 ^ 248 + 2 ^ 245 + rate * 2 ^ 242 + 2 ^ 241 + 1 * 2 ^ 235 + 7 * 2 ^ 227 + pos * 2 ^ 213 + 0x123 * 2 ^ 147
  v + cwCrc v

/-- The check of R262 holds of a control word. -/
def cwGood (v : Nat) : Bool := cwBits v 15 0 == cwCrc v && cwBits v 255 248 == 0xC5 && cwBits v 247 245 == 1

/-- A hop of a ring. -/
def hop (p : Fin 64) (d : BitVec 8) (t : BitVec 16) : RaftHop := ⟨p, d, t⟩

theorem witness_RaftLinks :
    let o : Owner := ⟨0x6000FC, 0, false⟩
    let s := raft raftRun 0x80000000 id
    let b (w : Word) (ctl : Word) := { waits [(RAFT_CTL.adr, w)] (raft raftOff ctl id) with sidx := 96000 }
    let d := heard (heard (linked raftRun 0x80000000 id) 0x81) 0x80
    let one := heard ((raft raftRun 0x80000000 id).setFld RAFT_LINKE.STATE 2) 0x81
    let bad := linked raftRun 0x80000000 (fun x => { x with west := { RingSt.reset with badFcs := 7, badCw := 7 } })
    let form := linked raftForming 0x80000000 id
    s.glb.testEn = false ∧ s.inReset o = false ∧ s.xmode o = false ∧
      (bitOf (0x40000000 : Word) 30 != s.isMaster && s.flag RAFT_CTL.EN && s.flag RAFT_STAT.MV) = true ∧
      (bitOf (0 : Word) 30 != s.isMaster && s.flag RAFT_CTL.EN && s.flag RAFT_STAT.MV) = false ∧
      (b 0x80000000 0).due RAFT_CTL.adr = some 0x80000000 ∧ (b 0x80000000 0).sidx % (b 0x80000000 0).nb = 0 ∧
      (b 0x80000000 0).flag RAFT_CTL.EN = false ∧ (b 0x80000000 0).raftState = raftOff ∧ (b 0x80000000 0).mode ≠ 0 ∧
      (b 0 0x80000000).due RAFT_CTL.adr = some 0 ∧ (b 0 0x80000000).flag RAFT_CTL.EN = true ∧ s.raftState ≠ raftOff ∧
      s.linkUp false = false ∧ s.fld GLB_RATE.RATE = 3 ∧ (4 : Nat) ≠ 3 ∧ (0x0041 : Nat) / 64 ≠ s.raftNo ∧ (0 : Nat) % 64 = s.raftPos ∧
      (63 : Nat) / 64 = s.raftNo ∧ (63 : Nat) % 64 ≠ s.raftPos ∧ d.linkUp false = true ∧ d.hears 0x81 1 ∧ d.hears 0x80 1 ∧
      one.linkUp true = false ∧ d.linkUp true = true ∧ d.raftState = raftRun ∧ d.raft.lost = [] ∧ cwGood 0 = false ∧
      cwGood (goodCw 3 1) = true ∧ (d.ring 1).badFcs < 7 ∧ (d.ring 1).badCw < 7 ∧ (d.ring 1).badIdx < 8 ∧ (d.ring 1).badT < 8 ∧
      (d.reg RAFT_CWERR_CNT.adr).toNat + 1 < 0xFFFFFFFF ∧ 7 ≤ (bad.ring 1).badFcs ∧ 7 ≤ (bad.ring 1).badCw ∧
      d.raftSlots = 12288 ∧ d.raft.oriented = true ∧ cwBits (goodCw 4 1) 244 242 ≠ d.fld GLB_RATE.RATE ∧
      form.raftState = raftForming ∧ form.isMaster = false ∧ cwBits (goodCw 3 1) 244 242 = form.fld GLB_RATE.RATE ∧
      cwBits (goodCw 3 1) 226 219 = form.raftNo ∧ cwBits (goodCw 3 1) 218 213 ≠ form.raftPos ∧
      cwBits (goodCw 3 1) 116 113 = 0 ∧ cwBits (goodCw 3 1) 241 241 = 1 := by
  unfold State.hears
  decide +kernel

/-- The slot check of a frame of zeros at 96 kHz; any other word fails it (R261). -/
theorem test_slot_crc : slotCrc 12288 [] = 3961283186 := by decide +kernel

/-- A good frame shows the master and takes the slots in (R261, R262). -/
theorem test_frame_rx : ok (.raftFrameRx false (BitVec.ofNat 256 (goodCw 3 1)) (BitVec.ofNat 32 (slotCrc 12288 [(5, -1)])) [⟨5, 0xFFFFFFFFFF⟩] 9 0)
    (linked raftForming 0x80000000 id) (fun t => t.flag RAFT_STAT.MV && t.raft.mpos == 1 && t.raft.qual == 7 &&
      (t.ring 1).win == [(5, -1)] && (t.ring 1).badFcs == 0 && (t.ring 1).lag == 9 && (t.ring 1).echo == 0x123) = true := by
  decide +kernel

theorem witness_RaftLinks_ring :
    let ring := [hop 1 10 2560, hop 0 11 2560]
    let mine := [hop 0 10 2560, hop 1 11 2560]
    let m := linked raftForming 0xC0000000 id
    let follow (a : Int) (mode : Nat) := (((linked raftForming 0x80000000 (fun x =>
      { x with east := { RingSt.reset with ahead := some a } })).setFld REF_STAT.STATE 2).setFld REF_STAT.CUR 5).setFld GLB_MODE.CUR mode
    let f := follow (32768 - 655360) 2
    let g := follow (32769 - 655360) 2
    (List.range ring.length).find? (fun i => ring[i]?.any (fun h => h.pos.val == f.raftPos)) = some 1 ∧ ring.length ≤ 64 ∧
      m.raftState = raftForming ∧ (m.linkUp false || m.linkUp true) = true ∧ m.isMaster = true ∧
      (List.range mine.length).find? (fun i => mine[i]?.any (fun h => h.pos.val == m.raftPos)) = some 0 ∧
      mine[0]?.any (fun h => h.pos.val == m.raftPos) = true ∧ f.isMaster = false ∧ ring[0]?.any (fun h => h.pos.val == f.raft.mpos) = true ∧
      f.raft.oriented = true ∧ f.refOnRaft = true ∧ f.flag RAFT_STAT.MV = true ∧ f.alignBy ring 1 = some 32768 ∧
      g.alignBy ring 1 = some 32769 ∧ f.mode ≠ 1 ∧ (follow 0 1).mode = 1 ∧ (follow 0 1).alignBy ring 1 = some 655360 := by
  decide +kernel

/-- A follower in SETUP loads the aligned index: 10 samples ahead (R265). -/
theorem test_follower : ok (.raftFormed [hop 1 10 2560, hop 0 11 2560] 0)
    ((((linked raftForming 0x80000000 (fun x => { x with east := { RingSt.reset with ahead := some 0 } })).setFld REF_STAT.STATE 2).setFld
      REF_STAT.CUR 5).setFld GLB_MODE.CUR 1)
    (fun t => t.sidx == 96010 && t.raftState == raftRun && t.dhop 0 == 10 && t.dhop 1 == 11) = true := by decide +kernel

theorem witness_RaftLinks_breaks :
    let k := raft raftRun 0x80000000 (fun x => { x with brk := [(true, 95999, [1])] })
    let w (n : Nat) := heard (raft raftWrapped 0x80000000 (fun x => { x with lost := [1], wrapAt := [n] })) 0x86
    let r := ((linked raftWrapped 0x80000000 (fun x => { x with
      lost := [0], detour := [0], wraps := [⟨false, 1, 2, [0]⟩], upSince := some 0 })).setFld RAFT_XCFG.WTR 10)
    let u (n : Nat) := raft raftWrapped 0x80000000 (fun x => { x with
      lost := [0], detour := [0], wraps := [⟨false, 1, 2, [0]⟩], unwrap := some (n, none, [0]), reports := [(1, (255, 7))] })
    let z (n : Nat) := raft raftRun 0x80000000 (fun x => { x with resetAt := some (n, none) })
    k.raft.brk = (true, 95999, [1]) :: [] ∧ (w 96000).raft.wrapAt = 96000 :: [] ∧ 96000 ≤ (w 96000).sidx ∧ (w 96000).hears 0x86 1 ∧
      (w 96001).sidx < 96001 ∧ r.repaired = true ∧ r.fld RAFT_XCFG.WTR ≠ 0 ∧
      (r.raft.upSince.getD 0) * 10 + r.fld RAFT_XCFG.WTR * r.fs ≤ r.sidx * 10 ∧
      r.sidx * 10 < (r.raft.upSince.getD 0) * 10 + (r.setFld RAFT_XCFG.WTR 11).fld RAFT_XCFG.WTR * r.fs ∧
      (u 96000).raft.unwrap = some (96000, none, [0]) ∧ 96000 ≤ (u 96000).sidx ∧ (u 96001).sidx < 96001 ∧ (u 96000).ringN ≤ 64 ∧
      1 < (u 96000).ringN ∧ Tbl.find (u 96000).raft.reports ((u 96000).fld (RAFT_HOP.POS 1)) = some (255, 7) ∧
      (z 96000).raft.resetAt = some (96000, none) ∧ 96000 ≤ (z 96000).sidx ∧ (z 96001).sidx < 96001 ∧ (z 96000).raftUp = true := by
  unfold State.hears
  decide +kernel

/-- With the break repaired the raft runs again, each hop with its reported latency (R279). -/
theorem test_unwrap : ok .raftUnwrap (raft raftWrapped 0x80000000 (fun x => { x with
      lost := [0], detour := [0], wraps := [⟨false, 1, 2, [0]⟩], unwrap := some (96000, none, [0]), reports := [(1, (255, 7))] }))
    (fun t => t.raftState == raftRun && t.dhop 1 == 255 && t.raft.lost == [] && t.raft.detour == [] && t.raft.wraps == []) = true := by
  decide +kernel

/-- The same raft with this chip as master and the map of R268 giving slot 0 to the east-going ring. -/
def master (f : RaftSt → RaftSt) : State := (raft raftRun 0xC0000000 f).setReg (RAFT_XPROT.adr 0) 1

theorem witness_RaftCommands :
    let s := master id
    let fol := raft raftRun 0x80000000 id
    let full := master (fun x => { x with east := { RingSt.reset with tq := List.replicate 16 ⟨1, 0, 0, 0⟩ } })
    let apply (slots : List (Nat × Word)) : State :=
      { raft raftRun 0x80000000 (fun x => { x with applies := [(96000, some 5, false)] }) with stg := slots }
    let x (n : Nat) : Word := BitVec.ofNat 32 n
    let w (wide n : Nat) : List Word := [x (wide * 2 ^ 31), x n, 0]
    s.admits directPort 0x0601 (w 0 96000) = true ∧ s.admits directPort 0x0601 (w 1 96083) = true ∧
      s.admits directPort 0x0601 (w 1 96084) = true ∧ s.sidx + s.ringSum + 64 = 96084 ∧ s.raft.east.tq.length + 3 ≤ 16 ∧
      full.admits directPort 0x0601 (w 1 96084) = true ∧ ¬ full.raft.east.tq.length + 1 ≤ 16 ∧
      (apply []).raft.applies = [(96000, some 5, false)] ∧ 96000 ≤ (apply []).sidx ∧ (apply [(slotOff 0 5, 0x20000007)]).applyCheck = none ∧
      (apply [(slotOff 1 12287, 0xE0000000)]).applyCheck = some (12287, 1) ∧
      fol.admits directPort 0x0602 [0, x 65536] = true ∧ fol.isMaster = false ∧ s.admits directPort 0x0602 [0, x 65536] = true ∧
      s.isMaster = true ∧ s.raftUp = true ∧ s.admits directPort 0x0602 [0, x (63 * 65536)] = true ∧ s.idxOf 63 = none ∧
      s.idxOf 0 ≠ none ∧ s.idxOf 1 ≠ none ∧ s.freeSlot 0 (s.pathHops 0 0 1) = some 0 ∧
      (s.pathHops 0 0 1).length ≤ (s.pathHops 1 0 1).length ∧
      s.admits directPort 0x0603 [x 65536, 1, 0] = true ∧ fol.admits directPort 0x0603 [x 65536, 1, 0] = true ∧
      s.admits directPort 0x0603 [0, 1, 0] = true ∧ (List.range 64).filter (fun p => 1 / 2 ^ p % 2 == 1 && p != 0) = [] ∧
      (s.relayHalf 0 0 1 [0]).map (fun r => r.1) = some 0 ∧
      (∀ r, s.relayHalf 0 0 1 [0] = some r → s.raft.east.tq.length + s.entryTokens r.2.2 ≤ 16) ∧
      s.admits directPort 0x0604 [255] = true ∧ fol.admits directPort 0x0604 [255] = true := by decide +kernel

theorem witness_RaftCommands_waiting :
    let s := master id
    let x (n : Nat) : Word := BitVec.ofNat 32 n
    let rel := raft raftRun 0x80000000 (fun x => { x with releases := [(255, 96000, false)], arrived := [(255, 5)] })
    let c := heard (master (fun x => { x with collects := [(255, 0)] })) 0x8E
    let rep (wtr : Nat) := (linked raftWrapped 0x80000000 (fun x => { x with wraps := [⟨false, 1, 2, [0]⟩], upSince := some 0 })).setFld
      RAFT_XCFG.WTR wtr
    let snt (n tries : Nat) := heard (raft raftRun 0x80000000 (fun x => { x with sent := [⟨⟨1, 0, 15, 0⟩, 0, n, tries, none⟩] })) 0x8F
    rel.raft.releases = [(255, 96000, false)] ∧ 96000 ≤ rel.sidx ∧ (255, 5) ∈ rel.raft.arrived ∧ c.raft.collects = [(255, 0)] ∧
      0 * 1000 + c.fld RAFT_XTOK.BTIMEOUT * c.fs ≤ c.sidx * 1000 ∧ c.hears 0x8E 1 ∧
      s.admits directPort 0x0606 [x 96019, 0] = true ∧ s.sidx + s.ringSum = 96020 ∧ s.admits directPort 0x0606 [x 96020, 0] = true ∧
      s.admits directPort 0x0607 [x 96019, 0] = true ∧ s.admits directPort 0x0607 [x 96020, 0] = true ∧
      s.admits directPort 0x0605 [] = true ∧ s.repaired = false ∧ (rep 0).repaired = true ∧ (rep 0).fld RAFT_XCFG.WTR = 0 ∧
      (rep 0).admits directPort 0x0605 [] = true ∧ (rep 0).raft.west.tq.length < 16 ∧ (rep 1).fld RAFT_XCFG.WTR ≠ 0 ∧
      (snt 95896 0).sidx ≤ 95896 + 2 * (snt 95896 0).ringSum + 64 ∧ 95895 + 2 * (snt 95895 2).ringSum + 64 < (snt 95895 2).sidx ∧
      ((snt 95895 2).reg RAFT_TOKRTX_CNT.adr).toNat + 1 < 0xFFFFFFFF ∧ (snt 95895 3).hears 0x8F 1 := by
  unfold State.hears
  decide +kernel

/-- A raft at 192 kHz whose map protects no slot. -/
def noSlots : State :=
  let s := (raft raftRun 0xC0000000 id).setFld GLB_RATE.RATE 5
  { s with regs := (List.range 384).map (fun w => (RAFT_XPROT.adr w, 0)) ++ s.regs }

/-- A register that the head of the table lists. -/
theorem get_map (f : Nat → Nat) (l : List Nat) (v : Word) (r : Tbl Word) (d : Nat → Word) (j : Nat)
    (h : j ∈ l) : Tbl.get d (l.map (fun k => (f k, v)) ++ r) (f j) = v := by
  induction l with
  | nil => cases h
  | cons a l ih =>
    simp only [List.map_cons, List.cons_append, Tbl.get]
    split
    · rfl
    · rename_i hne
      rcases List.mem_cons.mp h with rfl | h
      · exact absurd rfl hne
      · exact ih h

theorem witness_RaftCommands_full (hops : List Nat) : noSlots.freeSlot 0 hops = none := by
  have hn : noSlots.raftSlots = 6144 := by decide +kernel
  rw [State.freeSlot, hn, List.find?_eq_none]
  intro k hk
  have hk : k < 6144 := List.mem_range.mp hk
  have h0 : noSlots.reg (RAFT_XPROT.adr (k / 16)) = 0 :=
    get_map RAFT_XPROT.adr _ _ _ _ _ (List.mem_range.mpr (by omega))
  simp [State.prot, h0, bitsOf]

theorem witness_RaftCommands_none : noSlots.admits directPort 0x0602 [0, 65536] = true ∧ noSlots.isMaster = true ∧
    noSlots.raftUp = true ∧ noSlots.idxOf 0 ≠ none ∧ noSlots.idxOf 1 ≠ none := by decide +kernel

/-- MAC 3 enabled in SETUP. -/
def net3 : State := heard ((inMode 1).setFld (NET_MXCFG.EN 3) 1) 0xA2

/-- An entry of flow 4095, in force. -/
def flowIs (tx : Bool) (l : List (Nat × Word)) (s : State) : State := l.foldl (fun s p => s.setReg (flowOff tx 4095 p.1) p.2) s

theorem witness_FlowTables_entries :
    let o : Owner := ⟨0x7000FC, 0, false⟩
    let s := net3
    let on : List (Nat × Word) := [(0, 0xE3000100), (5, 0x00100000), (6, 16)]
    let a (tx : Bool) (v : Word) (s : State) := waits [(flowOff tx 4095 0, v)] s
    let tx (x : TxSt) (s : State) := (a true 0xE3000100 (flowIs true [(0, 0x63000100)] s)).setTx 4095 x
    let ty (x : TxSt) (s : State) := (a true 0x63000100 (flowIs true [(0, 0xE3000100)] s)).setTx 4095 x
    let rx (x : RxSt) (s : State) := (a false 0xE3000100 (flowIs false ((0, 0x63000100) :: on.tail) s)).setRx 4095 x
    let ry (s : State) := (a false 0x63000100 (flowIs false on s)).setRx 4095 { RxSt.reset with heard := [0xE3000100] }
    let entry (out : Bool) (s : State) : List Word :=
      (List.range 8).map (fun k => (s.due (flowOff out 4095 k)).getD (s.reg (flowOff out 4095 k)))
    let r := rx RxSt.reset s
    let full := rx RxSt.reset (s.setReg NET_XJPOOL_LEN.adr 0)
    s.glb.testEn = false ∧ s.inReset o = false ∧ s.flowCause false 4095 7 (flowMask false 7 0xFFFFFFFF) = 0 ∧
      s.flowCause true 4095 0 (flowMask true 0 0xE3000000) = 1 ∧
      (tx TxSt.reset s).sidx % (tx TxSt.reset s).nb = 0 ∧ ((tx TxSt.reset s).due (flowOff true 4095 0)).isSome = true ∧
      flEn ((tx TxSt.reset s).flowReg true 4095) = false ∧ flEn (entry true (tx TxSt.reset s)) = true ∧
      ((tx { TxSt.reset with on := true } s).txOf 4095).on = true ∧ ((tx TxSt.reset s).txOf 4095).on = false ∧
      flEn ((ty TxSt.reset s).flowReg true 4095) = true ∧ flEn (entry true (ty TxSt.reset s)) = false ∧
      ((ty TxSt.reset s).txOf 4095).rows = [] ∧ ((ty TxSt.reset s).txOf 4095).again = false ∧
      ((ty { TxSt.reset with rows := [[1]] } s).txOf 4095).rows ≠ [] ∧
      r.sidx % r.nb = 0 ∧ (r.due (flowOff false 4095 0)).isSome = true ∧ flEn (r.flowReg false 4095) = false ∧
      flEn (entry false r) = true ∧ (r.flowFit 4095 (entry false r)).isSome = true ∧ (r.rxOf 4095).heard = [] ∧
      ((rx { RxSt.reset with heard := [0xE3000100] } s).rxOf 4095).heard ≠ [] ∧
      full.flowFit 4095 (entry false full) = none ∧ flEn ((ry s).flowReg false 4095) = true ∧
      flEn (entry false (ry s)) = false ∧ ((ry s).rxOf 4095).again = false := by decide +kernel

/-- A table of receive flows that are all enabled. -/
def flowsFull : State := { net3 with regs := (List.range 4096).map (fun k => (flowOff false k 0, 0x80000000)) ++ net3.regs }

theorem witness_FlowTables_full (keys : List Nat) :
    (List.range 4096).find? (fun g => !keys.contains g && !bitOf (flowsFull.reg (flowOff false g 0)) 31) = none := by
  have h : bitOf (2147483648#32) 31 = true := by decide
  rw [List.find?_eq_none]
  intro k hk
  have h0 : flowsFull.reg (flowOff false k 0) = 2147483648#32 := get_map (fun g => flowOff false g 0) _ _ _ _ _ hk
  simp [h0, h]

theorem witness_FlowTables_commands :
    let s := net3
    let rx (x : Word) : List Word := [x, 0xE0000001, 0x138C0000, 0, 0]
    let tx (x : Word) : List Word := [x, 0xE0000001, 0x138C0000, 0]
    let free (tx : Bool) (s : State) :=
      (List.range 4096).find? (fun g => !(s.flowKeys tx).contains g && !bitOf (s.reg (flowOff tx g 0)) 31)
    let fill (out : Bool) (a : Word) (s : State) :=
      s.flowFill out (s.ctxOf directPort (if out then 0x0702 else 0x0701) 0 (if out then tx a else rx a))
    let want (out : Bool) (a : Word) (s : State) :=
      (List.range (flCh (fill out a s))).map (fun k => chWord (b2n out) (bitsOf a 28 23) 2 0 k)
    let held := s.setReg (chOff 5) (chWord 0 63 2 0 0)
    let full := { chansFull with regs := s.regs }
    let busy := (s.setRx 4095 { RxSt.reset with cmd := some 9 })
    let en := flowIs false [(0, 0xE3000100)] s
    s.admits directPort 0x0701 (rx 0xC0300000) = true ∧ flowsFull.admits directPort 0x0701 (rx 0xC0300000) = true ∧
      s.admits directPort 0x0702 (tx 0xFF300000) = true ∧ free false s = some 0 ∧ free true s = some 0 ∧
      s.enableCause false 0 (fill false 0xC0300000 s) = 0 ∧ s.enableCause true 0 (fill true 0xFF300000 s) = 0 ∧
      s.enableCause false 0 (fill false 0x00300000 s) = 8 ∧ s.admits directPort 0x0701 (rx 0x00300000) = true ∧
      (s.chanPlan []).2.1 = 0 ∧ (s.chanPlan (want true 0xFF300000 s)).2.1 = 0 ∧
      (held.chanPlan (want false 0xFFB00000 s)).2.1 = 2 ∧ held.admits directPort 0x0701 (rx 0xFFB00000) = true ∧
      held.enableCause false 0 (fill false 0xFFB00000 held) = 0 ∧ free false held = some 0 ∧
      full.admits directPort 0x0701 (rx 0xFFB00000) = true ∧ full.enableCause false 0 (fill false 0xFFB00000 full) = 0 ∧
      free false full = some 0 ∧
      s.admits directPort 0x0703 [0x00000FFF] = true ∧ s.admits directPort 0x0703 [0x80000FFF] = true ∧
      bitsOf (0x80000FFF : Word) 11 0 = 4095 ∧ (busy.rxOf 4095).cmd.isSome = true ∧ busy.admits directPort 0x0703 [0xFFF] = true ∧
      (s.rxOf 4095).cmd.isSome = false ∧ (s.rxOf 4095).clr.isSome = false ∧ flEn (s.flowLast true 4095) = false ∧
      flEn (s.flowReg true 4095) = false ∧ en.admits directPort 0x0703 [0xFFF] = true ∧ flEn (en.flowLast false 4095) = true := by
  decide +kernel

theorem witness_FlowTables_pool (l : List Word) (h : l ≠ []) :
    ({ chansFull with regs := net3.regs } : State).chanPlan l = ([], 5, none) := by
  have hc : ({ chansFull with regs := net3.regs } : State).freeChans l.length = [] := by
    have h31 : bitOf (2147483648#32) 31 = true := by decide
    have hl : (List.range 1024).filter (fun c => !({ chansFull with regs := net3.regs } : State).chanHeld c) = [] := by
      rw [List.filter_eq_nil_iff]
      intro k hk
      simp [State.chanHeld, State.lastWritten, State.waiting, chansFull, find_map chOff _ _ k hk, h31]
    simp [State.freeChans, hl]
  have : 0 < l.length := List.length_pos_iff.mpr h
  simp [State.chanPlan, hc, this]

/-- The lowest free receive flow gets the entry, with the offsets of NET_DEF (R390). -/
theorem test_flow_set : ok (.flowRxSet 127 7 [0xC0300000, 0xE0000001, 0x138C0000, 0, 0]) net3 (fun t =>
    Tbl.find t.stgB (flowOff false 0 1) == some 0xE0000001 && bitsOf (t.lastWritten (flowOff false 0 0)) 31 29 == 7 &&
    bitsOf (t.lastWritten (flowOff false 0 0)) 26 24 == 3) = true := by decide +kernel

/-- The link of MAC 3 is up. -/
def link3 : State := [0xA0, 0xA1, 0xA3, 0xA9].foldl heard (net3.setReg NET_STAT.adr 8)

/-- Flow 4095 receives one channel of 24 bits, one sample in each packet. -/
def hears3 (x : RxSt) : State :=
  (flowIs false [(0, 0xE3000100), (1, 0xE0000001), (3, 0x138C0000), (5, 0x00010000), (6, 16)] link3).setRx 4095 x

/-- A packet for flow 4095. -/
def pkt3 (payload : List Byte) : UdpPkt :=
  { daddr := 0xE0000001, saddr := 5, dport := 0x138C, vid := none, sumOk := true, version := 2, padded := false, ts := 0, seq := 7,
    ssrc := 9, exts := [], payload }

theorem witness_NetworkFrames_received :
    let s := link3
    let room (s : State) (off : Nat) : Prop := (s.reg off).toNat + 1 < 0xFFFFFFFF
    let queue (s : State) (q : Nat) : List (NetFrame × Nat) := Tbl.get (fun _ => []) s.net.cq (24 + q)
    let full : State := { s with net := { s.net with cq := [(27, List.replicate 8 (NetFrame.igmp, 60))] } }
    let r := hears3 { RxSt.reset with seq := some 3 }
    let flows (s : State) (p : UdpPkt) := (keysOf s.net.rx).filter (fun g => s.flowMatches 3 g p)
    let right (s : State) (p : UdpPkt) : Prop := p.version = 2 ∧ (rtpBody p).length = flPayload (s.flowReg false 4095)
    net3.macUp 3 = false ∧ s.macUp 3 = true ∧ room s (NET_RXFCS.adr 3) ∧ room s (NET_RXDROP.adr 3) ∧
      ((60 : Nat) ≤ 1536 ∧ ((queue s 3).drop 0).length < 8) ∧ 8 ≤ ((queue full 3).drop 0).length ∧ ((queue full 3).drop 1).length < 8 ∧
      room full (NET_CQDROP.adr 3) ∧ (1536 : Nat) < 1537 ∧ flows r (pkt3 [1]) = [4095] ∧ ¬ right r (pkt3 [1]) ∧
      flows r (pkt3 [1, 2, 3]) = [4095] ∧ right r (pkt3 [1, 2, 3]) ∧ (∀ g ∈ flows r (pkt3 [1, 2, 3]), g < 4096 ∧ r.memberOf 2 g = none) ∧
      (r.rxOf 4095).seq = some 3 ∧ (pkt3 []).seq.toNat ≠ (3 + 1) % 65536 ∧ room r (NET_RXSEQ_CNT.adr 4095) ∧
      (pkt3 []).sumOk = true ∧ ({ pkt3 [] with sumOk := false } : UdpPkt).sumOk = false ∧
      flows s { pkt3 [] with dport := 319 } = [] := by decide +kernel

theorem witness_NetworkFrames_links :
    let s := link3
    let up (x : RxSt) := (hears3 x).setFld (NET_RXS.STATE 4095) 2
    let due (s : State) := (s.rxOf 4095).used * rateHz (flRate (s.flowReg false 4095)) + 2 * flSpp (s.flowReg false 4095) * s.fs +
      s.nb * rateHz (flRate (s.flowReg false 4095))
    let late : State := { (up { RxSt.reset with used := 0 }) with sidx := 18 }
    let un : State := { (s.setTx 4095 { TxSt.reset with on := true, unres := some 0 }) with sidx := 288000 }
    let sap (at_ : Option Nat) : State :=
      let t := s.setTx 4095 { TxSt.reset with on := true, heard := [0xE0400100] }
      { t with sidx := 2880000, net := { t.net with sapAt := at_ } }
    let cap : State := { s with tim := { s.tim with irq := one 3 (some (5, s.time, 1)), txq := one 3 [(6, s.time, 1), (7, s.time, 1)] } }
    let ptp := s.setFld TIM_XPTP.MAC 3
    (s.reg (NET_TXFRM.adr 3)).toNat + 1 < 0xFFFFFFFF ∧ (3 : Nat) ≠ s.ptpMac ∧ 3 = ptp.ptpMac ∧
      (Tbl.get (fun _ => []) ptp.tim.txq 3).length < 16 ∧
      ({ s with net := { s.net with ctx := one 3 [CtlFrame.arpRequest 5] } } : State).net.ctx = [(3, [CtlFrame.arpRequest 5])] ∧
      late.fld (NET_RXS.STATE 4095) = 2 ∧ due late ≤ late.sidx * rateHz (flRate (late.flowReg false 4095)) ∧ late.hears 0xA3 1 ∧
      (up RxSt.reset).sidx * rateHz 3 < due (up RxSt.reset) ∧ bitOf (s.reg NET_STAT.adr) 3 = true ∧ s.hears 0xA1 1 ∧
      bitOf (net3.reg NET_STAT.adr) 3 = false ∧ net3.flag (NET_MXCFG.EN 3) = true ∧ (heard net3 0xA0).hears 0xA0 1 ∧
      (un.txOf 4095).on = true ∧ (un.txOf 4095).unres = some 0 ∧ un.net.noArp.contains 4095 = false ∧ un.hears 0xA9 1 ∧
      0 + 3 * un.fs ≤ un.sidx ∧ ({ un with sidx := 287999 } : State).sidx < 0 + 3 * un.fs ∧
      (sap (some 0)).net.tx.map (fun p => (p.1, p.2.on, bitOf (flW p.2.heard 0) 22, flMac p.2.heard)) = [(4095, true, true, 3)] ∧
      (sap none).net.sapAt = none ∧ 0 + 30 * (sap (some 0)).fs ≤ (sap (some 0)).sidx ∧
      (sap (some 1)).sidx < 1 + 30 * (sap (some 1)).fs ∧ s.admits directPort 0x0704 [0x1000, 1, 9] = true ∧
      Tbl.find cap.tim.irq 3 = some (some (5, s.time, 1)) ∧
      Tbl.find cap.tim.txq 3 = some ((6, s.time, 1) :: [(7, s.time, 1)]) ∧ Tbl.find s.tim.txq 3 = none := by
  unfold State.hears
  decide +kernel

/-- An echo request is answered (R304). -/
theorem test_echo : ok (.netPacketRx 3 (.echo 9 1 2 [7]) 60 0 0 0) link3
    (fun t => Tbl.get (fun _ => []) t.net.ctx 3 == [.echoReply 9 1 2 [7]]) = true := by decide +kernel

/-- Sample 0 of a packet, the most significant byte first (R43). -/
theorem test_payload : payloadWord [0xE3000100] [0x80, 0x00, 0x01] 0 0 = -2147483392 := by decide +kernel

/-- A locked device whose counter has run for 10 s; candidate 10 is enabled. -/
def refIs (dpll : Nat) (f : State → State) : State :=
  let s := ((inMode 1).setFld REF_STAT.STATE dpll).setFld (REF_XCAND.EN 10) 1
  let s := [0xC2, 0xC4, 0xC7, 0xC8, 0xC9].foldl heard s
  f { s with glb := { s.glb with up := 960000 } }

theorem witness_References_writes :
    let o : Owner := ⟨0x8000FC, 0, false⟩
    let s := refIs dpllLocked id
    let u (v : Word) := candWord1 10 v
    s.glb.testEn = false ∧ s.inReset o = false ∧ s.xmode o = false ∧ s.hears 0xC8 1 ∧ bitsOf (0 : Word) 12 0 = 0 ∧
      5000 < bitsOf (5001 : Word) 12 0 ∧ (bitsOf (5000 : Word) 12 0 ≠ 0 ∧ ¬ 5000 < bitsOf (5000 : Word) 12 0) ∧
      bitsOf (u 0) 25 16 = 0 ∧ 600 < bitsOf (u 0x02590000) 25 16 ∧ s.nrateBad (bitsOf (candWord1 1 0x02580006) 2 0) = true ∧
      (bitsOf (u 0x02580003) 25 16 = 600 ∧ s.nrateBad (bitsOf (u 0x02580003) 2 0) = false) ∧ 11 ≤ bitsOf (11 : Word) 3 0 ∧
      bitsOf (0x30A : Word) 9 8 = 3 ∧ s.nrateBad (bitsOf (0x6000A : Word) 18 16) = true ∧
      (bitsOf (0x3000A : Word) 3 0 = 10 ∧ bitsOf (0x3000A : Word) 9 8 ≠ 3 ∧ s.nrateBad (bitsOf (0x3000A : Word) 18 16) = false) := by
  unfold State.hears
  decide +kernel

theorem witness_References_windows :
    let s := refIs dpllLocked id
    let tol := s.fld (REF_XCAND.TOL 10) * 100000
    let q (x : CandSt) (qual : Bool) : State := (refIs dpllLocked fun s => s.setFld REF_CSTAT.QUALIFIED (if qual then 1024 else 0)).setCand 10 x
    let lost : State := { s with sup := { s.sup with clkAt := some 0 } }
    let room (s : State) (n : Nat) : Prop := (s.reg n).toNat + 1 < 0xFFFFFFFF
    lost.sup.clkAt.isSome = true ∧ s.sup.clkAt = none ∧ s.flag (REF_XCAND.EN 10) = true ∧ (s.setFld (TDM_STAT.STATE 0) tdmRun).windowWhole 10 = true ∧ s.windowWhole 10 = false ∧
      (q CandSt.reset false).qualified 10 = false ∧ (0 : BitVec 40).toInt.natAbs ≤ tol ∧
      (if (q { CandSt.reset with good := 1 } false |>.candOf 10).ever then s.fld (REF_XCAND.WTR 10) else 2) ≤
        (q { CandSt.reset with good := 1 } false |>.candOf 10).good + 1 ∧
      (q { CandSt.reset with bad := 2 } true).qualified 10 = true ∧ tol < (BitVec.ofNat 40 600000000).toInt.natAbs ∧
      2 ≤ ((q { CandSt.reset with bad := 2 } true).candOf 10).bad ∧ (refIs dpllLocked id).flag (REF_XCAND.EN 9) = false ∧
      s.dpll = dpllLocked ∧ s.flag REF_STAT.SWITCHING = false ∧ (q CandSt.reset true).signalLost 10 = true ∧
      room s (REF_DISQ_CNT.adr 10) ∧ s.hears 0xC4 1 ∧ s.signalLost 0 = false ∧
      ((q CandSt.reset true).setFld REF_STAT.CUR 10).refCur = 10 ∧ 10 ≠ s.refCur := by
  unfold State.hears
  decide +kernel

theorem witness_References_states :
    let s := refIs dpllLocked id
    let w (up : Nat) : State :=
      let t := refIs dpllLocked fun s => (((s.setFld REF_STAT.SWITCHING 1).setFld REF_STAT.NEXT 10).setFld REF_XSEL.POLICY 2).setFld REF_XSEL.SRC 10
      let t := t.setFld REF_CSTAT.QUALIFIED 1024
      { t with ref := { t.ref with switchAt := 950400 }, glb := { t.glb with up } }
    let settle (up : Nat) : State :=
      let t := refIs dpllLocked fun s => s.setFld REF_STAT.BW bw10
      { t with ref := { t.ref with settleAt := 0 }, glb := { t.glb with up } }
    let n := s.fld REF_XLOOP.SETTLE * s.fs
    let hold (up : Nat) : State := { (refIs dpllHoldover id) with glb := { s.glb with up } }
    let h := s.fld REF_XHOLD.HMAX * 60 * s.fs
    let pull (b : Int) : State :=
      let t := refIs dpllLocked fun s => s.setFld REF_STAT.PULLIN 1
      { t with ref := { t.ref with build := b } }
    let qual := refIs dpllLocked fun s => s.setFld REF_STAT.CUR 4
    let m : State := { s with ref := { s.ref with meas := one 10 5 } }
    (w 950400).flag REF_STAT.SWITCHING = true ∧ (w 950400).glb.up * 10 < (w 950400).ref.switchAt * 10 + s.fs ∧
      (w 960000).ref.switchAt * 10 + s.fs ≤ (w 960000).glb.up * 10 ∧ (w 960000).fld REF_XSEL.POLICY = 2 ∧
      (w 960000).fld REF_XSEL.SRC = 10 ∧ (w 960000).fld REF_STAT.NEXT = 10 ∧ (w 960000).eligible 10 = true ∧
      (w 960000).flag RAFT_CTL.EN = false ∧ s.flag REF_STAT.SWITCHING = false ∧ (refIs dpllAcquiring id).dpll = dpllAcquiring ∧
      (refIs dpllAcquiring id).flag REF_STAT.SWITCHING = false ∧ s.dpll ≠ dpllAcquiring ∧ s.dpll = dpllLocked ∧
      (settle n).dpll = dpllLocked ∧ (settle n).fld REF_STAT.BW = bw10 ∧ 0 + n ≤ (settle n).glb.up ∧ (settle n).hears 0xC2 1 ∧
      (settle (n - 1)).glb.up < 0 + n ∧ (pull 0).flag REF_STAT.PULLIN = true ∧ (pull 0).pulledIn 0 960000 = true ∧
      (pull (2 ^ 60)).pulledIn (2 ^ 60) 1 = false ∧ (hold h).dpll = dpllHoldover ∧ 0 + h ≤ (hold h).glb.up ∧ (hold h).hears 0xC7 1 ∧
      (hold (h - 1)).glb.up < 0 + h ∧ (hold h).ref.holdAt = 0 ∧ qual.refCur = 4 ∧ qual.ownQuality 4 = true ∧
      (qual.setCand 4 { CandSt.reset with qual := 1 }).sourceQuality 4 ≠ 1 ∧ qual.hears 0xC9 1 ∧
      s.ownQuality 0 = false ∧ Tbl.find m.ref.meas 10 = some 5 := by
  unfold State.hears
  decide +kernel

/-- A device in SETUP whose time counter is in state `st` with source `src`. -/
def timeIs (st src : Nat) (f : TimSt → TimSt) : State :=
  let s := (((atBlock 1).setFld TIM_STAT.STATE st).setFld TIM_XSERVO.SRC src).setFld TIM_XPPS.EN 1
  let s := [0xB3, 0xB7, 0xB8].foldl heard s
  { s with tim := f s.tim }

theorem witness_NetworkTime_steps :
    let s := timeIs timTracking 0 id
    let ask : StepPend := ⟨-5, false, some 7, 15⟩
    let p := timeIs timUnset 0 (fun x => { x with step := some ask })
    let far (n : Nat) : Prop := s.fld TIM_XSERVO.THRESH * 1000000 < n
    let last := s.setFld TIM_STAT.EPOCH 65535
    let m := timeIs timTracking 0 (fun x => { x with offset := some 9 })
    s.admits directPort 0x0801 [0, 5, 0] = true ∧ p.admits directPort 0x0801 [0, 5, 0] = true ∧ p.tim.step.isSome = true ∧
      s.tim.step = none ∧ last.epoch = 65535 ∧ last.admits directPort 0x0801 [0, 5, 0] = true ∧ last.hears 0xB7 1 ∧
      s.epoch ≠ 65535 ∧ bitOf (0x80000000 : Word) 31 = true ∧ s.tim.offset = none ∧ s.admits directPort 0x0801 [0x80000000, 0, 0] = true ∧
      m.tim.offset.isSome = true ∧ m.admits directPort 0x0801 [0x80000000, 0, 0] = true ∧ p.tim.step = some ask ∧ ask.asked < p.sidx ∧
      p.sidx % p.nb = 0 ∧ p.epoch < 65535 ∧ ({ p with sidx := 17 } : State).sidx % p.nb ≠ 0 ∧ (1 : Nat) ≠ s.epoch ∧ 0 = s.epoch ∧
      s.timSrc = 0 ∧ (timeIs timTracking 2 id).timSrc = 2 ∧ (timeIs timUnset 0 id).timState = timUnset ∧
      (timeIs timUnset 0 id).tim.step = none ∧ s.timState = timTracking ∧ far 4000000000000 ∧ ¬ far 0 ∧
      (s.reg TIM_JUMP_CNT.adr).toNat + 1 < 0xFFFFFFFF ∧ (timeIs timDiverged 0 id).timState = timDiverged ∧
      (timeIs timNoMaster 0 id).timState = timNoMaster ∧ s.hears 0xB3 1 := by
  unfold State.hears
  decide +kernel

theorem witness_NetworkTime_join :
    let o : Owner := ⟨0x9000FC, 0, false⟩
    let lk (s : State) := (s.setFld REF_STAT.STATE dpllLocked).setFld REF_STAT.CUR 4
    let s := lk (timeIs timTracking 0 (fun x => { x with gm := some (1, 6) }))
    let no := timeIs timUnset 0 id
    let jn (n : Nat) (t : Time) : State :=
      { lk (timeIs timTracking 0 (fun x => { x with join := some (7, n) })) with time := t }
    let free := timeIs timTracking 2 id
    let b := timeIs timTracking 0 (fun x => { x with ppsIn := some (⟨1, 2, 3⟩, 4), secEdge := true })
    let hi (s : State) (v : Word) := (s.reg TIM_XINC_LO.adr).toNat + bitsOf v 11 0 * 2 ^ 32
    no.admits directPort 0x0802 [] = true ∧ no.joinOk = false ∧ s.admits directPort 0x0802 [] = true ∧ s.joinOk = true ∧
      s.tim.join = none ∧ (jn 15 ⟨0, 0, 0⟩).joinOk = true ∧ (jn 15 ⟨0, 0, 0⟩).tim.join = some (7, 15) ∧
      (jn 15 ⟨0, 0, 0⟩).admits directPort 0x0802 [] = true ∧ (jn 15 ⟨0, 0, 0⟩).mode = 1 ∧
      (jn 15 ⟨0, 0, 0⟩).joinIndex.isSome = true ∧ (jn 15 ⟨0, 500000, 0⟩).joinIndex = none ∧
      0 + 2 * s.fs ≤ ({ (jn 0 ⟨0, 0, 0⟩) with sidx := 192000 } : State).sidx ∧ s.sidx < 15 + 2 * s.fs ∧
      s.glb.testEn = false ∧ s.inReset o = false ∧ free.timSrc = 2 ∧ free.incOk (hi free 0x400) = true ∧
      free.incOk (hi free 0) = false ∧ free.hears 0xB8 1 ∧ b.tim.ppsIn = some (⟨1, 2, 3⟩, 4) ∧ b.mode ≠ 0 ∧
      b.flag TIM_XPPS.EN = true ∧ b.timState ≠ timUnset ∧ b.tim.secEdge = true ∧ b.tim.ppsAt = none ∧
      s.tim.secEdge = false := by
  unfold State.hears
  decide +kernel

/-- A second of time in its words (R326). -/
theorem test_time_read : ok (.timeWord0Read .ppsIn 0) (timeIs timTracking 0 (fun x => { x with ppsIn := some (⟨0x100000001, 2, 0⟩, 4) }))
    (fun t => t.reg (TIM_PPSIN.adr 0) == 1) = true := by decide +kernel

/-- An enabled chip of a pair in this mode, role and sync state, at the second block boundary. -/
def pairIs (mode role sync : Nat) (f : PairSt → PairSt) : State :=
  let s := ((atBlock mode).setFld PAIR_CTL.EN 1).setReg FUSE_NODE.adr 0
  let s := ((s.setFld FUSE_NODE.NVALID 1).setFld FUSE_NODE.SVALID 1).setFld PAIR_STAT.ROLE role
  let s := (List.range 16).foldl (fun s k => heard s (0xD0 + k)) (s.setFld PAIR_STAT.SYNC sync)
  { s with pair := f s.pair }

/-- A STATE message of this claim. -/
def stateMsg (claim low : Nat) : BitVec 54 := BitVec.ofNat 54 (2 * 2 ^ 50 + claim * 2 ^ 34 + low)

theorem witness_PairRoles_control :
    let o : Owner := ⟨0xA000FC, 0, false⟩
    let off := inMode 1
    let f := (off.setFld FUSE_NODE.NVALID 1).setFld FUSE_NODE.SVALID 1
    let s := pairIs 3 roleStandby syncUnsynced id
    let en (v : Word) := bitOf v 31
    let bad (v : Word) (s : State) : Prop := (en v != s.pairOn) = true ∧ s.mode ≠ 1 ∨ en v = true ∧ s.pairFused = false ∨
      bitOf v 29 = true ∧ ¬ (s.isStandby = true ∧ en v = true ∧ s.psync = syncUnsynced)
    s.glb.testEn = false ∧ s.inReset o = false ∧ s.xmode o = false ∧ off.glb.testEn = false ∧ off.inReset o = false ∧
      off.xmode o = false ∧ bad 0x80000001 off ∧ bad 1 s ∧ ¬ bad 0x80000001 f ∧ ¬ bad 0x80000001 s ∧ s.isStandby = true ∧
      s.pairOn = true ∧ s.pairFused = true ∧ s.psync = syncUnsynced ∧ off.pairOn = false := by decide +kernel

theorem witness_PairRoles_claims :
    let act (f : PairSt → PairSt) := pairIs 2 roleActive syncUnsynced (fun p => f { p with driving := true })
    let clm (c : ClaimSt) (f : PairSt → PairSt) := pairIs 3 roleClaiming syncSynced (fun p => f { p with claim := c })
    let sby (f : PairSt → PairSt) := pairIs 3 roleStandby syncUnsynced f
    let wait (s : State) := 5 * ((65535 - s.claimNow) / 256)
    let ready (s : State) : Prop := wait s * s.fs ≤ (s.sidx + 1 - s.pair.claimAt) * 1000000
    let late : State := { (clm .waiting id) with sidx := 96000 }
    let ok (s : State) := s.setFld PAIR_STAT.STATEOK 1
    let bad := clm .confirmed id |>.setFld PAIR_STAT.STATEOK 0
    let room (s : State) (n : Nat) : Prop := (s.reg n).toNat + 1 < 0xFFFFFFFF
    (act id).role = roleActive ∧ (act id).pair.driving = true ∧ (act id).hears 0xD4 1 ∧ room (act id) PAIR_ILKFAIL_CNT.adr ∧
      (act id).pair.faultRaised = false ∧ (clm .waiting id).role = roleClaiming ∧ (clm .waiting id).pair.claim = .waiting ∧
      (sby id).mode = 3 ∧ (sby id).role = roleStandby ∧ ((sby id).setFld PAIR_STAT.ILKPIN 1).flag PAIR_STAT.ILKPIN = true ∧
      (sby id).pair.cfgBad = false ∧ (sby (fun p => { p with cfgBad := true })).pair.cfgBad = true ∧
      ¬ ready (clm .waiting (fun p => { p with claimAt := 16 })) ∧ ready late ∧ late.pair.claim = .waiting ∧
      bad.atBoundary = true ∧ bad.role = roleClaiming ∧ bad.pair.claimAt < bad.sidx ∧ bad.pair.claim = .confirmed ∧
      bad.isStandby = true ∧ bad.flag PAIR_STAT.STATEOK = false ∧ bad.hears 0xDA 1 ∧ (ok bad).flag PAIR_STAT.STATEOK = true ∧
      room (ok bad) PAIR_TAKEOVER_CNT.adr ∧ (ok bad).psync = syncSynced ∧
      (pairIs 3 roleClaiming syncChecking id).psync ≠ syncSynced ∧ ((ok bad).setFld PAIR_XCFG.TDMDRV 0).flag PAIR_XCFG.TDMDRV = false ∧
      (act id).pair.pulseAt + (act id).fld PAIR_XCFG.TPER * (act id).fs / 10 ≤ 960000 ∧ (sby id).isStandby = true ∧
      (sby (fun p => { p with expect := some 16 })).pair.expect = some 16 ∧ (16 : Nat) ≤ (sby id).sidx ∧ (sby id).sidx < 17 ∧
      1 ≤ (sby (fun p => { p with missed := 1 })).pair.missed ∧ (sby id).pair.missed = 0 := by
  unfold State.hears
  decide +kernel

theorem witness_PairRoles_messages :
    let act (f : PairSt → PairSt) := pairIs 2 roleActive syncUnsynced (fun p => f { p with driving := true })
    let sby (f : PairSt → PairSt) := pairIs 3 roleStandby syncUnsynced f
    let hb := (sby id).setFld PAIR_STAT.HBOK 1
    let low := stateMsg 0x1234 (2 ^ 21)
    let high := stateMsg 0xFFFF 0
    let clm := pairIs 3 roleClaiming syncUnsynced (fun p => { p with claim := .waiting })
    (hb.setFld PAIR_STAT.ILKPIN 0).flag PAIR_STAT.ILKPIN = false ∧ hb.flag PAIR_STAT.HBOK = true ∧ hb.fld PAIR_PSTAT.HBCLASS ≤ 2 ∧
      hb.pair.driving = false ∧ hb.isStandby = true ∧ msgBits low 53 50 = 2 ∧ msgBits high 53 50 = 2 ∧
      (sby id).role ≠ roleClaiming ∧ clm.role = roleClaiming ∧ clm.pair.checked = false ∧ (sby id).pair.checked = false ∧
      (sby id).hears 0xDE 1 ∧ msgBits low 21 21 = 1 ∧ (sby (fun p => { p with pulseSeen := true })).pair.pulseSeen = true ∧
      msgBits low 49 34 < 0xC000 ∧ (sby (fun p => { p with checked := true })).pair.checked = true ∧
      (sby id).flag PAIR_STAT.ILKV = false ∧ (sby id).hears 0xD5 1 ∧ (act id).role = roleActive ∧ 0xC000 ≤ msgBits high 49 34 ∧
      msgBits high 21 21 = 0 ∧ (act id).claimNow < msgBits high 49 34 ∧ (act id).mode = 2 ∧ (act id).glb.safePend = none ∧
      (act (fun p => { p with checked := true })).hears 0xDB 1 ∧ msgBits (stateMsg 0xC000 0) 49 34 ≤ ((act id).setFld PAIR_STAT.CLASS 3).claimNow ∧
      (950 ≤ (950 : BitVec 16).toNat ∧ (1050 : BitVec 16).toNat ≤ 1050 ∧ 200 * (3 + 1) ≤ (750 : BitVec 16).toNat + 50 ∧
        (850 : BitVec 16).toNat ≤ 200 * (3 + 1) + 50) ∧ (949 : BitVec 16).toNat < 950 ∧ 1050 < (1051 : BitVec 16).toNat ∧
      (sby id).flag PAIR_STAT.HBOK = false ∧ (sby (fun p => { p with hbGood := 3 })).pair.hbGood = 3 ∧ (sby id).hears 0xD3 1 ∧
      (hb.hears 0xD2 1 ∧ (hb.reg PAIR_HBLOSS_CNT.adr).toNat + 1 < 0xFFFFFFFF) ∧
      ({ hb with pair := { hb.pair with hbBad := 3 } } : State).pair.hbBad = 3 := by
  unfold State.hears
  decide +kernel

theorem witness_PairSync_digests :
    let dig (phase low : Nat) : BitVec 54 := BitVec.ofNat 54 (phase * 2 ^ 50 + low)
    let own : List (Nat × Nat × List (Nat × Nat)) := [(16384, 5, [(3, 7), (4, 8)])]
    let sby (sync : Nat) (f : PairSt → PairSt) := pairIs 3 roleStandby sync f
    let s := sby syncSynced (fun p => { p with own, differ := [16384] })
    let missing : State := { (sby syncSynced (fun p => { p with own := [(0, 5, [])] })) with sidx := 144 }
    let room (s : State) (n : Nat) : Prop := (s.reg n).toNat + 1 < 0xFFFFFFFF
    (inMode 1).pairOn = false ∧ s.pairOn = true ∧ msgBits (dig 2 0) 53 50 ≠ 1 ∧ msgBits (dig 1 0) 53 50 = 1 ∧
      s.ownDigest (msgBits (dig 1 0) 49 36) = some (16384, 5, [(3, 7), (4, 8)]) ∧ 16384 ∉ s.pair.got ∧
      (5 = msgBits (dig 1 (2 ^ 32 + 5)) 31 0 ∧ [(3, 7), (4, 8)].length = msgBits (dig 1 (2 ^ 32 + 5)) 35 32 + 1) ∧
      5 ≠ msgBits (dig 1 6) 31 0 ∧ room s PAIR_MISMATCH_CNT.adr ∧ s.hears 0xD6 1 ∧ msgBits (dig 3 0) 53 50 = 3 ∧
      16384 ∈ s.pair.differ ∧ (msgBits (dig 3 (3 * 2 ^ 32 + 7)) 35 32, msgBits (dig 3 (3 * 2 ^ 32 + 7)) 31 0) ∈ [(3, 7), (4, 8)] ∧
      [(3, 7), (4, 8)].Pairwise (fun p q => p.1 ≠ q.1) ∧ 7 ≠ msgBits (dig 3 (3 * 2 ^ 32 + 9)) 31 0 ∧
      missing.atBoundary = true ∧ 9 ≤ missing.sidx / missing.nb ∧ missing.sidx / missing.nb - 9 ∉ missing.pair.got ∧
      (missing.pair.own.any (fun p => p.1 == missing.sidx / missing.nb - 9)) = true ∧ room missing PAIR_MISSING_CNT.adr := by
  unfold State.hears
  decide +kernel

theorem witness_PairSync_copies :
    let copy (phase gen kind : Nat) : BitVec 54 := BitVec.ofNat 54 (4 * 2 ^ 50 + phase * 2 ^ 48 + gen * 2 ^ 40 + kind * 2 ^ 38)
    let sby (sync : Nat) (f : PairSt → PairSt) := pairIs 3 roleStandby sync f
    let s := sby syncSynced id
    let act := pairIs 2 roleActive syncUnsynced (fun p => { p with serve := some (1, 0) })
    let live (s : State) : Prop := s.pair.copyAbort = false ∧ s.sidx < s.pair.copyAt + 64 * s.nb
    let done (sync : Nat) := sby sync (fun p => { p with copyDone := true })
    let late : State := { (sby syncCopy1 id) with sidx := 1024 }
    let msg := (sby 0 id).setFld PAIR_PSTAT.MSGOK 1
    let hlth (i v : Nat) : BitVec 54 := BitVec.ofNat 54 (i * 2 ^ 48 + v * 2 ^ 41)
    msgBits (copy 1 0 0) 53 50 = 4 ∧ msgBits (copy 1 0 0) 39 38 = 0 ∧ act.role = roleActive ∧ msgBits (copy 1 0 2) 39 38 = 2 ∧
      act.pair.serve = some (msgBits (copy 1 0 2) 49 48, msgBits (copy 1 0 2) 47 40) ∧ (sby syncCopy1 id).role ≠ roleActive ∧
      msgBits (copy 1 1 1) 47 40 ≠ (sby syncCopy1 id).pairGen ∧ msgBits (copy 1 0 1) 47 40 = (sby syncCopy1 id).pairGen ∧
      msgBits (copy 1 0 1) 49 48 = (sby syncCopy1 id).psync ∧ msgBits (copy 1 0 1) 39 38 = 1 ∧ msg.flag PAIR_PSTAT.MSGOK = true ∧
      ({ msg with sidx := 1024 } : State).pair.stateAt + 64 * msg.nb ≤ 1024 ∧ msg.hears 0xDD 1 ∧
      msg.sidx < msg.pair.stateAt + 64 * msg.nb ∧ act.atBoundary = true ∧ act.pair.serve = some (1, 0) ∧
      (done syncCopy1).atBoundary = true ∧ (done syncCopy1).isStandby = true ∧ (done syncCopy1).psync = syncCopy1 ∧
      live (done syncCopy1) ∧ (done syncCopy1).pair.copyDone = true ∧ copyReg 0x393FFC = true ∧ (done 2).psync = 2 ∧
      (done syncCopy3).psync = syncCopy3 ∧ (done syncCopy3).hears 0xDC 1 ∧ (sby syncCopy1 id).pair.copyDone = false ∧
      ((sby syncCopy3 id).setFld PAIR_CTL.AUTORESYNC 0).flag PAIR_CTL.AUTORESYNC = false ∧ ¬ live late ∧ late.atBoundary = true ∧
      (∀ r < 2, (late.ring r).tq.length < 16) ∧ (sby syncChecking id).psync = syncChecking ∧
      ({ (sby syncChecking id) with sidx := 65536 } : State).pair.checkAt + 4096 * s.nb ≤ 65536 ∧ s.hears 0xD8 1 ∧
      (sby syncChecking id).sidx < (sby syncChecking id).pair.checkAt + 4096 * s.nb ∧ 28 ≤ msgBits (hlth 28 0) 53 48 ∧
      msgBits (hlth 27 100) 53 48 < 28 ∧ msgBits (hlth 27 0) 47 41 < (s.setFld PAIR_XCFG.HLOW 1).fld PAIR_XCFG.HLOW ∧ 27 ∉ s.pair.plow ∧
      s.hears 0xDF 1 ∧ s.fld PAIR_XCFG.HLOW ≤ msgBits (hlth 27 100) 47 41 := by
  unfold State.hears
  decide +kernel

/-- A hot takeover of a standby whose copy is complete (R348). -/
theorem test_takeover : ok .pairActive ((pairIs 3 roleClaiming syncSynced (fun p => { p with claim := .confirmed })).setFld PAIR_STAT.STATEOK 1)
    (fun t => t.mode == 2 && t.role == roleActive && t.actOut) = true := by decide +kernel

/-- Ring `r` in state 1 with this third word. -/
def ringIs (r : Nat) (w : Word) : State :=
  let s := (inMode 1).setReg (HOST_RING.adr r + 8) w
  [0x19, 0x1C].foldl heard (s.setFld (HOST_RING.STATE r) 1)

theorem witness_HostInterface_port :
    let o : Owner := ⟨0x1000FC, 0, false⟩
    let s := ringIs 127 0
    let port (s : State) (v : Word) : State := s.onHost (fun x => { x with port := Tbl.put (fun _ => 0) x.port 0 v })
    let on (w : Word) := ringIs 127 w
    let cpl (r : Nat) := (ringIs r 0).setReg (HOST_RING.adr 126 + 8) 0xA4000000
    let named : State := { (on 0xA4000000) with host := { (on 0xA4000000).host with cmds := [⟨5, 127, 9, 0x0101, 0, 0, false, false, 0, 0⟩] } }
    let v (w : Word) : Prop := 4 ≤ bitsOf w 28 24 ∧ bitsOf w 28 24 ≤ 16
    s.glb.testEn = false ∧ 14 < bitsOf (0xF00 : Word) 11 8 ∧ (port s 0x01010100).portWord 0 = 0x01010100 ∧
      bitsOf ((port s 0x01010100).portWord 0) 11 8 + 1 ≠ 3 ∧ s.inReset o = false ∧ s.xmode o = false ∧ s.flag (HOST_RING.EN 127) = false ∧
      (on 0x84000000).flag (HOST_RING.EN 127) = true ∧ setBits (0xFFFFFFFF : Word) 11 0 0 ≠ (on 0x84000000).reg (HOST_RING.adr 127) ∧
      s.hears 0x19 1 ∧ bitOf (0x83000000 : Word) 31 = true ∧ bitsOf (0x83000000 : Word) 28 24 < 4 ∧ 16 < bitsOf (0x91000000 : Word) 28 24 ∧
      v 0xA4000000 ∧ v 0xD0000000 ∧ bitsOf (0xA4000000 : Word) 30 29 = 1 ∧ bitsOf (0xD0000000 : Word) 30 29 = 2 ∧ s.host.held = [] ∧
      (v 0x84003F00 ∧ bitsOf (0x84003F00 : Word) 30 29 = 0 ∧ bitsOf (0x84003F00 : Word) 13 7 = 126) ∧ (cpl 0).host.held = [] ∧
      (cpl 0).flag (HOST_RING.EN 126) = true ∧ (cpl 0).fld (HOST_RING.ROLE 126) = 1 ∧ (cpl 0).flag (HOST_RING.EN 0) = false ∧
      (ringIs 0 0).flag (HOST_RING.EN 126) = false ∧
      bitsOf (0x85000000 : Word) 30 24 ≠ bitsOf ((on 0x84000000).reg (HOST_RING.adr 127 + 8)) 30 24 ∧
      bitsOf (0x84000080 : Word) 13 7 ≠ bitsOf ((on 0x84000000).reg (HOST_RING.adr 127 + 8)) 13 7 ∧
      bitsOf (0x04000000 : Word) 30 24 = bitsOf ((on 0x84000000).reg (HOST_RING.adr 127 + 8)) 30 24 ∧
      bitsOf (0x04000000 : Word) 13 7 = bitsOf ((on 0x84000000).reg (HOST_RING.adr 127 + 8)) 13 7 ∧ bitOf (0x04000000 : Word) 31 = false ∧
      (on 0x84000000).fld (HOST_RING.ROLE 127) ≠ 1 ∧ (on 0xA4000000).fld (HOST_RING.ROLE 127) = 1 ∧
      named.ringNamed 127 = true := by
  unfold State.hears
  decide +kernel

theorem witness_HostInterface_rings :
    let on (w : Word) := ringIs 126 w
    let space (s : State) := if s.fld (HOST_RING.ROLE 126) = 0 ∨ s.fld (HOST_RING.ROLE 126) = 3 then s.ringSize 126 - s.ringWaiting 126
      else s.ringUsed 126
    let move (s : State) (idx : Word) := (idx.toNat + 2 ^ 32 - s.fld (HOST_RING.HIDX 126)) % 2 ^ 32
    let used := (on 0xC4800000).setFld (HOST_RING.DIDX 126) 2
    let cpl : Cpl := { done := true, acc := true, epoch := 0, opcode := 0x0101, status := 0, handle := 9, tag := 0, sidx := 5, d0 := 0, d1 := 0 }
    let full : State := { (on 0) with host := { (on 0).host with dcpl := [cpl], devq := [((on 0).mkEvent 1 0 0 0, 0)] } }
    let down : State := { (on 0) with host := { (on 0).host with linkUp := false } }
    let bulk := (((on 0xE4003F80).setReg (HOST_RING.adr 127 + 8) 0xA4000000).setFld (HOST_RING.STATE 127) 1).setFld (HOST_RING.HIDX 126) 1
    let ent (len : Word) : List Word := [0x80000000, 5, 0x1000, 0, 0x2000, 0, len, 0, 0, 0, 0, 0, 0, 0, 0, 0]
    let moving : State := { (on 0) with host := { (on 0).host with bulks := [⟨9, false, 0x1000, 0x1FFFFFC, 4⟩] } }
    (on 0x84000000).flag (HOST_RING.EN 126) = true ∧ (on 0x84000000).fld (HOST_RING.STATE 126) = 1 ∧
      space (on 0x84000000) < move (on 0x84000000) 17 ∧ move (on 0x84000000) 16 ≤ space (on 0x84000000) ∧
      (on 0x84000000).fld (HOST_RING.ROLE 126) = 0 ∧ (on 0xC4800000).fld (HOST_RING.ROLE 126) = 2 ∧ move used 2 ≤ space used ∧
      used.host.held = [] ∧ used.flag (HOST_RING.IEN 126) = true ∧ used.fld (HOST_RING.DIDX 126) ≠ (1 : Word).toNat ∧ (on 0).host.dcpl = [] ∧
      full.host.dcpl = cpl :: [] ∧ full.host.devq = ((on 0).mkEvent 1 0 0 0, 0) :: [] ∧ down.host.linkUp = false ∧
      ({ down with host := { down.host with linkUp := true } } : State).host.linkUp = true ∧ down.hears 0x1C 1 ∧
      (on 0).bulkReady 126 = false ∧ bulk.bulkReady 126 = true ∧ bulkBad (ent 3) = true ∧ bulkBad (ent 8) = false ∧
      moving.host.bulks = [⟨9, false, 0x1000, 0x1FFFFFC, 4⟩] ∧ moving.farFails mHostDma 0x1FFFFFC 4 = none := by
  unfold State.hears
  decide +kernel

/-- A read of the direct completion FIFO latches words 1-7 of its head (R371). -/
theorem test_pop : ok .hostDevqRead { (ringIs 126 0) with host := { (ringIs 126 0).host with devq := [((ringIs 126 0).mkEvent 1 0 7 9, 0)] } }
    (fun t => t.host.devq.isEmpty && t.host.devqLatch.length == 7 && t.host.devqLatch.contains 7) = true := by decide +kernel

/-- These transactions are at the matrix. -/
def matrixIs (txs : List MtxTx) (locks : List MtxLock) : State :=
  let s := [0xE0, 0xE1, 0xE3, 0xE6, 0xE7, 0xE8, 0xE9].foldl heard (inMode 2)
  { s with far := { FarSt.reset with txs, locks } }

/-- A write of four bytes by this master, of which one strobe is off. -/
def mtxWr (master id far : Nat) (locked granted : Bool) : MtxTx :=
  { master, id, write := true, far, len := 4, data := [some 1, none, some 3, some 4], locked, bar2 := false, granted, met := false }

theorem witness_MatrixYardSdram_transactions :
    let s := matrixIs [] []
    let room (s : State) (n : Nat) : Prop := (s.reg n).toNat + 1 < 0xFFFFFFFF
    let yard (x : Nat) (locked : Bool) := mtxWr x 7 0x1FFFFFC locked false
    let l : MtxLock := ⟨7, mCE, 1⟩
    let held := matrixIs [] [l]
    let busy := matrixIs [mtxWr 3 0 0x1000 false true] []
    let rd : MtxTx := { mtxWr 22 7 0x2000000 false true with write := false, data := [], len := 8 }
    let d := matrixIs [rd] []
    let brk := matrixIs [mtxWr mCE 7 0x1FFFFFC true true] [⟨(matrixIs [] []).txTarget (yard mCE true), mCE, 1⟩]
    let iso := (matrixIs [mtxWr 22 7 0x1000 false false, mtxWr 3 0 0x1000 false true] [l]).isolate 22
    s.txOk (yard 22 false) = true ∧ s.txOk { yard 22 false with len := 0 } = false ∧ s.lockable (yard 5 true) = false ∧
      s.txOk (yard 5 true) = true ∧ s.lockable (yard mCE true) = true ∧ s.far.txs = [] ∧ s.lockOf 7 = none ∧
      held.lockOf 7 = some l ∧ l.master ≠ 22 ∧ held.txTarget (yard 22 false) = 7 ∧ busy.mtxBusy (busy.txTarget (mtxWr 22 7 0x1000 false false)) = true ∧
      busy.txOk (mtxWr 22 7 0x1000 false false) = true ∧ (matrixIs [mtxWr 22 7 0x1000 false false] []).txWaits (mtxWr 22 7 0x1000 false false) = true ∧
      (matrixIs [mtxWr 22 7 0x1FFFFFC false true] []).txWaits (mtxWr 22 7 0x1FFFFFC false true) = false ∧
      s.farFails 22 0x1FFFFFC 4 = none ∧ (s.reg (YARD_CONF_CNT.adr 22)).toNat + 5 < 0xFFFFFFFF ∧ d.txWaits rd = false ∧
      d.farTarget 22 0x2000000 = tgtDefault ∧ room d MTX_DECERR_CNT.adr ∧ d.hears 0xE0 1 ∧ (brk.lockOf 7).isSome = true ∧
      room brk MTX_LOCKBRK_CNT.adr ∧ brk.hears 0xE1 1 ∧ brk.txTarget (mtxWr mCE 7 0x1FFFFFC true true) = 7 ∧ s.glb.testEn = false ∧
      s.inReset ⟨0xB000FC, 0, false⟩ = false ∧ s.isolated 22 = false ∧ iso.isolated 22 = true ∧ iso.hears 0xE3 1 := by
  unfold State.hears
  decide +kernel

theorem witness_MatrixYardSdram_yard :
    let s := matrixIs [] []
    let room (s : State) (n : Nat) : Prop := (s.reg n).toNat + 1 < 0xFFFFFFFF
    let off (s : State) : Prop := s.mode = 0 ∨ s.flag YARD_XCRUISE.EN = false ∨ s.isolated mCruise = true
    let cr (n : Nat) : State := { (s.setFld YARD_XCRUISE.EN 1) with far := { FarSt.reset with crAbandon := n } }
    let kept := s.setReg (YARD_XPWR.adr 1) 0x80000000
    s.glb.testEn = false ∧ s.inReset ⟨0xC000FC, 0, false⟩ = false ∧ (0 : Nat) ≠ 1 ∧ bitsOf (0xC0000000 : Word) 31 30 = 3 ∧
      bitsOf (0x80000000 : Word) 31 30 = 2 ∧ s.bankPwr 31 ≠ 2 ∧ (kept.bankPwr 31 = 2 ∧ bitsOf (0x40000000 : Word) 31 30 = 1) ∧
      (bitsOf (0 : Word) 31 30 = 0 ∧ kept.bankPwr 31 ≠ 0) ∧ off (s.setFld YARD_XCRUISE.EN 0) ∧ ¬ off (cr 0) ∧ (cr 0).bankPwr ((cr 0).fld YARD_CRPOS.REGION / 2048) = 0 ∧
      (cr 0).far.crAbandon < 3 ∧ 3 ≤ (cr 3).far.crAbandon ∧ room (cr 0) YARD_CRRETRY_CNT.adr ∧ room (cr 0) YARD_CRSKIP_CNT.adr ∧
      room (cr 0) YARD_UNC_CNT.adr ∧ room (cr 0) YARD_CRFAIL_CNT.adr ∧ (cr 0).hears 0xE6 1 ∧ (cr 0).hears 0xE7 1 := by
  unfold State.hears
  decide +kernel

theorem witness_MatrixYardSdram_sdram :
    let s := matrixIs [] []
    let sdr (a b : Nat) (tr : Option (Nat × Nat × Nat × Nat)) : State :=
      { ((s.setFld SDR_STAT.ST0 a).setFld SDR_STAT.ST1 b) with far := { FarSt.reset with train := tr } }
    let mode := inMode 1
    mode.admits directPort 0x0901 [0] = true ∧ bitsOf (0 : Word) 1 0 = 0 ∧ ((sdr sdrReady sdrAbsent none).setFld GLB_MODE.CUR 1).admits directPort 0x0901 [3] = true ∧
      (sdr sdrReady sdrAbsent none).sdrState 1 = sdrAbsent ∧ (sdr sdrReady sdrReady none).sdrState 0 ≠ sdrAbsent ∧
      (sdr sdrReady sdrReady none).sdrState 1 ≠ sdrAbsent ∧ ((sdr sdrReady sdrReady none).setFld GLB_MODE.CUR 1).admits directPort 0x0901 [3] = true ∧
      (sdr sdrReady sdrReady (some (9, 3, 0, 0))).far.train.isSome = true ∧ (sdr sdrReady sdrReady none).far.train = none ∧
      (sdr sdrTraining sdrTraining (some (9, 2, 0, 0))).far.train = some (9, 2 ^ 1, 0, 0) ∧ 1 = 2 ^ (1 - 1) ∧
      (sdr sdrReady sdrTraining (some (9, 3, 1, 1))).far.train = some (9, 3, 1, 1) ∧ s.hears 0xE8 1 ∧ s.hears 0xE9 1 ∧
      (sdr sdrReady sdrAbsent none).sdrState 1 ≠ sdrReady ∧ (sdr sdrReady sdrAbsent none).sdrState 0 = sdrReady ∧ s.mode = 2 ∧
      s.glb.safePend = none := by
  unfold State.hears
  decide +kernel

/-- Strobed bytes of a write arrive, the byte whose strobe is off stays (R395). -/
theorem test_strobes : ok (.matrixResponse 22 7 [] [] ⟨none, 0⟩) (matrixIs [mtxWr 22 7 0x1FFFFFC false true] [])
    (fun t => Memory.read t.far.yard 0x1FFFFFC == 1 && Memory.read t.far.yard 0x1FFFFFD == 0 && t.far.txs.isEmpty) = true := by
  decide +kernel

/-- DAC channel 7 enabled in LIVE with its supply valid, at a block boundary. -/
def dacIs (f : State → State) (g : DacSt → DacSt) : State :=
  let s := (atBlock 2).setReg (DAC_XCH.adr 7) 0xE8000000
  let s := f ([0xF0, 0xF1, 0xF2, 0xF3, 0xF4].foldl heard s)
  { s with dac := g { s.dac with vdda := true } }

theorem witness_Dacs :
    let o : Owner := ⟨0xE000FC, 0, false⟩
    let s := dacIs id id
    let room (n : Nat) : Prop := (s.reg n).toNat + 1 < 0xFFFFFFFF
    let w := waits [(DAC_XCH.adr 7, 0x88000000)] s
    let off := waits [(DAC_XCH.adr 7, 0xE0000000)] (dacIs (fun s => s.setReg (DAC_XCH.adr 7) 0) id)
    let hold := dacIs id (fun x => { x with hold := [7] })
    let pin := dacIs (fun s => s.setFld DAC_STAT.CLRPIN 1) (fun x => { x with clrLow := some 3 })
    let ext := dacIs (fun s => s.setFld DAC_XGLB.REFEXT 1) id
    let bad := dacIs (fun s => s.setFld DAC_STAT.REFFAULT 1) id
    let short := dacIs (fun s => (s.setReg DAC_STAT.adr 0x00800000).setFld (DAC_XCH.RETRY 7) 1) id
    let isOpen := dacIs (fun s => s.setReg DAC_STAT.adr 0x00008000) id
    s.glb.testEn = false ∧ s.inReset o = false ∧ s.xmode o = false ∧ ({ s with sidx := 17 } : State).atBoundary = false ∧
      w.atBoundary = true ∧ w.due (DAC_XCH.adr 7) = some 0x88000000 ∧ w.dacRow 7 = 5 ∧
      bitOf (w.reg (DAC_XCH.adr 7)) 30 ≠ bitOf (0x88000000 : Word) 30 ∧ w.dac.vdda = true ∧ bitOf (w.reg DAC_STAT.adr) (16 + 7) = false ∧
      off.due (DAC_XCH.adr 7) = some 0xE0000000 ∧ bitOf (off.reg (DAC_XCH.adr 7)) 31 = false ∧ bitOf (0xE0000000 : Word) 31 = true ∧
      bitOf (0xE0000000 : Word) 27 = false ∧ bitOf (w.reg (DAC_XCH.adr 7)) 31 = true ∧ 7 ∉ s.dac.hold ∧ 7 ∈ hold.dac.hold ∧ hold.hears 0xF4 1 ∧
      pin.flag DAC_STAT.CLRPIN = true ∧ pin.dac.clrLow = some 3 ∧ pin.hears 0xF0 1 ∧ 3 ≤ pin.dacRow 7 ∧ s.flag DAC_STAT.CLRPIN = false ∧
      3 ≤ s.dacRow 7 ∧ ext.flag DAC_XGLB.REFEXT = true ∧ ext.flag DAC_STAT.REFFAULT = false ∧ ext.dacRow 7 ≠ 1 ∧
      s.flag DAC_XGLB.REFEXT = false ∧ bad.flag DAC_STAT.REFFAULT = true ∧ s.flag DAC_STAT.REFFAULT = false ∧ (3 : Nat) ≠ 0 ∧
      s.dacRow 7 ≠ 1 ∧ room (DAC_FAULT_CNT.adr 7) ∧ s.hears 0xF1 1 ∧ s.hears 0xF2 1 ∧ short.dacRow 7 = 1 ∧
      bitOf (short.reg DAC_STAT.adr) (16 + 7) = true ∧ short.flag (DAC_XCH.RETRY 7) = true ∧ (s.setFld (DAC_XCH.RETRY 7) 0).flag (DAC_XCH.RETRY 7) = false ∧
      (s.setFld (DAC_XCH.OPENEN 7) 1).flag (DAC_XCH.OPENEN 7) = true ∧ bitOf (s.reg DAC_STAT.adr) (8 + 7) = false ∧
      (s.setFld (DAC_XCH.OPENEN 7) 0).flag (DAC_XCH.OPENEN 7) = false ∧ bitOf (isOpen.reg DAC_STAT.adr) (8 + 7) = true ∧ isOpen.hears 0xF3 1 := by
  unfold State.hears
  decide +kernel

/-- Code 2^22 at a gain of 2 from the internal reference of 1.25 V (R416). -/
theorem test_volts : (DacOut.code 4194304 true false).microvolts 0 = some 1250000 := by decide +kernel

/-- A recorder with this queue, record and lost count. -/
def recorder (count : Nat) (r : Option TlyRec) (f : State → State) : State :=
  let s := f ((inMode 1).setFld TLY_XCFG.MIREN 0)
  let ev := s.mkEvent 0x47 9 5 6
  { s with tly := { s.tly with queue := [⟨ev, count, 7⟩], hidden := 3, recent := r.map (fun x => x.seq), nextSeq := 4097,
                               store := (r.map (fun x => one (x.seq % 4096) (some x))).getD [] } }

/-- A record of the same code. -/
def sameRec : TlyRec := { ver := 15, seq := 4096, ev := (inMode 1).mkEvent 0x47 9 5 6, flags := 64, repeatCnt := 65534, last := 6, snaps := [] }

theorem witness_TallyRecords :
    let s := recorder 1 none id
    let m := recorder 1 (some sameRec) id
    let q : TlyQ := ⟨s.mkEvent 0x47 9 5 6, 1, 7⟩
    let dry := recorder 1 none (fun s => ((s.setFld TLY_XCFG.COMPAT 1).setFld (TLY_XTRIG.RATE 0x47) 1).setFld (TLY_XTRIG.BURST 0x47) 0)
    let snap (k : Nat) := s.setFld (TLY_XSNAP.KIND 0x47 5) k
    (inMode 1).tly.queue = [] ∧ s.tly.queue = q :: [] ∧ 1 ≤ q.count ∧ s.flag TLY_XCFG.MIREN = false ∧ m.tly.queue = q :: [] ∧
      m.mergeRec q.ev = some sameRec ∧ sameRec.repeatCnt + q.count ≤ 65535 ∧ s.mergeRec q.ev = none ∧ s.hasToken 0x47 = true ∧
      q.count ≤ 65535 ∧ (s.reg TLY_SNAPERR_CNT.adr).toNat + 6 < 0xFFFFFFFF ∧ (snap 1).fld (TLY_XSNAP.KIND 0x47 5) = 1 ∧
      (0x20 : BitVec 6).getLsbD 5 = true ∧ (snap 0).fld (TLY_XSNAP.KIND 0x47 5) = 0 ∧ (snap 2).fld (TLY_XSNAP.KIND 0x47 5) = 2 ∧
      (snap 3).fld (TLY_XSNAP.KIND 0x47 5) = 3 ∧ dry.mergeRec q.ev = none ∧ dry.hasToken 0x47 = false ∧
      (dry.reg (TLY_DROP_CNT.adr 0x47)).toNat + q.count < 0xFFFFFFFF ∧ s.admits directPort 0x0902 [] = true ∧
      s.cmdOf (s.ctxOf directPort 0x0902 0 []).handle = none := by decide +kernel

/-- The merged record takes its last version and count, and the lost count (R430, R434). -/
theorem test_merge : ok (.tallyRecordWrite 0) (recorder 1 (some sameRec) id) (fun t =>
    (Tbl.get (fun _ => none) t.tly.store 0).any (fun r => r.ver == 0 && r.repeatCnt == 65535 && r.flags == 67)) = true := by
  decide +kernel

/-- A device in this mode that tells the supervisor's events. -/
def supIs (mode : Nat) (f : State → State) : State :=
  f ([0x08, 0x09, 0x0A, 0x0B, 0x0D, 0x10].foldl heard (inMode mode))

theorem witness_Supervision :
    let s := supIs 2 id
    let warned (r : Nat) := supIs 2 (fun s => s.setReg SUP_STAT.adr (BitVec.ofNat 32 (2 ^ (16 + r))))
    let braced := supIs 2 (fun s => ((s.setFld SUP_XBRACE.EN 1).setReg SUP_XBRACE.adr (0x20000000 ||| (s.setFld SUP_XBRACE.EN 1).reg SUP_XBRACE.adr)))
    let dark : State := { (warned 13) with out := { (warned 13).out with brace := ⟨false, 0, 1, 0, 0⟩ } }
    let clk : State := { s with sup := { s.sup with clkAt := some 4 } }
    let run := supIs 2 (fun s => s.setFld (TDM_STAT.STATE 31) tdmRun)
    let hot (n : Nat) : State := { s with sup := { s.sup with hot := n } }
    let room (n : Nat) : Prop := (s.reg n).toNat + 1 < 0xFFFFFFFF
    let w := (s.fld THM_XCFG.WARN : Int) * 10
    let cool := supIs 2 (fun s => s.setFld THM_STAT.WARN 1)
    s.hears 0x08 1 ∧ bitOf ((warned 13).reg SUP_STAT.adr) (16 + 13) = true ∧ bitOf (s.reg SUP_STAT.adr) (16 + 13) = false ∧
      braced.braced 13 = true ∧ bitOf (braced.reg SUP_STAT.adr) (16 + 13) = false ∧ braced.out.brace.on = true ∧ s.mode ≠ 5 ∧
      s.braced 13 = false ∧ room (SUP_DIP_CNT.adr 13) ∧ s.hears 0x09 1 ∧
      (∀ k < 14, k ≠ 13 → bitOf (dark.reg SUP_STAT.adr) (16 + k) = false) ∧ dark.out.brace.on = false ∧ resetRail 8 = true ∧
      resetRail 13 = false ∧ s.hears 0x0A 1 ∧ (resetRail 7 = false ∧ resetRail 11 = false ∧ resetRail 10 = false ∧ resetRail 6 = false) ∧
      31 / 8 = 6 - 3 ∧ run.tdmState 31 = tdmRun ∧ s.sup.onDie = false ∧ clk.sup.clkAt = some 4 ∧ s.sup.clkAt = none ∧ s.hears 0x10 1 ∧
      (-500 ≤ (BitVec.ofInt 16 (-500)).toInt ∧ (1249 : BitVec 16).toInt < 1250 ∧ (1250 : BitVec 16).toInt ≤ 1500 ∧
        ((-500 : Int) < w ∧ w ≤ 1149) ∧ (1149 : Int) < 1150) ∧ s.flag THM_STAT.WARN = false ∧ room THM_WARN_CNT.adr ∧ s.hears 0x0B 1 ∧
      1 ≤ (hot 1).sup.hot ∧ (hot 1).flag THM_STAT.TRIPPED = false ∧ (hot 1).mode = 2 ∧ (hot 1).glb.safePend = none ∧
      cool.flag THM_STAT.WARN = true ∧ toSigned 16 (cool.fld THM_STAT.MAX) < w - 50 ∧ cool.hears 0x0D 1 := by
  unfold State.hears
  decide +kernel

theorem witness_Acceptance :
    let s := heard (heard (inMode 2) 0x03) 0x04
    let w (s : State) (n v k : Nat) : Word := (s.onHost (fun x => { x with port := Tbl.put (fun _ => 0) x.port n (BitVec.ofNat 32 v) })).portWord k
    let full := s.setFld HOST_CMD_STAT.PENDING 32
    let routes (a : Word) : State := { (s.setReg 0x2000FC a) with host := { s.host with port := [(0, 0x03010200), (2, 0x00010000)] } }
    let free : State := { s with host := { s.host with port := [(0, 0x03010200), (2, 0x00010000)] } }
    let o : Owner := ⟨0x2000FC, 0, false⟩
    s.glb.testEn = false ∧ bitsOf (w s 0 0x04020000 0) 11 8 = 0 ∧ bitsOf (w free 3 7 0) 11 8 = 2 ∧ 3 = 2 + 1 ∧
      32 ≤ full.fld HOST_CMD_STAT.PENDING ∧ s.fld HOST_CMD_STAT.PENDING < 32 ∧ s.pendingOf directPort < 2 ^ 24 ∧
      s.nextSeqOf directPort < 2 ^ 25 ∧ cmdRow (bitsOf (w s 0 0x7FFF0000 0) 31 16) = none ∧ bitsOf (w s 0 0x04020001 0) 7 0 ≠ 0 ∧
      (cmdRow 0x0401).any (fun r => r.modes.contains 1 && !r.modes.contains 4) = true ∧
      (cmdRow 0x0301).any (fun r => r.nargs.contains 2 && !argsBad r [0x00010000, 7] && r.modes.contains 2 && r.level == some o) = true ∧
      (routes 1).xmode o = true ∧ s.hears 0x03 1 ∧ free.xmode o = false ∧ (routes 0x100).xmode o = false ∧ (routes 0x100).inReset o = true ∧
      s.hears 0x04 1 := by
  unfold State.hears
  decide +kernel

/-- The frames of the engine operations (R103, R108, R117): a running engine on which an operation of each shape answers. -/
theorem witness_EngineFrame :
    let s := running 0 id
    let x := s.engOf 0
    x.infl = [] ∧ x.curY = [] ∧ x.adv = [] ∧ x.xst = 0 ∧ ok (.addOp 0 false 0 15 (.reg 1)) s (fun _ => true) = true ∧
      ok (.cmp 0 false 0 (.imm 1)) s (fun _ => true) = true ∧ ok (.vadd 0 false 0 31 0 31 true 0) s (fun _ => true) = true ∧
      ok (.mac 0 false 3 7 31 0 .q31 0) s (fun _ => true) = true := by decide +kernel

theorem witness_UnitFrames : ok (.dacShort 7 3) (dacIs id id) (fun _ => true) = true ∧ ok (.hostFlr) (inMode 1) (fun _ => true) = true ∧
    ok (.cruiseStep .unc) (inMode 2) (fun _ => true) = true ∧ ok (.pairMissingDigest) (inMode 2) (fun _ => true) = true := by decide +kernel

theorem witness_StepKeepsInvariants : (State.queueWf { (inMode 1) with pending := [.mtxErr0Read, .dacShort 7 3] }) ∧
    (Memory.wf (inMode 1).far.yard && Memory.wf (inMode 1).far.sdr) = true ∧
    ∃ t, step { (inMode 1) with pending := [.mtxErr0Read, .dacShort 7 3] } = .next t :=
  ⟨by unfold State.queueWf; decide +kernel, by decide +kernel, ⟨_, rfl⟩⟩

/-! What WellFormed refuses -/

theorem refuses_same_member : (Instr.raftFormed [⟨0, 1, 0⟩, ⟨0, 2, 0⟩] 0).wf = false := by decide +kernel
theorem refuses_fifteen_args : (Instr.modeSet 0 0 (List.replicate 15 0)).wf = false := by decide +kernel
theorem refuses_short_entry : (Instr.bulkTransfer 5 (List.replicate 15 0)).wf = false := by decide +kernel
theorem refuses_short_command : (Instr.hostDb 5 0 [[0]] false).wf = false := by decide +kernel
theorem refuses_odd_offset : (Instr.registerWrite 0x200002 0 0).wf = false ∧ (Instr.basicReset 0x200001 0).wf = false := by decide +kernel
theorem refuses_no_bits : (Instr.tdmFrameStart 0 0 ⟨true, true⟩ []).wf = false := by decide +kernel
theorem refuses_crossing_burst :
    (Instr.matrixTransaction 22 0 false false false 0x1F8 9 []).wf = false ∧ (Instr.matrixTransaction 22 0 false false false 0x1F8 0 []).wf = false ∧
      (Instr.matrixTransaction 22 0 true false false 0x1F8 8 []).wf = false ∧ (Instr.matrixTransaction 22 0 false false false 0x1F8 8 []).wf = true := by
  decide +kernel
theorem refuses_same_engine : (Instr.blockTick [(3, 1), (3, 2)]).wf = false := by decide +kernel
theorem refuses_same_slot : (Instr.raftFrameRx false 0 0 [⟨5, 0⟩, ⟨5, 1⟩] 0 0).wf = false := by decide +kernel
theorem refuses_same_candidate : (Instr.refMonitorWindow [⟨3, 1⟩, ⟨3, 2⟩] 0 0 false).wf = false := by decide +kernel
theorem refuses_same_id : (Instr.mtxMasterIsolated 5 0 [(1, 2), (1, 3)]).wf = false := by decide +kernel
theorem refuses_seven_sensors : (Instr.thmReading (List.replicate 7 0) true).wf = false := by decide +kernel

/-! Words of the bundle encoding, bit by bit from the formats of R93, R99 and R100 -/

/-- ADD G15, G14, #-1 beside LD V31 from P5, post-modified by M3, size 2 (R99-R102, R118). -/
theorem decodes_pair : bundleCmds 0 false 0 0 0 0x01FEFFFF07EA9802 = [.addOp 0 true 15 14 (.imm 0x7FFF), .ld 0 (.vec 31 2) 5 (.postM 3)] := by decide +kernel

/-- MAC on A7 from V31 and V1 in Q4.28 under Q3, with an empty Y half (R106). -/
theorem decodes_mac : bundleCmds 0 false 0 0 0 0x20CFF0C000000000 = [.mac 0 false 3 7 31 1 .q28 0] := by decide +kernel

/-- VADD of complex lanes under Q1 beside a store of V17 at P15 - 1 (R104, R118). -/
theorem decodes_vector : bundleCmds 0 false 0 0 0 0x107DF1400A3F7FF0 = [.vadd 0 true 1 30 31 2 true 0, .st 0 (.vec 17 0) 15 (.offset 0x7FF) 0] := by decide +kernel

/-- A branch on EQ to 0x3FFF (R126). -/
theorem decodes_branch : bundleCmds 0 false 0 0 0 0x0000000040403FFF = [.branch 0 .eq 0x3FFF] := by decide +kernel

/-- MOVS SR 0x28 from G9 (R124). -/
theorem decodes_movs : bundleCmds 0 false 0 0 0 0x000000002E890000 = [.movsTo 0 0x28 9] := by decide +kernel

/-- REP L3 with an immediate count (R100, R128). -/
theorem decodes_rep : bundleCmds 0 false 0 0 0 0x41C91A0000FFFFFF = [.repImm 0 3 0xFFFFFF 0x1234] := by decide +kernel

/-- MOVI32 into G12 (R99, R117). -/
theorem decodes_movi32 : bundleCmds 0 false 0 0 0 0x8160000089ABCDEF = [.movi32 0 12 0x89ABCDEF] := by decide +kernel

/-- KGET into V9 from P4, post-modified by M6 under Q2, with MOD[2] set (R99, R112). -/
theorem decodes_kget : bundleCmds 0 false 0 0 0 0x30928D0400000000 = [.kget 0 false 2 9 4 6 true true false false] := by decide +kernel

/-- The all-zero bundle (R93). -/
theorem decodes_empty : bundleCmds 0 false 0 0 0 0x0000000000000000 = [.nop 0 false] := by decide +kernel

/-- F = 3 is reserved (R93). -/
theorem decodes_reserved : bundleCmds 0 false 0 0 0 0xC000000000000000 = [.illegalBundle 0 0xC000000000000000] := by decide +kernel

end Sys2Proof.Tests
end

section
/-! Scalar ALU (R102, R103): what the registers and flags are once the bundle of a scalar instruction has completed. -/

namespace Sys2Proof.Machine

/-! Bit fields -/

/-- A field is cut out of the number that ends with its highest bit. -/
theorem bitsOf_eq_mod_div (w : Word) (h l : Nat) (hl : l ≤ h + 1) : bitsOf w h l = w.toNat % 2 ^ (h + 1) / 2 ^ l := by
  rw [bitsOf, ← Nat.mod_mul_right_div_self, ← Nat.pow_add, Nat.add_sub_cancel' hl]

/-- Writing a field keeps the number that the bits below it make. -/
theorem toNat_setBits_mod (w : Word) (hi lo v k : Nat) (hk : k ≤ lo) (hlo : lo ≤ 32) :
    (setBits w hi lo v).toNat % 2 ^ k = w.toNat % 2 ^ k := by
  have hsplit (g : Nat) : g * 2 ^ lo = g * 2 ^ (lo - k) * 2 ^ k := by
    rw [Nat.mul_assoc, ← Nat.pow_add, Nat.sub_add_cancel hk]
  have hfld : bitsOf w hi lo * 2 ^ lo ≤ w.toNat :=
    Nat.le_trans (Nat.mul_le_mul_right _ (Nat.mod_le _ _)) (Nat.div_mul_le_self _ _)
  have hrest : (w.toNat - bitsOf w hi lo * 2 ^ lo) % 2 ^ k = w.toNat % 2 ^ k := by
    conv => rhs; rw [← Nat.sub_add_cancel hfld, hsplit, Nat.add_mul_mod_self_right, ← hsplit]
  rw [setBits, BitVec.toNat_ofNat, Nat.mod_mod_of_dvd _ (Nat.pow_dvd_pow 2 (Nat.le_trans hk hlo)), hsplit (_ % _),
    Nat.add_mul_mod_self_right, hrest]

/-- Writing a field leaves the fields below it. -/
theorem bitsOf_setBits_above (w : Word) (hi lo v h l : Nat) (hl : l ≤ h) (hlo : h < lo) (h32 : lo ≤ 32) :
    bitsOf (setBits w hi lo v) h l = bitsOf w h l := by
  rw [bitsOf_eq_mod_div _ h l (Nat.le_succ_of_le hl), bitsOf_eq_mod_div _ h l (Nat.le_succ_of_le hl),
    toNat_setBits_mod w hi lo v (h + 1) hlo h32]

theorem bitOf_eq_getLsbD (w : Word) (k : Nat) : bitOf w k = w.getLsbD k := by
  rw [BitVec.getLsbD, Nat.testBit_eq_decide_div_mod_eq]; rfl

/-! The flags of a result (R103) -/

theorem resN_eq_msb (r : Word) : resN r = r.msb := by
  rw [resN, bitOf_eq_getLsbD, BitVec.msb_eq_getLsbD_last]

theorem mkFlags_lt (n z c v : Bool) : mkFlags n z c v < 16 := by
  revert n z c v; decide

/-- Wrapping to 32 bits changes a number exactly when the number is out of the signed range. -/
theorem ne_bmod_two_pow_32 (i : Int) : (i != i.bmod (2 ^ 32)) = decide (i < -2 ^ 31 ∨ 2 ^ 31 ≤ i) := by
  have hbmod : i = i.bmod (2 ^ 32) ↔ ¬(i < -2 ^ 31 ∨ 2 ^ 31 ≤ i) := by
    rw [Int.bmod_def]; omega
  rw [bne, Bool.eq_iff_iff, decide_eq_true_iff, Bool.not_eq_true', beq_eq_false_iff_ne, ne_eq, hbmod, Decidable.not_not]

theorem addFlags_eq (a c : Word) : addFlags a c = mkFlags (a + c).msb (a + c == 0)
    (decide (2 ^ 32 ≤ a.toNat + c.toNat)) (decide (a.toInt + c.toInt < -2 ^ 31 ∨ 2 ^ 31 ≤ a.toInt + c.toInt)) := by
  rw [addFlags, resN_eq_msb, resZ, BitVec.toInt_add, ne_bmod_two_pow_32]

theorem subFlags_eq (a c : Word) : subFlags a c = mkFlags (a - c).msb (a - c == 0)
    (decide (c.toNat ≤ a.toNat)) (decide (a.toInt - c.toInt < -2 ^ 31 ∨ 2 ^ 31 ≤ a.toInt - c.toInt)) := by
  rw [subFlags, resN_eq_msb, resZ, BitVec.toInt_sub, ne_bmod_two_pow_32]

theorem logicFlags_eq (old : Nat) (r : Word) : logicFlags old r = mkFlags r.msb (r == 0) (flagC old) false := by
  rw [logicFlags, resN_eq_msb, resZ]

theorem shiftFlags_eq (old : Nat) (r a : Word) (n k : Nat) : shiftFlags old r n (bitOf a k) =
    mkFlags r.msb (r == 0) (if n = 0 then flagC old else a.getLsbD k) (flagV old) := by
  rw [shiftFlags, resN_eq_msb, resZ, bitOf_eq_getLsbD]

theorem nzFlags_eq (old : Nat) (r : Word) : nzFlags old r = mkFlags r.msb (r == 0) (flagC old) (flagV old) := by
  rw [nzFlags, resN_eq_msb, resZ]

/-- CLZ clears N, and its result of at most 32 has bit 31 clear. -/
theorem clzFlags_eq (old z : Nat) (hz : z ≤ 32) : clzFlags old (BitVec.ofNat 32 z) =
    mkFlags (BitVec.ofNat 32 z).msb (BitVec.ofNat 32 z == 0) (flagC old) (flagV old) := by
  have hmsb : (BitVec.ofNat 32 z).msb = false := by
    rw [BitVec.msb_eq_false_iff_two_mul_lt, BitVec.toNat_ofNat]; omega
  rw [clzFlags, resZ, hmsb]

/-! The results of MIN, MAX, MUL and CLZ (R102) -/

theorem minW_eq_ofInt (a c : Word) : minW a c = BitVec.ofInt 32 (min a.toInt c.toInt) := by
  unfold minW; split
  · next h => rw [Int.min_eq_left h, BitVec.ofInt_toInt]
  · next h => rw [Int.min_eq_right (by omega), BitVec.ofInt_toInt]

theorem maxW_eq_ofInt (a c : Word) : maxW a c = BitVec.ofInt 32 (max a.toInt c.toInt) := by
  unfold maxW; split
  · next h => rw [Int.max_eq_right h, BitVec.ofInt_toInt]
  · next h => rw [Int.max_eq_left (by omega), BitVec.ofInt_toInt]

theorem mul_eq_ofInt (a c : Word) : a * c = BitVec.ofInt 32 (a.toInt * c.toInt) := by
  rw [BitVec.ofInt_mul, BitVec.ofInt_toInt, BitVec.ofInt_toInt]

theorem leadingZeros_le (w : Word) : leadingZeros w ≤ 32 := by
  unfold leadingZeros; split <;> omega

/-- No bit is set among the leading zeros. -/
theorem toNat_lt_two_pow_leadingZeros (w : Word) : w.toNat < 2 ^ (32 - leadingZeros w) := by
  unfold leadingZeros; split
  · next h => simp [h]
  · next h =>
    have hw : w.toNat ≠ 0 := fun h0 => h (BitVec.eq_of_toNat_eq h0)
    have hlog : w.toNat.log2 < 32 := (Nat.log2_lt hw).mpr w.isLt
    rw [show 32 - (31 - w.toNat.log2) = w.toNat.log2 + 1 by omega]
    exact Nat.lt_log2_self

/-- The bit right below the leading zeros is set. -/
theorem two_pow_leadingZeros_le_toNat (w : Word) (hz : leadingZeros w < 32) : 2 ^ (31 - leadingZeros w) ≤ w.toNat := by
  unfold leadingZeros at hz ⊢; split at hz
  · omega
  · next h =>
    have hw : w.toNat ≠ 0 := fun h0 => h (BitVec.eq_of_toNat_eq h0)
    have hlog : w.toNat.log2 < 32 := (Nat.log2_lt hw).mpr w.isLt
    rw [if_neg h, show 31 - (31 - w.toNat.log2) = w.toNat.log2 by omega]
    exact Nat.log2_self_le hw

/-! The completed bundle -/

/-- WCOLL, which a collision sets, lies above the flags. -/
theorem ERegs.flags_land_wcoll (r : ERegs) (ce : Bool) : bitsOf (r.land ce (.sticky 21) 1).est 3 0 = bitsOf r.est 3 0 := by
  rw [ERegs.land_sticky, ERegs.with_est_est]
  exact bitsOf_setBits_above _ _ _ _ _ _ (by omega) (by omega) (by omega)

/-- The flags land last, so that they are seen whether the instruction has a destination or none. -/
theorem State.scalarOp_flags (s : State) (e : Nat) (pair : Bool) (gd : Option Nat) (ga : Nat) (b : SOp)
    (f : Word → Word → Word) (fl : Nat → Word → Word → Nat) (h : s.canX e = true) :
    ((s.scalarOp e pair gd ga b f fl).bundleOf e pair).flags =
      fl (s.engOf e).flags ((s.engOf e).gget ga) ((s.engOf e).sop b) % 16 := by
  rw [Engine.flags, State.scalarOp, State.xslot_bundleOf _ _ _ _ _ h]
  exact Engine.endBundle_last _ _ (resX .flags _ 1) _ [] (List.append_assoc _ _ _).symm rfl (fun r => bitsOf r.est 3 0) _
    (fun r => r.land_flags_self _ _) (by simp) (fun r => r.flags_land_wcoll _)

theorem State.scalarOp_gget (s : State) (e : Nat) (pair : Bool) (d ga : Nat) (b : SOp)
    (f : Word → Word → Word) (fl : Nat → Word → Word → Nat) (h : s.canX e = true) :
    ((s.scalarOp e pair (some d) ga b f fl).bundleOf e pair).gget d = f ((s.engOf e).gget ga) ((s.engOf e).sop b) := by
  rw [Engine.gget, State.scalarOp, State.xslot_bundleOf _ _ _ _ _ h]
  refine Engine.endBundle_last _ _ (resX (.g d) _ 1) _ [resX .flags _ 1] rfl rfl (fun r => Tbl.get (fun _ => 0) r.g d) _
    (fun r => (r.land_g_self _ _ _).trans (BitVec.ofNat_toNat _ _)) ?_ (fun r => by rw [ERegs.land_sticky_g])
  intro a ha r
  rw [List.mem_singleton.mp ha]
  exact congrArg (Tbl.get (fun _ => 0) · d) (r.land_flags_g _ _)

/-- A scalar instruction with a destination: its result and its four flags, from the operands at issue. -/
theorem State.scalarOp_seen (s : State) (e : Nat) (pair : Bool) (d ga : Nat) (b : SOp)
    (f : Word → Word → Word) (fl : Nat → Word → Word → Nat) (h : s.canX e = true) {r : Word} {n z c v : Bool}
    (hr : f ((s.engOf e).gget ga) ((s.engOf e).sop b) = r)
    (hfl : fl (s.engOf e).flags ((s.engOf e).gget ga) ((s.engOf e).sop b) = mkFlags n z c v) :
    ((s.scalarOp e pair (some d) ga b f fl).bundleOf e pair).gget d = r ∧
      ((s.scalarOp e pair (some d) ga b f fl).bundleOf e pair).flags = mkFlags n z c v := by
  rw [s.scalarOp_gget e pair d ga b f fl h, s.scalarOp_flags e pair _ ga b f fl h, hr, hfl, Nat.mod_eq_of_lt (mkFlags_lt _ _ _ _)]
  exact ⟨rfl, rfl⟩

end Sys2Proof.Machine

open Sys2Proof Sys2Proof.Machine

/-- Settles O3: result and flags land with the bundle, and each operation's flags are those of R103. -/
theorem scalarAluResults : Obligations.ScalarAluResults := by
  intro e pair gd ga b s h x a c n seen
  refine ⟨⟨_, rfl, ?add⟩, ⟨_, rfl, ?sub⟩, ⟨_, rfl, ?cmp⟩, ⟨_, rfl, ?and⟩, ⟨_, rfl, ?or⟩, ⟨_, rfl, ?xor⟩, ⟨_, rfl, ?shl⟩,
    ⟨_, rfl, ?shr⟩, ⟨_, rfl, ?sra⟩, ⟨_, rfl, ?min⟩, ⟨_, rfl, ?max⟩, ⟨_, rfl, ?mul⟩, ⟨_, rfl, ?clz⟩⟩
  case add => exact s.scalarOp_seen e pair gd ga b _ _ h rfl (addFlags_eq a c)
  case sub => exact s.scalarOp_seen e pair gd ga b _ _ h rfl (subFlags_eq a c)
  case cmp =>
    refine (s.scalarOp_flags e pair none ga b _ _ h).trans ?_
    rw [subFlags_eq]
    exact Nat.mod_eq_of_lt (mkFlags_lt _ _ _ _)
  case and => exact s.scalarOp_seen e pair gd ga b _ _ h rfl (logicFlags_eq x.flags (a &&& c))
  case or => exact s.scalarOp_seen e pair gd ga b _ _ h rfl (logicFlags_eq x.flags (a ||| c))
  case xor => exact s.scalarOp_seen e pair gd ga b _ _ h rfl (logicFlags_eq x.flags (a ^^^ c))
  case shl => exact s.scalarOp_seen e pair gd ga b _ _ h rfl (shiftFlags_eq x.flags (a <<< n) a n (32 - n))
  case shr => exact s.scalarOp_seen e pair gd ga b _ _ h rfl (shiftFlags_eq x.flags (a >>> n) a n (n - 1))
  case sra => exact s.scalarOp_seen e pair gd ga b _ _ h rfl (shiftFlags_eq x.flags (a.sshiftRight n) a n (n - 1))
  case min => exact s.scalarOp_seen e pair gd ga b _ _ h (minW_eq_ofInt a c) (minW_eq_ofInt a c ▸ nzFlags_eq x.flags _)
  case max => exact s.scalarOp_seen e pair gd ga b _ _ h (maxW_eq_ofInt a c) (maxW_eq_ofInt a c ▸ nzFlags_eq x.flags _)
  case mul => exact s.scalarOp_seen e pair gd ga b _ _ h (mul_eq_ofInt a c) (mul_eq_ofInt a c ▸ nzFlags_eq x.flags _)
  case clz =>
    exact ⟨leadingZeros a, leadingZeros_le a, toNat_lt_two_pow_leadingZeros a, two_pow_leadingZeros_le_toNat a,
      s.scalarOp_seen e pair gd ga (.imm 0) _ _ h rfl (clzFlags_eq x.flags _ (leadingZeros_le a))⟩

end

section
/-! What single-bit writes, plain writes and raised events leave to be read. -/

namespace Sys2Proof.Machine

/-! Bit fields -/

/-- Writing a field keeps the number that the bits above it make. -/
theorem toNat_setBits_div (w : Word) (hi lo v : Nat) (hlo : lo ≤ hi) (hhi : hi < 32) :
    (setBits w hi lo v).toNat / 2 ^ (hi + 1) = w.toNat / 2 ^ (hi + 1) := by
  have hval : v % 2 ^ (hi + 1 - lo) * 2 ^ lo + 2 ^ lo ≤ 2 ^ (hi + 1) := calc
    _ = (v % 2 ^ (hi + 1 - lo) + 1) * 2 ^ lo := (Nat.succ_mul _ _).symm
    _ ≤ 2 ^ (hi + 1 - lo) * 2 ^ lo := Nat.mul_le_mul_right _ (Nat.mod_lt _ (Nat.two_pow_pos _))
    _ = 2 ^ (hi + 1) := by rw [← Nat.pow_add]; congr 1; omega
  have hfld : bitsOf w hi lo * 2 ^ lo + w.toNat % 2 ^ (hi + 1) % 2 ^ lo = w.toNat % 2 ^ (hi + 1) := by
    rw [bitsOf_eq_mod_div w hi lo (by omega), Nat.mul_comm]; exact Nat.div_add_mod _ _
  have hlow : w.toNat % 2 ^ (hi + 1) % 2 ^ lo < 2 ^ lo := Nat.mod_lt _ (Nat.two_pow_pos _)
  have hsplit := Nat.div_add_mod w.toNat (2 ^ (hi + 1))
  have hdvd : 2 ^ 32 = 2 ^ (hi + 1) * 2 ^ (32 - (hi + 1)) := by rw [← Nat.pow_add]; congr 1; omega
  have hnum : w.toNat - bitsOf w hi lo * 2 ^ lo + v % 2 ^ (hi + 1 - lo) * 2 ^ lo =
      2 ^ (hi + 1) * (w.toNat / 2 ^ (hi + 1)) + (w.toNat % 2 ^ (hi + 1) % 2 ^ lo + v % 2 ^ (hi + 1 - lo) * 2 ^ lo) := by
    rw [← hfld] at hsplit
    generalize bitsOf w hi lo * 2 ^ lo = fld at *
    generalize 2 ^ (hi + 1) * (w.toNat / 2 ^ (hi + 1)) = above at *
    generalize w.toNat % 2 ^ (hi + 1) % 2 ^ lo = below at *
    omega
  have hrest := Nat.lt_of_lt_of_le (Nat.add_lt_add_right hlow (v % 2 ^ (hi + 1 - lo) * 2 ^ lo)) (Nat.add_comm _ _ ▸ hval)
  have habove : w.toNat / 2 ^ (hi + 1) < 2 ^ (32 - (hi + 1)) := Nat.div_lt_of_lt_mul (hdvd ▸ w.isLt)
  rw [setBits, BitVec.toNat_ofNat, hnum, hdvd, Nat.mod_mul_right_div_self, Nat.mul_add_div (Nat.two_pow_pos _),
    Nat.div_eq_of_lt hrest, Nat.add_zero, Nat.mod_eq_of_lt habove]

theorem bitOf_eq_bitsOf (w : Word) (k : Nat) : bitOf w k = (bitsOf w k k == 1) := by
  rw [bitOf, bitsOf, Nat.add_sub_cancel_left, Nat.pow_one]

theorem bitsOf_bit_ne_zero (w : Word) (k : Nat) : (bitsOf w k k != 0) = bitOf w k := by
  have hlt := bitsOf_lt w k k
  rw [Nat.add_sub_cancel_left] at hlt
  rw [bitOf_eq_bitsOf]
  rcases (by omega : bitsOf w k k = 0 ∨ bitsOf w k k = 1) with h | h <;> rw [h] <;> rfl

/-- A bit above the field that is written. -/
theorem bitOf_setBits_of_lt (w : Word) (hi lo v j : Nat) (hlo : lo ≤ hi) (hj : hi < j) (hhi : hi < 32) :
    bitOf (setBits w hi lo v) j = bitOf w j := by
  obtain ⟨n, rfl⟩ := Nat.exists_eq_add_of_lt hj
  simp only [bitOf]
  rw [show hi + n + 1 = hi + 1 + n by omega, Nat.pow_add, ← Nat.div_div_eq_div_mul, ← Nat.div_div_eq_div_mul,
    toNat_setBits_div w hi lo v hlo hhi]

/-- A bit reads as it was written; the other bits keep their values. -/
theorem bitOf_setBits_bit (w : Word) (k j v : Nat) (hk : k < 32) :
    bitOf (setBits w k k v) j = if j = k then v % 2 == 1 else bitOf w j := by
  split
  · next h => subst h; rw [bitOf_eq_bitsOf, bitsOf_setBits_self _ _ _ _ (Nat.le_refl _) hk, Nat.add_sub_cancel_left, Nat.pow_one]
  · next h =>
    rcases Nat.lt_or_gt_of_ne h with hlt | hgt
    · rw [bitOf_eq_bitsOf, bitOf_eq_bitsOf, bitsOf_setBits_above _ _ _ _ _ _ (Nat.le_refl _) hlt (by omega)]
    · exact bitOf_setBits_of_lt w k k v j (Nat.le_refl _) hgt hk

theorem b2n_mod_two (b : Bool) : (b2n b % 2 == 1) = b := by cases b <;> rfl

/-! Registers -/

theorem State.flag_eq_bitOf (s : State) (off k : Nat) : s.flag ⟨off, k, k⟩ = bitOf (s.reg off) k :=
  bitsOf_bit_ne_zero _ _

theorem State.fld_congr {s t : State} {f : Fld} (h : t.reg f.off = s.reg f.off) : t.fld f = s.fld f := by
  rw [State.fld, State.fld, h]

theorem State.flag_congr {s t : State} {f : Fld} (h : t.reg f.off = s.reg f.off) : t.flag f = s.flag f := by
  rw [State.flag, State.flag, State.fld_congr h]

/-- A bit of a register that a plain write reaches: RW, and not W1C. -/
theorem State.bitOf_plainWrite (s : State) {off i k : Nat} {r : RegRow} (v : Word) (hrow : findRow off = some (r, i))
    (hk : k < 32) (hr : r.rw < 2 ^ 32) (hrw : r.rw.testBit k = true) (hw1c : r.w1c = 0) :
    bitOf ((s.plainWrite off v).reg off) k = bitOf v k := by
  have hmax (x : Nat) (hx : x < 2 ^ 32) : (ctrMax - x).testBit k = !x.testBit k := by
    rw [show ctrMax - x = 2 ^ 32 - (x + 1) by rw [ctrMax]; omega, Nat.testBit_two_pow_sub_succ hx]; simp [hk]
  rw [State.plainWrite, hrow]
  have hall : ctrMax.testBit k = true := by simpa using hmax 0 (by omega)
  dsimp only
  rw [State.reg_setReg_self, hw1c, bitOf_eq_getLsbD, bitOf_eq_getLsbD, BitVec.getLsbD_ofNat, ← BitVec.testBit_toNat]
  change (decide (k < 32) && Nat.testBit ((((s.reg off).toNat &&& (ctrMax - r.rw)) ||| (v.toNat &&& r.rw)) &&&
    (ctrMax - (v.toNat &&& 0))) k) = _
  simp [hk, hmax r.rw hr, hall, hrw]

theorem State.dac_plainWrite (s : State) (off : Nat) (v : Word) : (s.plainWrite off v).dac = s.dac := by
  rw [State.plainWrite]; split <;> rfl

theorem State.waiting_plainWrite (s : State) (off : Nat) (v : Word) (o : Nat) :
    (s.plainWrite off v).waiting o = s.waiting o := by
  rw [State.plainWrite]; split <;> rfl

theorem State.reg_plainWrite_of_ne (s : State) {off o : Nat} (v : Word) (h : o ≠ off) :
    (s.plainWrite off v).reg o = s.reg o := by
  rw [State.plainWrite]; split
  · rfl
  · exact s.reg_setReg_of_ne _ h

/-! Staged writes -/

theorem State.waiting_stageBasic_self (s : State) (off : Nat) (v : Word) : (s.stageBasic off v).waiting off = some v := by
  rw [State.waiting, State.stageBasic]; dsimp only
  rw [Tbl.find_erase_self, Tbl.find_insert_self]

theorem State.waiting_stageBasic_of_ne (s : State) {off o : Nat} (v : Word) (h : o ≠ off) :
    (s.stageBasic off v).waiting o = s.waiting o := by
  rw [State.waiting, State.waiting, State.stageBasic]; dsimp only
  rw [Tbl.find_erase_of_ne _ h, Tbl.find_insert_of_ne _ _ h]

theorem State.waiting_setReg (s : State) (off : Nat) (v : Word) (o : Nat) : (s.setReg off v).waiting o = s.waiting o := rfl

theorem State.waiting_setFld (s : State) (f : Fld) (v o : Nat) : (s.setFld f v).waiting o = s.waiting o := rfl

theorem State.waiting_unstage_self (s : State) (off : Nat) : (s.unstage off).waiting off = none := by
  rw [State.waiting, State.unstage]; dsimp only
  rw [Tbl.find_erase_self, Tbl.find_erase_self]

/-! Running a command that acts under a condition -/

theorem State.runs_of_pos {s a b : State} {c : Instr} {p : Prop} [Decidable p] {P : State → Prop}
    (hc : exec c s = .next (if p then a else b)) (hp : p) (ha : P a) : s.runs c P :=
  ⟨a, hc.trans (congrArg _ (if_pos hp)), ha⟩

theorem State.runs_of_neg {s a b : State} {c : Instr} {p : Prop} [Decidable p] {P : State → Prop}
    (hc : exec c s = .next (if p then a else b)) (hp : ¬p) (hb : P b) : s.runs c P :=
  ⟨b, hc.trans (congrArg _ (if_neg hp)), hb⟩

/-! Counters -/

/-- A counter with room for one more counts it and raises nothing. -/
theorem State.bump_of_room (s : State) (off : Nat) (h : (s.reg off).toNat + 1 < ctrMax) :
    s.bump off = s.setReg off (s.reg off + 1) := by
  have hne : ¬((s.reg off).toNat = ctrMax ∨ 1 = 0) := by omega
  have hval : BitVec.ofNat 32 ((s.reg off).toNat + 1) = s.reg off + 1 := by
    apply BitVec.eq_of_toNat_eq; rw [BitVec.toNat_ofNat, BitVec.toNat_add]; rfl
  rw [State.bump, State.bumpBy, State.incCtr, if_neg hne, if_pos h, hval]
  rfl

/-! The direct event FIFO -/

theorem State.incCtr_host (s : State) (off k : Nat) : (s.incCtr off k).1.host = s.host := by
  unfold State.incCtr; dsimp only; repeat' split
  all_goals rfl

theorem State.sendMsix_devq (s : State) (v : Nat) : (s.sendMsix v).host.devq = s.host.devq := by
  unfold State.sendMsix; split <;> rfl

theorem State.ringWrite_devq (s : State) (r : Nat) (w : List Word) : (s.ringWrite r w).host.devq = s.host.devq := by
  unfold State.ringWrite; dsimp only
  rw [apply_ite State.host, apply_ite HostSt.devq, State.sendMsix_devq]
  exact ite_self _

theorem State.evToRing_devq (s : State) (e : Event) : (s.evToRing e).1.host.devq = s.host.devq := by
  unfold State.evToRing; dsimp only; split
  · rfl
  split
  · exact (rfl : _ = (s.incCtr _ _).1.host.devq).trans (congrArg HostSt.devq (s.incCtr_host _ _))
  split
  · exact (rfl : _ = (s.incCtr _ _).1.host.devq).trans (congrArg HostSt.devq (s.incCtr_host _ _))
  · exact State.ringWrite_devq _ _ _

theorem State.evToTally_host (s : State) (e : Event) : (s.evToTally e).1.host = s.host := by
  unfold State.evToTally; dsimp only; split
  · rfl
  split
  · split
    · rfl
    split
    · exact (rfl : _ = (s.incCtr _ _).1.host).trans (s.incCtr_host _ _)
    · rfl
  · rfl

/-- An event that is selected and finds room goes to the end of the FIFO. -/
theorem State.evToFifo_devq_of_hears (s : State) (e : Event) (h : s.hears e.code 1) :
    (s.evToFifo e).host.devq = s.host.devq ++ [(e, s.host.devLost)] := by
  obtain ⟨hsel, hroom⟩ := h
  rw [State.evToFifo, if_neg (by simp [hsel]), if_neg (by omega)]
  dsimp only; split
  · exact State.sendMsix_devq _ _
  · rfl

theorem State.devq_subset_evToFifo (s : State) (e : Event) : s.host.devq ⊆ (s.evToFifo e).host.devq := by
  unfold State.evToFifo; dsimp only; split
  · exact List.Subset.refl _
  split
  · exact List.Subset.refl _
  split
  · rw [State.sendMsix_devq]; exact List.subset_append_left _ _
  · exact List.subset_append_left _ _

theorem State.devq_subset_foldl {α : Type} (g : State → α → State) (h : ∀ (s : State) x, s.host.devq ⊆ (g s x).host.devq) :
    ∀ (l : List α) (s : State), s.host.devq ⊆ (l.foldl g s).host.devq
  | [], _ => List.Subset.refl _
  | a :: l, s => List.Subset.trans (h s a) (State.devq_subset_foldl g h l (g s a))

/-- What follows the event's own entry, the events of counters that peg and of tally's loss, takes nothing out of the FIFO. -/
theorem State.evToFifo_devq_subset_raiseN (n : Nat) (ih : ∀ (s : State) (code source : Nat) (a0 a1 : Word),
    s.host.devq ⊆ (State.raiseN n s code source a0 a1).host.devq) (s : State) (code source : Nat) (a0 a1 : Word) :
    (s.evToFifo (s.mkEvent code source a0 a1)).host.devq ⊆ (State.raiseN (n + 1) s code source a0 a1).host.devq := by
  have hpaths : (s.evToFifo (s.mkEvent code source a0 a1)).host.devq =
      (((s.evToFifo (s.mkEvent code source a0 a1)).evToRing (s.mkEvent code source a0 a1)).1.evToTally
        (s.mkEvent code source a0 a1)).1.host.devq := by
    rw [State.evToTally_host, State.evToRing_devq]
  rw [hpaths, State.raiseN]; dsimp only
  have hpegs := State.devq_subset_foldl (fun s off => State.raiseN n s 0x07 0 (BitVec.ofNat 32 off) 0) (fun s _ => ih s _ _ _ _)
  split
  · exact List.Subset.trans (hpegs _ _) (ih _ _ _ _ _)
  · exact hpegs _ _

theorem State.devq_subset_raiseN : ∀ (n : Nat) (s : State) (code source : Nat) (a0 a1 : Word),
    s.host.devq ⊆ (State.raiseN n s code source a0 a1).host.devq
  | 0, _, _, _, _, _ => List.Subset.refl _
  | n + 1, s, code, source, a0, a1 => List.Subset.trans (s.devq_subset_evToFifo _)
    (State.evToFifo_devq_subset_raiseN n (State.devq_subset_raiseN n) s code source a0 a1)

theorem State.told_raiseN (n : Nat) (s : State) (code source : Nat) (a0 a1 : Word) (h : s.hears code 1) :
    (State.raiseN (n + 1) s code source a0 a1).told s code source a0 a1 := by
  have hfifo : (s.mkEvent code source a0 a1, s.host.devLost) ∈ (s.evToFifo (s.mkEvent code source a0 a1)).host.devq := by
    rw [s.evToFifo_devq_of_hears (s.mkEvent code source a0 a1) h]
    exact List.mem_append_right _ List.mem_cons_self
  exact ⟨_, State.evToFifo_devq_subset_raiseN n (State.devq_subset_raiseN n) s code source a0 a1 hfifo⟩

/-- An event that the FIFO selects and has room for is told (R376). -/
theorem State.told_raise (s : State) (code source : Nat) (a0 a1 : Word) (h : s.hears code 1) :
    (s.raise code source a0 a1).told s code source a0 a1 := State.told_raiseN 7 s code source a0 a1 h

end Sys2Proof.Machine
end

section
/-! The DACs (R418-R427): what each channel drives, and which updates leave it. -/

namespace Sys2Proof.Machine

/-! The rows of R419 -/

/-- The condition of row 1: no valid supply, factory test, or short protection. -/
abbrev State.dacOff (s : State) (d : Nat) : Prop :=
  !s.dac.vdda ∨ s.glb.testEn ∨ bitOf (s.reg DAC_STAT.adr) (16 + d)

/-- The condition of row 2: a range hold. -/
abbrev State.dacHeld (s : State) (d : Nat) : Prop := d ∈ s.dac.hold ∨ s.dac.refHold = some s.sidx

/-- The condition of row 3: DACCLR_N low or released within the block, or the global clear. -/
abbrev State.dacCleared (s : State) : Prop := s.flag DAC_STAT.CLRPIN ∨ s.dac.clrRet ∨ s.dac.clr

/-- The output of a clear code. -/
def State.dacClearOut (s : State) (d : Nat) : DacOut :=
  .code (toSigned 24 (s.fld (DAC_XCLRCODE.CODE d))) (s.flag (DAC_XCH.GAIN d)) (s.flag DAC_STAT.REFEXT)

theorem State.dacRow_of_off {s : State} {d : Nat} (h : s.dacOff d) : s.dacRow d = 1 := if_pos h

theorem State.dacRow_of_not_off {s : State} {d : Nat} (h : ¬s.dacOff d) : s.dacRow d =
    if s.dacHeld d then 2 else if s.dacCleared then 3
    else if !s.flag (DAC_XCH.EN d) ∨ !(s.mode == 2 || (s.mode == 4 && !s.flag OUT_XMUTE.SVC)) then 4 else 5 := if_neg h

theorem State.dacRow_of_held {s : State} {d : Nat} (h : ¬s.dacOff d) (hh : s.dacHeld d) : s.dacRow d = 2 := by
  rw [State.dacRow_of_not_off h, if_pos hh]

theorem State.dacRow_of_cleared {s : State} {d : Nat} (h : ¬s.dacOff d) (hh : ¬s.dacHeld d) (hc : s.dacCleared) :
    s.dacRow d = 3 := by
  rw [State.dacRow_of_not_off h, if_neg hh, if_pos hc]

theorem State.dacRow_ne_one_iff (s : State) (d : Nat) : s.dacRow d ≠ 1 ↔ ¬s.dacOff d := by
  refine ⟨fun h hoff => h (State.dacRow_of_off hoff), fun h => ?_⟩
  rw [State.dacRow_of_not_off h]
  repeat' split
  all_goals decide

/-- From row 3 on, a channel is neither in row 1 nor held. -/
theorem State.not_off_not_held_of_le_dacRow {s : State} {d : Nat} (h : 3 ≤ s.dacRow d) : ¬s.dacOff d ∧ ¬s.dacHeld d := by
  have hoff : ¬s.dacOff d := (s.dacRow_ne_one_iff d).mp (by omega)
  refine ⟨hoff, fun hheld => ?_⟩
  have := State.dacRow_of_held hoff hheld
  omega

theorem State.dacOut_of_off {s : State} {d : Nat} (h : s.dacOff d) : s.dacOut d = .hiZ := by
  rw [State.dacOut, State.dacRow_of_off h]; rfl

theorem State.dacOut_of_held {s : State} {d : Nat} (h : ¬s.dacOff d) (hh : s.dacHeld d) : s.dacOut d = .zero := by
  rw [State.dacOut, State.dacRow_of_held h hh]; rfl

theorem State.dacOut_of_cleared {s : State} {d : Nat} (h : ¬s.dacOff d) (hh : ¬s.dacHeld d) (hc : s.dacCleared) :
    s.dacOut d = s.dacClearOut d := by
  rw [State.dacOut, State.dacRow_of_cleared h hh hc]; rfl

/-! What leaves the DACs alone -/

/-- A register below the DACs' fault counters that no event can change: all that the DACs' outputs depend on are. -/
def dacReg (o : Nat) : Prop := (o < 0x100000 ∨ 0x200000 ≤ o) ∧ o < DAC_FAULT_CNT.adr 0

theorem dacReg.quiet {o : Nat} (h : dacReg o) : quietReg o := by
  obtain ⟨hhost, hlt⟩ := h
  simp only [quietReg, TLY_LOST_CNT.adr, TLY_PEG.adr, DAC_FAULT_CNT.adr] at *
  omega

theorem dacReg_stat : dacReg DAC_STAT.adr := by simp [dacReg, DAC_STAT.adr, DAC_FAULT_CNT.adr]

theorem dacReg_xch (d : Fin 8) : dacReg (DAC_XCH.adr d) := by
  simp only [dacReg, DAC_XCH.adr, DAC_FAULT_CNT.adr]; omega

theorem dacReg_xclrcode (d : Fin 8) : dacReg (DAC_XCLRCODE.adr d) := by
  simp only [dacReg, DAC_XCLRCODE.adr, DAC_FAULT_CNT.adr]; omega

theorem dacReg_mode : dacReg GLB_MODE.CUR.off := by simp [dacReg, GLB_MODE.CUR, DAC_FAULT_CNT.adr]

theorem dacReg_svc : dacReg OUT_XMUTE.SVC.off := by simp [dacReg, OUT_XMUTE.SVC, DAC_FAULT_CNT.adr]

/-- `t` agrees with `s` on everything that decides what the DACs drive. -/
def State.sameDacs (s t : State) : Prop :=
  t.dac = s.dac ∧ t.glb = s.glb ∧ t.sidx = s.sidx ∧ ∀ o, dacReg o → t.reg o = s.reg o

theorem State.sameDacs.trans {s t u : State} (h : s.sameDacs t) (k : t.sameDacs u) : s.sameDacs u := by
  obtain ⟨hd, hg, hs, hr⟩ := h
  obtain ⟨kd, kg, ks, kr⟩ := k
  exact ⟨kd.trans hd, kg.trans hg, ks.trans hs, fun o ho => (kr o ho).trans (hr o ho)⟩

theorem State.sameDacs_raise (s : State) (code source : Nat) (a0 a1 : Word) : s.sameDacs (s.raise code source a0 a1) :=
  ⟨by simp, by simp, by simp, fun _ ho => s.reg_raise _ _ _ _ ho.quiet⟩

theorem State.sameDacs_raiseN2 (s : State) (code source a0 a1 : Nat) : s.sameDacs (s.raiseN2 code source a0 a1) :=
  s.sameDacs_raise _ _ _ _

theorem State.sameDacs.stat {s t : State} (h : s.sameDacs t) : t.reg DAC_STAT.adr = s.reg DAC_STAT.adr := by
  obtain ⟨-, -, -, hr⟩ := h
  exact hr _ dacReg_stat

theorem pegOf_dacFault (d : Fin 8) : pegOf (DAC_FAULT_CNT.adr d) = some (DAC_PEG.adr, d.val) := by
  revert d; decide

theorem State.sameDacs_bump (s : State) (d : Fin 8) : s.sameDacs (s.bump (DAC_FAULT_CNT.adr d)) := by
  refine ⟨by simp, by simp, by simp, fun o ho => s.reg_bump _ ho.quiet ?_ fun w b hw => ?_⟩
  · have hlt := ho.2
    simp only [DAC_FAULT_CNT.adr] at hlt ⊢; omega
  · have hlt := ho.2
    rw [pegOf_dacFault, Option.some.injEq, Prod.mk.injEq] at hw
    simp only [DAC_PEG.adr, DAC_FAULT_CNT.adr] at hw hlt; omega

theorem State.sameDacs.row {s t : State} (h : s.sameDacs t) (d : Fin 8) : t.dacRow d = s.dacRow d := by
  obtain ⟨hd, hg, hs, hr⟩ := h
  have hmode : t.mode = s.mode := State.fld_congr (hr _ dacReg_mode)
  have hpin : t.flag DAC_STAT.CLRPIN = s.flag DAC_STAT.CLRPIN := State.flag_congr (hr _ dacReg_stat)
  have hen : t.flag (DAC_XCH.EN d) = s.flag (DAC_XCH.EN d) := State.flag_congr (hr _ (dacReg_xch d))
  have hsvc : t.flag OUT_XMUTE.SVC = s.flag OUT_XMUTE.SVC := State.flag_congr (hr _ dacReg_svc)
  rw [State.dacRow, State.dacRow, hd, hg, hs, hr _ dacReg_stat, hmode, hpin, hen, hsvc]

theorem State.sameDacs.out {s t : State} (h : s.sameDacs t) (d : Fin 8) : t.dacOut d = s.dacOut d := by
  have hrow := h.row d
  obtain ⟨hd, -, -, hr⟩ := h
  have hfilt : t.flag (DAC_XCH.FILT d) = s.flag (DAC_XCH.FILT d) := State.flag_congr (hr _ (dacReg_xch d))
  have hgain : t.flag (DAC_XCH.GAIN d) = s.flag (DAC_XCH.GAIN d) := State.flag_congr (hr _ (dacReg_xch d))
  have hext : t.flag DAC_STAT.REFEXT = s.flag DAC_STAT.REFEXT := State.flag_congr (hr _ dacReg_stat)
  have hclr : t.fld (DAC_XCLRCODE.CODE d) = s.fld (DAC_XCLRCODE.CODE d) := State.fld_congr (hr _ (dacReg_xclrcode d))
  have hcode : t.dacCode d = s.dacCode d := by rw [State.dacCode, State.dacCode, hfilt, hd]
  rw [State.dacOut, State.dacOut, hrow, hgain, hext, hclr, hcode]

/-! Updates of the DACs' own state -/

/-- `t` differs from `s` in the DACs and their registers at most. -/
def State.dacsOnly (s t : State) : Prop :=
  t = { s with regs := t.regs, dac := t.dac } ∧ ∀ o, o < DAC_CTL.adr → t.reg o = s.reg o

theorem State.dacsOnly_onDac (s : State) (f : DacSt → DacSt) : s.dacsOnly (s.onDac f) := ⟨rfl, fun _ _ => rfl⟩

theorem State.dacsOnly.trans {s t u : State} (h : s.dacsOnly t) (k : t.dacsOnly u) : s.dacsOnly u := by
  obtain ⟨ht, hr⟩ := h
  obtain ⟨hu, kr⟩ := k
  exact ⟨by rw [hu, ht], fun o ho => (kr o ho).trans (hr o ho)⟩

theorem State.dacsOnly_setReg (s : State) {off : Nat} (v : Word) (h : DAC_CTL.adr ≤ off) : s.dacsOnly (s.setReg off v) :=
  ⟨rfl, fun _ ho => s.reg_setReg_of_ne v (Nat.ne_of_lt (Nat.lt_of_lt_of_le ho h))⟩

theorem State.dacsOnly_dacBit (s : State) (k : Nat) (b : Bool) : s.dacsOnly (s.dacBit k b) :=
  s.dacsOnly_setReg _ (by decide)

theorem State.dacsOnly.onDac {s t : State} (h : s.dacsOnly t) (f : DacSt → DacSt) : s.dacsOnly (t.onDac f) :=
  h.trans (t.dacsOnly_onDac f)

/-- An event raised after updates of the DACs carries the stamps of the state before them. -/
theorem State.dacsOnly.told {s t : State} (h : s.dacsOnly t) {code : Nat} (hcode : code < 0x100) (source : Nat) (a0 a1 : Word)
    (hs : s.hears code 1) : (t.raise code source a0 a1).told s code source a0 a1 := by
  obtain ⟨ht, hr⟩ := h
  have hhost : t.host = s.host := by rw [ht]
  have hfifo : t.flag (HOST_XEVR.FIFO code) = s.flag (HOST_XEVR.FIFO code) :=
    State.flag_congr (hr _ (by simp only [HOST_XEVR.FIFO, DAC_CTL.adr]; omega))
  have hepoch : t.epoch = s.epoch := State.fld_congr (hr _ (by decide))
  have hev : t.mkEvent code source a0 a1 = s.mkEvent code source a0 a1 := by
    rw [State.mkEvent, State.mkEvent, hepoch, show t.sidx = s.sidx by rw [ht], show t.time = s.time by rw [ht]]
  have hears : t.hears code 1 := by rwa [State.hears, hfifo, hhost]
  obtain ⟨lost, hmem⟩ := t.told_raise code source a0 a1 hears
  exact ⟨lost, hev ▸ hmem⟩

theorem State.dacsOnly.told_raiseN2 {s t : State} (h : s.dacsOnly t) {code : Nat} (hcode : code < 0x100) (source a0 a1 : Nat)
    (hs : s.hears code 1) : (t.raiseN2 code source a0 a1).told s code source (BitVec.ofNat 32 a0) (BitVec.ofNat 32 a1) :=
  h.told hcode source _ _ hs

@[simp] theorem State.reg_onDac (s : State) (f : DacSt → DacSt) (o : Nat) : (s.onDac f).reg o = s.reg o := rfl
@[simp] theorem State.dacBit_dac (s : State) (k : Nat) (b : Bool) : (s.dacBit k b).dac = s.dac := by
  rw [State.dacBit, State.setReg_dac]
@[simp] theorem State.dacBit_glb (s : State) (k : Nat) (b : Bool) : (s.dacBit k b).glb = s.glb := by
  rw [State.dacBit, State.setReg_glb]
@[simp] theorem State.dacBit_sidx (s : State) (k : Nat) (b : Bool) : (s.dacBit k b).sidx = s.sidx := by
  rw [State.dacBit, State.setReg_sidx]
@[simp] theorem State.dacBit_host (s : State) (k : Nat) (b : Bool) : (s.dacBit k b).host = s.host := by
  rw [State.dacBit, State.setReg_host]
@[simp] theorem State.dacBit_tly (s : State) (k : Nat) (b : Bool) : (s.dacBit k b).tly = s.tly := by
  rw [State.dacBit, State.setReg_tly]
@[simp] theorem State.waiting_dacBit (s : State) (k : Nat) (b : Bool) (o : Nat) : (s.dacBit k b).waiting o = s.waiting o := by
  rw [State.dacBit, State.waiting_setReg]
@[simp] theorem State.showRef_dac (s : State) : s.showRef.dac = s.dac := by rw [State.showRef, State.dacBit_dac]
@[simp] theorem State.showRef_glb (s : State) : s.showRef.glb = s.glb := by rw [State.showRef, State.dacBit_glb]
@[simp] theorem State.showRef_sidx (s : State) : s.showRef.sidx = s.sidx := by rw [State.showRef, State.dacBit_sidx]

theorem State.reg_dacBit_of_ne (s : State) (k : Nat) (b : Bool) {o : Nat} (h : o ≠ DAC_STAT.adr) :
    (s.dacBit k b).reg o = s.reg o := s.reg_setReg_of_ne _ h

theorem State.flag_clrPin (s : State) : s.flag DAC_STAT.CLRPIN = bitOf (s.reg DAC_STAT.adr) 31 := s.flag_eq_bitOf _ _
theorem State.flag_refExt (s : State) : s.flag DAC_STAT.REFEXT = bitOf (s.reg DAC_STAT.adr) 30 := s.flag_eq_bitOf _ _
theorem State.flag_refFault (s : State) : s.flag DAC_STAT.REFFAULT = bitOf (s.reg DAC_STAT.adr) 29 := s.flag_eq_bitOf _ _

/-- DAC_STAT after one of its bits is set. -/
theorem State.bitOf_dacBit (s : State) {k : Nat} (b : Bool) (j : Nat) (hk : k < 32) :
    bitOf ((s.dacBit k b).reg DAC_STAT.adr) j = if j = k then b else bitOf (s.reg DAC_STAT.adr) j := by
  rw [State.dacBit, State.reg_setReg_self, bitOf_setBits_bit _ _ _ _ hk, b2n_mod_two]

/-- REFEXT shows whether DAC_REFIN is in use; the other bits of DAC_STAT stay. -/
theorem State.bitOf_showRef (s : State) (j : Nat) : bitOf (s.showRef.reg DAC_STAT.adr) j =
    if j = 30 then s.flag DAC_XGLB.REFEXT && !bitOf (s.reg DAC_STAT.adr) 29 else bitOf (s.reg DAC_STAT.adr) j := by
  rw [State.showRef, s.bitOf_dacBit _ _ (by decide), State.flag_refFault]

theorem State.dacOff_congr {s t : State} {d : Nat} (hd : t.dac.vdda = s.dac.vdda) (hg : t.glb = s.glb)
    (hb : bitOf (t.reg DAC_STAT.adr) (16 + d) = bitOf (s.reg DAC_STAT.adr) (16 + d)) : t.dacOff d ↔ s.dacOff d := by
  rw [State.dacOff, State.dacOff, hd, hg, hb]

/-- A status bit other than SHORT of the channel and CLRPIN does not change its row. -/
theorem State.dacRow_dacBit (s : State) {k : Nat} (b : Bool) (d : Fin 8) (hk : k < 32) (hshort : 16 + d.val ≠ k) (hpin : k ≠ 31) :
    (s.dacBit k b).dacRow d = s.dacRow d := by
  have hstat : bitOf ((s.dacBit k b).reg DAC_STAT.adr) (16 + d) = bitOf (s.reg DAC_STAT.adr) (16 + d) := by
    rw [s.bitOf_dacBit b _ hk, if_neg hshort]
  have hclr : (s.dacBit k b).flag DAC_STAT.CLRPIN = s.flag DAC_STAT.CLRPIN := by
    rw [State.flag_clrPin, State.flag_clrPin, s.bitOf_dacBit b 31 hk, if_neg hpin.symm]
  have hne : (DAC_XCH.EN d).off ≠ DAC_STAT.adr := by simp only [DAC_XCH.EN, DAC_STAT.adr]; omega
  have hen : (s.dacBit k b).flag (DAC_XCH.EN d) = s.flag (DAC_XCH.EN d) := State.flag_congr (s.reg_dacBit_of_ne k b hne)
  have hmode : (s.dacBit k b).mode = s.mode := State.fld_congr (s.reg_dacBit_of_ne k b (by decide))
  have hsvc : (s.dacBit k b).flag OUT_XMUTE.SVC = s.flag OUT_XMUTE.SVC := State.flag_congr (s.reg_dacBit_of_ne k b (by decide))
  rw [State.dacRow, State.dacRow, State.dacBit_dac, State.dacBit_glb, State.dacBit_sidx, hstat, hclr, hen, hmode, hsvc]

end Sys2Proof.Machine
end

section
/-! What each command of the DACs does (R418-R427). -/

namespace Sys2Proof.Machine

/-! DAC_CTL (R427) -/

/-- The word of channel `d` once DAC_CTL, holding `c`, has driven EN, GAIN and FILT into `w`. -/
def dacDriven (c : Word) (d : Nat) (w : Word) : Word :=
  setBits w 31 29 (4 * b2n (bitOf c d) + 2 * b2n (bitOf c (8 + d)) + b2n (bitOf c 16))

/-- DAC_CTL, holding `c`, drives channel `d`. -/
def State.dacDrive (c : Word) (s : State) (d : Nat) : State :=
  s.stageBasic (DAC_XCH.adr d) (dacDriven c d ((s.waiting (DAC_XCH.adr d)).getD (s.reg (DAC_XCH.adr d))))

theorem State.driveDacs_eq (s : State) : s.driveDacs =
    ((List.range 8).foldl (State.dacDrive (s.reg DAC_CTL.adr)) s).setFld DAC_XGLB.CLR (b2n (bitOf (s.reg DAC_CTL.adr) 31)) := rfl

theorem DAC_XCH.adr_ne {j k : Nat} (h : j ≠ k) : DAC_XCH.adr j ≠ DAC_XCH.adr k := by simp only [DAC_XCH.adr]; omega

theorem State.waiting_dacDrive_self (c : Word) (s : State) (d : Nat) : (s.dacDrive c d).waiting (DAC_XCH.adr d) =
    some (dacDriven c d ((s.waiting (DAC_XCH.adr d)).getD (s.reg (DAC_XCH.adr d)))) :=
  s.waiting_stageBasic_self _ _

theorem State.waiting_dacDrive_of_ne (c : Word) (s : State) {d k : Nat} (h : k ≠ d) :
    (s.dacDrive c d).waiting (DAC_XCH.adr k) = s.waiting (DAC_XCH.adr k) :=
  s.waiting_stageBasic_of_ne _ (DAC_XCH.adr_ne h)

theorem State.reg_dacDrive (c : Word) (s : State) (d o : Nat) : (s.dacDrive c d).reg o = s.reg o := rfl

theorem State.foldl_dacDrive_regs (c : Word) : ∀ (l : List Nat) (s : State), (l.foldl (State.dacDrive c) s).regs = s.regs
  | [], _ => rfl
  | a :: l, s => State.foldl_dacDrive_regs c l (s.dacDrive c a)

theorem State.foldl_dacDrive_dac (c : Word) : ∀ (l : List Nat) (s : State), (l.foldl (State.dacDrive c) s).dac = s.dac
  | [], _ => rfl
  | a :: l, s => State.foldl_dacDrive_dac c l (s.dacDrive c a)

theorem State.foldl_dacDrive_waiting_of_notMem (c : Word) (k : Nat) : ∀ (l : List Nat) (s : State), k ∉ l →
    (l.foldl (State.dacDrive c) s).waiting (DAC_XCH.adr k) = s.waiting (DAC_XCH.adr k)
  | [], _, _ => rfl
  | a :: l, s, h => by
    obtain ⟨hne, hl⟩ : k ≠ a ∧ k ∉ l := by simpa using h
    rw [List.foldl_cons, State.foldl_dacDrive_waiting_of_notMem c k l _ hl, State.waiting_dacDrive_of_ne c s hne]

/-- Each channel of the list gets the word that DAC_CTL drives into it. -/
theorem State.foldl_dacDrive_waiting (c : Word) (k : Nat) (l : List Nat) (s : State) (hnd : l.Nodup) (h : k ∈ l) :
    (l.foldl (State.dacDrive c) s).waiting (DAC_XCH.adr k) =
      some (dacDriven c k ((s.waiting (DAC_XCH.adr k)).getD (s.reg (DAC_XCH.adr k)))) := by
  induction l generalizing s with
  | nil => exact absurd h List.not_mem_nil
  | cons a l ih =>
    obtain ⟨ha, hl⟩ := List.nodup_cons.mp hnd
    by_cases hk : k = a
    · subst hk
      rw [List.foldl_cons, State.foldl_dacDrive_waiting_of_notMem c k l _ ha, State.waiting_dacDrive_self]
    · have hmem : k ∈ l := (List.mem_cons.mp h).resolve_left hk
      rw [List.foldl_cons, ih _ hl hmem, State.waiting_dacDrive_of_ne c s hk, State.reg_dacDrive]

/-- The bits that DAC_CTL has take the value written. -/
theorem State.bitOf_plainWrite_dacCtl (s : State) (v : Word) {k : Nat} (hk : Nat.testBit 0x8001FFFF k = true) :
    bitOf ((s.plainWrite DAC_CTL.adr v).reg DAC_CTL.adr) k = bitOf v k := by
  have hlt : k < 32 := (Nat.pow_lt_pow_iff_right (by decide : 1 < 2)).mp
    (Nat.lt_of_le_of_lt (Nat.ge_two_pow_of_testBit hk) (by decide : 0x8001FFFF < 2 ^ 32))
  exact s.bitOf_plainWrite v (r := ⟨0xe00000, 4, 1, 4, 1, (fun _ => 0), 0x8001ffff, 0, false⟩) (i := 0) rfl hlt
    (by decide) hk rfl

theorem dacDriven_congr {c v : Word} {d : Nat} (w : Word) (hen : bitOf c d = bitOf v d) (hgain : bitOf c (8 + d) = bitOf v (8 + d))
    (hfilt : bitOf c 16 = bitOf v 16) : dacDriven c d w = dacDriven v d w := by
  rw [dacDriven, dacDriven, hen, hgain, hfilt]

theorem State.dac_dacCtl (s : State) (v : Word) : (s.dacCtl v).dac = s.dac := by
  rw [State.dacCtl, State.driveDacs_eq, State.setFld_dac, State.foldl_dacDrive_dac, State.dac_plainWrite]

theorem State.reg_dacCtl_of_ne (s : State) (v : Word) {o : Nat} (hctl : o ≠ DAC_CTL.adr) (hglb : o ≠ DAC_XGLB.adr) :
    (s.dacCtl v).reg o = s.reg o := by
  rw [State.dacCtl, State.driveDacs_eq, State.reg_setFld_of_ne _ _ _ (by exact hglb), State.reg, State.foldl_dacDrive_regs]
  exact s.reg_plainWrite_of_ne v hctl

theorem State.flag_clr_dacCtl (s : State) (v : Word) : (s.dacCtl v).flag DAC_XGLB.CLR = bitOf v 31 := by
  rw [State.dacCtl, State.driveDacs_eq, State.flag, State.fld_setFld_self _ _ _ (by decide) (by decide),
    s.bitOf_plainWrite_dacCtl v (by decide)]
  cases bitOf v 31 <;> rfl

theorem State.waiting_dacCtl (s : State) (v : Word) {k : Nat} (hk : k < 8) : (s.dacCtl v).waiting (DAC_XCH.adr k) =
    some (dacDriven v k ((s.waiting (DAC_XCH.adr k)).getD (s.reg (DAC_XCH.adr k)))) := by
  have hen : Nat.testBit 0x8001FFFF k = true := by revert k; decide
  have hgain : Nat.testBit 0x8001FFFF (8 + k) = true := by revert k; decide
  have hne : DAC_XCH.adr k ≠ DAC_CTL.adr := by simp only [DAC_XCH.adr, DAC_CTL.adr]; omega
  rw [State.dacCtl, State.driveDacs_eq, State.waiting_setFld,
    State.foldl_dacDrive_waiting _ k _ _ List.nodup_range (List.mem_range.mpr hk),
    dacDriven_congr _ (s.bitOf_plainWrite_dacCtl v hen) (s.bitOf_plainWrite_dacCtl v hgain)
    (s.bitOf_plainWrite_dacCtl v (by decide)), State.waiting_plainWrite, s.reg_plainWrite_of_ne v hne]

/-- The write of DAC_CTL acts when the endpoint answers and neither XMODE nor BASIC_RESET of the DACs stands (R29). -/
theorem exec_dacCtlWrite (v : Word) {s : State} (ht : s.glb.testEn = false) (hr : s.inReset ⟨0xE000FC, 0, false⟩ = false)
    (hx : s.xmode ⟨0xE000FC, 0, false⟩ = false) : exec (.dacCtlWrite v) s = .next (s.dacCtl v) := by
  have howner : owner DAC_CTL.adr = some ⟨0xE000FC, 0, false⟩ := by decide
  have hport : ¬(DAC_CTL.adr = 0xE000FC ∨ isCmdPort DAC_CTL.adr = true) := by decide
  have hbell : isDoorbell DAC_CTL.adr = false := by decide
  change Host.Outcome.next (s.hostWrite DAC_CTL.adr (fun s => s.dacCtl v)) = _
  rw [State.hostWrite, ht, howner]
  simp [hport, hbell, hr, hx]

/-! Channel words (R420, R422, R423, R425) -/

/-- The word that comes into force when `v` is due: in row 5 FILT keeps its value (R423). -/
def State.dacWord (s : State) (d : Nat) (v : Word) : Word :=
  if s.dacRow d = 5 then setBits v 29 29 (bitsOf (s.reg (DAC_XCH.adr d)) 29 29) else v

theorem State.bitOf_dacWord (s : State) (d : Nat) (v : Word) {k : Nat} (hk : k ≠ 29) :
    bitOf (s.dacWord d v) k = bitOf v k := by
  rw [State.dacWord]; split
  · rw [bitOf_setBits_bit _ _ _ _ (by decide), if_neg hk]
  · rfl

theorem State.waiting_onDac (s : State) (f : DacSt → DacSt) (o : Nat) : (s.onDac f).waiting o = s.waiting o := rfl

/-- The channel's word in force becomes that of `v`, and a GAIN change starts the range hold (R422). -/
def State.dacTake (s : State) (d : Nat) (v : Word) : State :=
  let t := (s.setReg (DAC_XCH.adr d) (s.dacWord d v)).unstage (DAC_XCH.adr d)
  if bitOf (s.reg (DAC_XCH.adr d)) 30 == bitOf v 30 then t
  else t.onDac (fun x => { x with hold := x.hold.filter (fun k => k != d) ++ [d] })

/-- The change that ends a short protection: EN from 0 to 1 without RETRY (R425). -/
abbrev State.dacRestarts (s : State) (d : Nat) (v : Word) : Prop :=
  !bitOf (s.reg (DAC_XCH.adr d)) 31 ∧ bitOf v 31 ∧ !bitOf v 27

theorem State.dacApply_eq (s : State) (d : Nat) (v : Word) : s.dacApply d v =
    if s.dacRestarts d v then (s.dacTake d v).dacBit (16 + d) false else s.dacTake d v := by
  unfold State.dacRestarts State.dacTake
  rw [← s.bitOf_dacWord d v (by decide : 30 ≠ 29), ← s.bitOf_dacWord d v (by decide : 31 ≠ 29),
    ← s.bitOf_dacWord d v (by decide : 27 ≠ 29)]
  rfl

theorem State.dacTake_frame (s : State) (d : Nat) (v : Word) :
    (s.dacTake d v).host = s.host ∧ (s.dacTake d v).tly = s.tly ∧ (s.dacTake d v).glb = s.glb := by
  unfold State.dacTake; dsimp only; split <;> exact ⟨rfl, rfl, rfl⟩

theorem State.dacTake_waiting (s : State) (d : Nat) (v : Word) : (s.dacTake d v).waiting (DAC_XCH.adr d) = none := by
  unfold State.dacTake; dsimp only; split
  · exact State.waiting_unstage_self _ _
  · exact (State.waiting_onDac _ _ _).trans (State.waiting_unstage_self _ _)

theorem State.dacTake_reg (s : State) (d : Nat) (v : Word) (o : Nat) :
    (s.dacTake d v).reg o = (s.setReg (DAC_XCH.adr d) (s.dacWord d v)).reg o := by
  unfold State.dacTake; dsimp only; split <;> rfl

theorem State.mem_hold_dacTake (s : State) (d : Nat) (v : Word) (h : bitOf (s.reg (DAC_XCH.adr d)) 30 ≠ bitOf v 30) :
    d ∈ (s.dacTake d v).dac.hold := by
  rw [State.dacTake, if_neg (by simpa using h), State.onDac_dac]
  exact List.mem_append_right _ List.mem_cons_self

theorem DAC_XCH.adr_ne_stat (d : Nat) : DAC_XCH.adr d ≠ DAC_STAT.adr := by simp only [DAC_XCH.adr, DAC_STAT.adr]; omega

theorem State.dacTake_stat (s : State) (d : Nat) (v : Word) : (s.dacTake d v).reg DAC_STAT.adr = s.reg DAC_STAT.adr :=
  (s.dacTake_reg d v _).trans (s.reg_setReg_of_ne _ (DAC_XCH.adr_ne_stat d).symm)

/-- The end of a short protection touches DAC_STAT only. -/
theorem State.dacApply_of_dacTake {α : Sort _} (s : State) (d : Nat) (v : Word) (f : State → α)
    (hbit : ∀ t : State, f (t.dacBit (16 + d) false) = f t) : f (s.dacApply d v) = f (s.dacTake d v) := by
  rw [State.dacApply_eq]; split
  · exact hbit _
  · rfl

theorem State.dacApply_frame (s : State) (d : Nat) (v : Word) :
    (s.dacApply d v).host = s.host ∧ (s.dacApply d v).tly = s.tly ∧ (s.dacApply d v).glb = s.glb := by
  obtain ⟨hhost, htly, hglb⟩ := s.dacTake_frame d v
  exact ⟨(s.dacApply_of_dacTake d v State.host fun t => t.dacBit_host _ _).trans hhost,
    (s.dacApply_of_dacTake d v State.tly fun t => t.dacBit_tly _ _).trans htly,
    (s.dacApply_of_dacTake d v State.glb fun t => t.dacBit_glb _ _).trans hglb⟩

theorem State.dacApply_waiting (s : State) (d : Nat) (v : Word) : (s.dacApply d v).waiting (DAC_XCH.adr d) = none :=
  (s.dacApply_of_dacTake d v (·.waiting _) fun t => t.waiting_dacBit _ _ _).trans (s.dacTake_waiting d v)

theorem State.mem_hold_dacApply (s : State) (d : Nat) (v : Word) (h : bitOf (s.reg (DAC_XCH.adr d)) 30 ≠ bitOf v 30) :
    d ∈ (s.dacApply d v).dac.hold :=
  (s.dacApply_of_dacTake d v (·.dac) fun t => t.dacBit_dac _ _).symm ▸ s.mem_hold_dacTake d v h

theorem State.dacApply_reg_xch (s : State) (d : Nat) (v : Word) : (s.dacApply d v).reg (DAC_XCH.adr d) = s.dacWord d v :=
  (s.dacApply_of_dacTake d v (·.reg _) fun t => t.reg_dacBit_of_ne _ _ (DAC_XCH.adr_ne_stat d)).trans
    ((s.dacTake_reg d v _).trans (s.reg_setReg_self _ _))

theorem State.bitOf_stat_dacApply_of_restarts (s : State) (d : Fin 8) (v : Word) (h : s.dacRestarts d v) :
    bitOf ((s.dacApply d v).reg DAC_STAT.adr) (16 + d) = false := by
  rw [State.dacApply_eq, if_pos h, State.bitOf_dacBit _ _ _ (by omega), if_pos rfl]

theorem State.stat_dacApply_of_not_restarts (s : State) (d : Nat) (v : Word) (h : ¬s.dacRestarts d v) :
    (s.dacApply d v).reg DAC_STAT.adr = s.reg DAC_STAT.adr := by
  rw [State.dacApply_eq, if_neg h, State.dacTake_stat]

/-- A channel that is not in row 1 holds 0 V when its gain changes (R422). -/
theorem State.dacOut_dacApply_of_gain (s : State) (d : Fin 8) (v : Word) (hold : d.val ∈ (s.dacApply d v).dac.hold)
    (hvdda : (s.dacApply d v).dac.vdda = true) (htest : s.glb.testEn = false)
    (hshort : bitOf (s.reg DAC_STAT.adr) (16 + d) = false) : (s.dacApply d v).dacOut d = .zero := by
  obtain ⟨-, -, hglb⟩ := s.dacApply_frame d v
  have hstat : bitOf ((s.dacApply d v).reg DAC_STAT.adr) (16 + d) = false := by
    by_cases hr : s.dacRestarts d v
    · exact s.bitOf_stat_dacApply_of_restarts d v hr
    · rw [s.stat_dacApply_of_not_restarts d v hr, hshort]
  refine State.dacOut_of_held ?_ (.inl hold)
  simp [State.dacOff, hvdda, hglb, htest, hstat]

theorem exec_dacEnableApply_due (d : Fin 8) {s : State} {w : Word} (hb : s.atBoundary = true)
    (hw : s.due (DAC_XCH.adr d) = some w) : exec (.dacEnableApply d) s = .next (s.dacApply d w) := by
  change execDacEnableApply d s = _
  rw [execDacEnableApply, if_neg (by simp [hb]), hw]

/-! DACCLR_N (R421) -/

/-- CLRPIN shows the pin at `b`, and `f` notes the turn in the DACs' state. -/
def State.dacPinTurn (s : State) (b : Bool) (f : DacSt → DacSt) : State := (s.dacBit 31 b).onDac f

theorem State.dacsOnly_dacPinTurn (s : State) (b : Bool) (f : DacSt → DacSt) : s.dacsOnly (s.dacPinTurn b f) :=
  (s.dacsOnly_dacBit 31 b).onDac f

theorem State.dacPinTurn_dac (s : State) (b : Bool) (f : DacSt → DacSt) : (s.dacPinTurn b f).dac = f s.dac := by
  rw [State.dacPinTurn, State.onDac_dac, State.dacBit_dac]

theorem State.dacPinTurn_glb (s : State) (b : Bool) (f : DacSt → DacSt) : (s.dacPinTurn b f).glb = s.glb := by
  rw [State.dacPinTurn, State.onDac_glb, State.dacBit_glb]

theorem State.dacPinTurn_sidx (s : State) (b : Bool) (f : DacSt → DacSt) : (s.dacPinTurn b f).sidx = s.sidx := by
  rw [State.dacPinTurn, State.onDac_sidx, State.dacBit_sidx]

theorem State.reg_dacPinTurn_of_ne (s : State) (b : Bool) (f : DacSt → DacSt) {o : Nat} (h : o ≠ DAC_STAT.adr) :
    (s.dacPinTurn b f).reg o = s.reg o := by
  rw [State.dacPinTurn, State.reg_onDac, s.reg_dacBit_of_ne _ _ h]

theorem State.bitOf_stat_dacPinTurn (s : State) (b : Bool) (f : DacSt → DacSt) (j : Nat) :
    bitOf ((s.dacPinTurn b f).reg DAC_STAT.adr) j = if j = 31 then b else bitOf (s.reg DAC_STAT.adr) j := by
  rw [State.dacPinTurn, State.reg_onDac, s.bitOf_dacBit b j (by decide)]

theorem State.flag_clrPin_dacPinTurn (s : State) (b : Bool) (f : DacSt → DacSt) :
    (s.dacPinTurn b f).flag DAC_STAT.CLRPIN = b := by
  rw [State.flag_clrPin, s.bitOf_stat_dacPinTurn, if_pos rfl]

theorem State.dacClearOut_dacPinTurn (s : State) (b : Bool) (f : DacSt → DacSt) (d : Fin 8) :
    (s.dacPinTurn b f).dacClearOut d = s.dacClearOut d := by
  have hext : (s.dacPinTurn b f).flag DAC_STAT.REFEXT = s.flag DAC_STAT.REFEXT := by
    rw [State.flag_refExt, State.flag_refExt, s.bitOf_stat_dacPinTurn, if_neg (by decide)]
  have hgain : (s.dacPinTurn b f).flag (DAC_XCH.GAIN d) = s.flag (DAC_XCH.GAIN d) :=
    State.flag_congr (s.reg_dacPinTurn_of_ne b f (DAC_XCH.adr_ne_stat d))
  have hcode : (s.dacPinTurn b f).fld (DAC_XCLRCODE.CODE d) = s.fld (DAC_XCLRCODE.CODE d) :=
    State.fld_congr (s.reg_dacPinTurn_of_ne b f (by simp only [DAC_XCLRCODE.CODE, DAC_STAT.adr]; omega))
  rw [State.dacClearOut, State.dacClearOut, hcode, hgain, hext]

/-- A channel from row 3 on goes to its clear code when DACCLR_N falls, and stays there when it rises. -/
theorem State.dacOut_dacPinTurn (s : State) (d : Fin 8) (b : Bool) (f : DacSt → DacSt) (h3 : 3 ≤ s.dacRow d)
    (hvdda : (f s.dac).vdda = s.dac.vdda) (hhold : (f s.dac).hold = s.dac.hold) (href : (f s.dac).refHold = s.dac.refHold)
    (hc : b = true ∨ (f s.dac).clrRet = true) : (s.dacPinTurn b f).dacOut d = s.dacClearOut d := by
  obtain ⟨hoff, hheld⟩ := State.not_off_not_held_of_le_dacRow h3
  have hshort : bitOf ((s.dacPinTurn b f).reg DAC_STAT.adr) (16 + d) = bitOf (s.reg DAC_STAT.adr) (16 + d) := by
    rw [s.bitOf_stat_dacPinTurn, if_neg (by omega)]
  have hoff' : ¬(s.dacPinTurn b f).dacOff d := by
    rwa [State.dacOff_congr (by rw [s.dacPinTurn_dac, hvdda]) (s.dacPinTurn_glb b f) hshort]
  have hheld' : ¬(s.dacPinTurn b f).dacHeld d := by
    rwa [State.dacHeld, s.dacPinTurn_dac, s.dacPinTurn_sidx, hhold, href]
  have hclr : (s.dacPinTurn b f).dacCleared := by
    rw [State.dacCleared, s.flag_clrPin_dacPinTurn, s.dacPinTurn_dac]
    exact hc.elim .inl (fun h => .inr (.inl h))
  rw [State.dacOut_of_cleared hoff' hheld' hclr, s.dacClearOut_dacPinTurn]

/-- The event of the turn keeps what the turn set. -/
theorem State.dacPinTurn_raiseN2 (s : State) (d : Fin 8) (b : Bool) (f : DacSt → DacSt) (code source a0 a1 : Nat) :
    ((s.dacPinTurn b f).raiseN2 code source a0 a1).flag DAC_STAT.CLRPIN = b ∧
    ((s.dacPinTurn b f).raiseN2 code source a0 a1).dac = f s.dac ∧
    ((s.dacPinTurn b f).raiseN2 code source a0 a1).dacOut d = (s.dacPinTurn b f).dacOut d := by
  have hsame := (s.dacPinTurn b f).sameDacs_raiseN2 code source a0 a1
  refine ⟨?_, by rw [State.raiseN2_dac, s.dacPinTurn_dac], hsame.out d⟩
  rw [State.flag_clrPin, hsame.stat, ← State.flag_clrPin, s.flag_clrPin_dacPinTurn]

theorem exec_dacclrAssert {s : State} (h : s.flag DAC_STAT.CLRPIN = false) : exec .dacclrAssert s =
    .next ((s.dacPinTurn true (fun x => { x with clrLow := some s.sidx })).raiseN2 0xF0 0xFF 1 0) :=
  congrArg Host.Outcome.next (if_neg (by simp [h]))

theorem exec_dacclrRelease {s : State} (h : s.flag DAC_STAT.CLRPIN = true) : exec .dacclrRelease s =
    .next ((s.dacPinTurn false (fun x => { x with clrLow := none, clrRet := true })).raiseN2 0xF0 0xFF 0
      (s.sidx - s.dac.clrLow.getD s.sidx)) :=
  congrArg Host.Outcome.next (if_pos h)

/-! The reference (R418) -/

/-- The reference faults (`b`) or is used again, and every channel starts its hold at 0 V. -/
def State.dacRefTurn (s : State) (b : Bool) : State :=
  ((s.dacBit 29 b).showRef).onDac (fun x => { x with refHold := some s.sidx })

theorem State.dacsOnly_dacRefTurn (s : State) (b : Bool) : s.dacsOnly (s.dacRefTurn b) :=
  ((s.dacsOnly_dacBit 29 b).trans (State.dacsOnly_dacBit _ _ _)).onDac _

theorem State.bitOf_stat_dacRefTurn (s : State) (b : Bool) (j : Nat) : bitOf ((s.dacRefTurn b).reg DAC_STAT.adr) j =
    if j = 30 then s.flag DAC_XGLB.REFEXT && !b else if j = 29 then b else bitOf (s.reg DAC_STAT.adr) j := by
  have hext : (s.dacBit 29 b).flag DAC_XGLB.REFEXT = s.flag DAC_XGLB.REFEXT :=
    State.flag_congr (s.reg_dacBit_of_ne _ _ (by decide))
  rw [State.dacRefTurn, State.reg_onDac, State.bitOf_showRef, hext, s.bitOf_dacBit b _ (by decide),
    s.bitOf_dacBit b _ (by decide), if_pos rfl]

theorem State.dacOut_dacRefTurn (s : State) (b : Bool) (d : Fin 8) (h : s.dacRow d ≠ 1) : (s.dacRefTurn b).dacOut d = .zero := by
  have hshort : bitOf ((s.dacRefTurn b).reg DAC_STAT.adr) (16 + d) = bitOf (s.reg DAC_STAT.adr) (16 + d) := by
    rw [s.bitOf_stat_dacRefTurn, if_neg (by omega), if_neg (by omega)]
  have hvdda : (s.dacRefTurn b).dac.vdda = s.dac.vdda := by
    rw [State.dacRefTurn, State.onDac_dac, State.showRef_dac, State.dacBit_dac]
  have hglb : (s.dacRefTurn b).glb = s.glb := by rw [State.dacRefTurn, State.onDac_glb, State.showRef_glb, State.dacBit_glb]
  have href : (s.dacRefTurn b).dac.refHold = some (s.dacRefTurn b).sidx := by
    rw [State.dacRefTurn, State.onDac_dac, State.onDac_sidx, State.showRef_sidx, State.dacBit_sidx]
  have hoff : ¬(s.dacRefTurn b).dacOff d := by
    rw [State.dacOff_congr hvdda hglb hshort]; exact (s.dacRow_ne_one_iff d).mp h
  exact State.dacOut_of_held hoff (.inr href)

/-- The event of the turn keeps what the turn set: REFFAULT, REFEXT and the hold. -/
theorem State.dacRefTurn_raiseN2 (s : State) (b : Bool) (d : Fin 8) (code source a0 a1 : Nat) :
    ((s.dacRefTurn b).raiseN2 code source a0 a1).flag DAC_STAT.REFFAULT = b ∧
    ((s.dacRefTurn b).raiseN2 code source a0 a1).flag DAC_STAT.REFEXT = (s.flag DAC_XGLB.REFEXT && !b) ∧
    (s.dacRow d ≠ 1 → ((s.dacRefTurn b).raiseN2 code source a0 a1).dacOut d = .zero) := by
  have hsame := (s.dacRefTurn b).sameDacs_raiseN2 code source a0 a1
  refine ⟨?_, ?_, fun h => (hsame.out d).trans (s.dacOut_dacRefTurn b d h)⟩
  · rw [State.flag_refFault, hsame.stat, s.bitOf_stat_dacRefTurn, if_neg (by decide), if_pos rfl]
  · rw [State.flag_refExt, hsame.stat, s.bitOf_stat_dacRefTurn, if_pos rfl]

/-! Shorts and open loads (R425, R426) -/

/-- A fault of a channel: its bit of DAC_STAT is set, and the fault is counted. -/
def State.dacFault (s : State) (k : Nat) (d : Fin 8) : State := (s.dacBit k true).bump (DAC_FAULT_CNT.adr d)

theorem State.sameDacs_dacFault (s : State) (k : Nat) (d : Fin 8) (code source : Nat) (a0 a1 : Word) :
    (s.dacBit k true).sameDacs ((s.dacFault k d).raise code source a0 a1) :=
  (State.sameDacs_bump _ d).trans (State.sameDacs_raise _ _ _ _ _)

theorem State.bitOf_stat_dacFault (s : State) {k : Nat} (d : Fin 8) (code source : Nat) (a0 a1 : Word) (hk : k < 32) :
    bitOf (((s.dacFault k d).raise code source a0 a1).reg DAC_STAT.adr) k = true := by
  rw [(s.sameDacs_dacFault k d code source a0 a1).stat, s.bitOf_dacBit _ _ hk, if_pos rfl]

/-- A fault that the counter has room for is counted once and told. -/
theorem State.dacFault_counted (s : State) (k : Nat) (d : Fin 8) {code : Nat} (hcode : code < 0x100) (source : Nat) (a0 a1 : Word)
    (hroom : (s.reg (DAC_FAULT_CNT.adr d)).toNat + 1 < ctrMax) :
    ((s.dacFault k d).raise code source a0 a1).reg (DAC_FAULT_CNT.adr d) = s.reg (DAC_FAULT_CNT.adr d) + 1 ∧
      (s.hears code 1 → ((s.dacFault k d).raise code source a0 a1).told s code source a0 a1) := by
  have hcnt : (s.dacBit k true).reg (DAC_FAULT_CNT.adr d) = s.reg (DAC_FAULT_CNT.adr d) :=
    s.reg_dacBit_of_ne _ _ (by simp only [DAC_FAULT_CNT.adr, DAC_STAT.adr]; omega)
  have hfault : s.dacFault k d = (s.dacBit k true).setReg (DAC_FAULT_CNT.adr d) (s.reg (DAC_FAULT_CNT.adr d) + 1) := by
    rw [State.dacFault, State.bump_of_room _ _ (by rwa [hcnt]), hcnt]
  have hquiet : quietReg (DAC_FAULT_CNT.adr d) := by
    simp only [quietReg, DAC_FAULT_CNT.adr, TLY_LOST_CNT.adr, TLY_PEG.adr]; omega
  have honly : s.dacsOnly (s.dacFault k d) :=
    hfault ▸ (s.dacsOnly_dacBit k true).trans (State.dacsOnly_setReg _ _ (by simp only [DAC_FAULT_CNT.adr, DAC_CTL.adr]; omega))
  refine ⟨?_, honly.told hcode source a0 a1⟩
  rw [State.reg_raise _ _ _ _ _ hquiet, hfault, State.reg_setReg_self]

/-- A shorted channel is at high impedance. -/
theorem State.dacOut_of_short (s : State) (d : Fin 8) (code source : Nat) (a0 a1 : Word) :
    ((s.dacFault (16 + d) d).raise code source a0 a1).dacOut d = .hiZ :=
  State.dacOut_of_off (.inr (.inr (s.bitOf_stat_dacFault d code source a0 a1 (by omega))))

end Sys2Proof.Machine

open Sys2Proof Sys2Proof.Machine

/-- Settles O53: each command's own lemmas give what it sets, and the rows of R419 give what the channel drives. -/
theorem dacs : Obligations.Dacs := by
  intro d leg ok v s room told xch short isOpen counted clear
  refine ⟨?ctlWrite, ?applyNever, ?apply, ?holdNone, ?holdEnd, ?pinLow, ?pinHigh, ?refFault, ?refUnused, ?refRecovered, ?refGood,
    ?short, ?shortOff, ?retry, ?retryNone, ?isOpen, ?openUnwatched, ?openRecovered, ?vddaValid⟩
  case ctlWrite =>
    intro htest hreset hxmode
    exact ⟨_, exec_dacCtlWrite v htest hreset hxmode, s.flag_clr_dacCtl v, s.dac_dacCtl v,
      s.reg_dacCtl_of_ne v (by decide) (by decide), fun k hk => s.waiting_dacCtl v hk⟩
  case applyNever => exact fun hb => State.runs_of_pos rfl (by simp [hb]) rfl
  case apply =>
    intro w hb hw
    obtain ⟨hhost, htly, -⟩ := s.dacApply_frame d w
    refine ⟨_, exec_dacEnableApply_due d hb hw, s.dacApply_waiting d w, hhost, htly, s.dacApply_reg_xch d w, fun hgain => ?_,
      fun hwas hnew hretry => ?_, fun hwas => ?_⟩
    · exact ⟨s.mem_hold_dacApply d w hgain, s.dacOut_dacApply_of_gain d w (s.mem_hold_dacApply d w hgain)⟩
    · exact s.bitOf_stat_dacApply_of_restarts d w ⟨congrArg not hwas, hnew, congrArg not hretry⟩
    · exact s.stat_dacApply_of_not_restarts d w fun ⟨hrise, _⟩ => Bool.false_ne_true ((congrArg not hwas).symm.trans hrise)
  case holdNone => exact fun h => State.runs_of_neg rfl h rfl
  case holdEnd =>
    exact fun h => State.runs_of_pos rfl h ⟨by simp, (s.dacsOnly_onDac _).told_raiseN2 (by decide) _ _ _⟩
  case pinLow =>
    refine fun h => ⟨State.runs_of_pos rfl h rfl, _, exec_dacclrRelease h, ?_⟩
    obtain ⟨hpin, hdac, hout⟩ := s.dacPinTurn_raiseN2 d false (fun x => { x with clrLow := none, clrRet := true }) 0xF0 0xFF 0
      (s.sidx - s.dac.clrLow.getD s.sidx)
    refine ⟨hpin, congrArg DacSt.clrRet hdac, fun n hn => ?_,
      fun h3 => hout.trans (s.dacOut_dacPinTurn d false _ h3 rfl rfl rfl (.inr rfl))⟩
    rw [hn]
    exact (s.dacsOnly_dacPinTurn false _).told_raiseN2 (by decide) _ _ _
  case pinHigh =>
    refine fun h => ⟨State.runs_of_neg rfl (by simp [h]) rfl, _, exec_dacclrAssert h, ?_⟩
    obtain ⟨hpin, hdac, hout⟩ := s.dacPinTurn_raiseN2 d true (fun x => { x with clrLow := some s.sidx }) 0xF0 0xFF 1 0
    exact ⟨hpin, congrArg DacSt.clrLow hdac, (s.dacsOnly_dacPinTurn true _).told_raiseN2 (by decide) _ _ _,
      fun h3 => hout.trans (s.dacOut_dacPinTurn d true _ h3 rfl rfl rfl (.inl rfl))⟩
  case refFault =>
    intro hext hok
    obtain ⟨hfault, hrefext, hout⟩ := s.dacRefTurn_raiseN2 true d 0xF4 0xFF 2 0
    exact State.runs_of_pos rfl (by simp [hext, hok])
      ⟨hfault, hrefext.trans (by simp), (s.dacsOnly_dacRefTurn true).told_raiseN2 (by decide) _ _ _, hout⟩
  case refUnused => exact fun h => State.runs_of_neg rfl (by simp [h]) rfl
  case refRecovered =>
    intro h
    obtain ⟨hfault, hrefext, hout⟩ := s.dacRefTurn_raiseN2 false d 0xF4 0xFF 3 0
    exact State.runs_of_pos rfl h
      ⟨hfault, hrefext.trans (by simp), (s.dacsOnly_dacRefTurn false).told_raiseN2 (by decide) _ _ _, hout⟩
  case refGood => exact fun h => State.runs_of_neg rfl (by simp [h]) rfl
  case short =>
    exact fun hleg hrow => State.runs_of_neg rfl (not_or.mpr ⟨hleg, hrow⟩)
      ⟨s.bitOf_stat_dacFault d _ _ _ _ (by omega), s.dacOut_of_short d _ _ _ _, s.dacFault_counted _ d (by decide) _ _ _⟩
  case shortOff => exact fun hrow => State.runs_of_pos rfl (.inr hrow) rfl
  case retry =>
    refine fun hshort hretry => State.runs_of_pos rfl ⟨hshort, hretry⟩ ⟨?_, rfl⟩
    cases ok <;> simp
  case retryNone =>
    refine fun h => State.runs_of_neg rfl (fun hboth => ?_) rfl
    obtain ⟨hshort, hretry⟩ := hboth
    exact h.elim (fun hs => Bool.false_ne_true (hs.symm.trans hshort)) (fun hr => Bool.false_ne_true (hr.symm.trans hretry))
  case isOpen =>
    refine fun hen hclosed hrow => State.runs_of_pos rfl ⟨hen, by simpa using hclosed, hrow⟩
      ⟨s.bitOf_stat_dacFault d _ _ _ _ (by omega), ?_, s.dacFault_counted _ d (by decide) _ _ _⟩
    exact ((s.sameDacs_dacFault _ d _ _ _ _).row d).trans (s.dacRow_dacBit true d (by omega) (by omega) (by omega))
  case openUnwatched => exact fun h => State.runs_of_neg rfl (by simp [h]) rfl
  case openRecovered =>
    have hsame := (s.dacBit (8 + d) false).sameDacs_raiseN2 0xF3 d 2 0
    refine fun h => State.runs_of_pos rfl h ⟨?_, ?_, (s.dacsOnly_dacBit _ _).told_raiseN2 (by decide) _ _ _⟩
    · rw [hsame.stat, s.bitOf_dacBit _ _ (by omega), if_pos rfl]
    · exact (hsame.row d).trans (s.dacRow_dacBit false d (by omega) (by omega) (by omega))
  case vddaValid =>
    refine ⟨_, rfl, by simp, ?_, State.reg_setReg_of_ne _ _ (by decide)⟩
    rw [State.reg_setReg_self, bitOf_setBits_bit _ _ _ _ (by decide)]; rfl

end
